-- ==== Sys2Proof/Word.lean ====
section
/-!
DEFINITION. The word types of the device: bytes (R7), registers of 32 bits (R9), JXM records of 64 bytes (R63), and the
plain association list in which addressed memories and register files are held.
-/
namespace Sys2Proof

/-- A byte (R7). -/
abbrev Byte := BitVec 8

/-- A register (R9). -/
abbrev Word := BitVec 32

/-- A 64-byte JXM record; byte i of the record is bits 8i to 8i+7 (R63, R8: little-endian). -/
abbrev Rec := BitVec 512

/-- A sparse table by number: strictly rising keys, and no entry equal to the table's default. -/
abbrev SMap (β : Type) := List (Nat × β)

end Sys2Proof
end

