-- ==== Sys2Proof/Syntax.lean ====
section
/-!
DEFINITION. The commands and events of the device: one constructor for each row of opcode_table.json, in the table's order but for
fourteen of the tick, the resets and the banks, which stand last; each with what the
command carries from outside: its path, its register or port, the values received, measured or sampled, and the durations that the
manual only bounds.
-/
namespace Sys2Proof

/-- Who writes a register: firmware over the register bus, or a path of R13. -/
inductive Path where
  | fw | a | h | s | t
  deriving DecidableEq, Repr

/-- One access to an SRAM bank (R27, R34): the owner code of the agent, the byte address, the bytes written (none for a
read), how many bytes are read, and how many byte symbols of the line the read finds in error (R30). -/
structure Access where
  agent : Nat
  addr  : Nat
  wr    : Option (List Byte)
  len   : Nat
  err   : Nat
  deriving DecidableEq, Repr

/-- The arguments of a directory command (R126): ARG0 to ARG3. -/
structure DirArgs where
  a0 : Nat
  a1 : Nat
  a2 : Nat
  a3 : Nat
  deriving DecidableEq, Repr

/-- What a receiver measures of a burst after burst 0 (R211, R217, R218): its start against the receiver's own prediction plus OFFS, in
ns; the mean square of the cyclic prefix of its first symbol; how many samples of the 64-sample block in which it starts lie before
it; the mean squares of the blocks, from the one before that block on. -/
structure BurstIn where
  dev    : Int
  pre    : Nat
  lead   : Fin 64
  blocks : List Nat
  deriving DecidableEq, Repr

/-- A datagram to the SUP port (R299): interface (0-2 ETHn, 3 PPP), address and port of its sender, the UDP payload. -/
structure Dgram where
  iface : Nat
  addr  : List Byte
  port  : Nat
  bytes : List Byte
  deriving DecidableEq, Repr

/-- A received IEEE 1588 message (R283-R287): port, the transport that carried it as TIM_PTPCFG.TRANS codes it, domain, clockIdentity
of its sender, sequenceId, correctionField in 2^-16 ns, twoStepFlag, the timestamp that it carries, the clockIdentity that it answers, the
UTC offset if valid, and the nanosecond of the current tick at which it crosses the reference plane. -/
structure PtpMsg where
  port   : Nat
  trans  : Nat
  domain : Nat
  src    : Nat
  seq    : Nat
  corr   : Int
  two    : Bool
  sec    : Nat
  ns     : Nat
  req    : Nat
  utc    : Option Int
  off    : Nat
  deriving DecidableEq, Repr


/-- What an outlet's inputs give in a tick: mirror contact, voltage presence, lock feedback, the mean of the residual current over the tick
in 0.1 mA and the mean of its square in (0.1 mA)², and whether the fluxgate oscillates (R381, R392). -/
structure ChgIn where
  mir  : Bool
  vp   : Bool
  lock : Bool
  cur  : Int
  sq   : Nat
  osc  : Bool
  deriving DecidableEq, Repr

/-- What the parameter page of a chip enable gives (R413, R414): whether a copy has a good CRC, its LUNs, page and spare bytes,
pages per block, blocks per LUN, bits per cell, tPROG and tR in µs, rated cycles. -/
structure ParamPage where
  crcOk : Bool
  luns  : Nat
  page  : Nat
  spare : Nat
  ppb   : Nat
  bpl   : Nat
  bits  : Nat
  tprog : Nat
  tr    : Nat
  rated : Nat
  deriving DecidableEq, Repr


/-- One attempt at the copy of a unit (R421): the place, whether its program succeeds, and the corrected bits by codeword with whether some
codeword is uncorrectable when it is read back. -/
structure CopyTry where
  dst  : Nat
  ok   : Bool
  corr : List Nat
  bad  : Bool
  deriving DecidableEq, Repr

/-- One unit of a victim (R421): the corrected bits by codeword and whether some codeword is uncorrectable when it is read, and the attempts
at its copy. -/
structure UnitMove where
  corr  : List Nat
  bad   : Bool
  tries : List CopyTry
  deriving DecidableEq, Repr

/-- What the capture phase of a tick takes from outside (R37): raw samples of I0-I15 and V0-V7, excitation currents in 0.1 mA, the
outlets' inputs, and the periods of the 32.768 kHz crystal and of the operating-second clock (in 1/32,768 s) in the tick that
ends. -/
structure TickIn where
  samples : List Int
  exc     : List Nat
  chg     : List ChgIn
  rtc     : Nat
  ops     : Nat
  deriving DecidableEq, Repr

/-- What the SFDP table of the NOR gives (R550): its density in bytes, the method of enabling quad mode, the dummy cycles of the 1-4-4 and
the 1-1-4 fast read where it declares them, whether it declares the 4 KiB erase 20h. -/
structure Sfdp where
  density : Nat
  quad    : Nat
  read144 : Option Nat
  read114 : Option Nat
  erase20 : Bool
  deriving DecidableEq, Repr

/-- What a start takes from outside (R490): whether the life-cycle fuses read, whether the TRNG's tests pass, periods of the
crystal and of the operating-second clock since the last tick, seconds on battery, the unmeasured time in ms (R179), the
ticks at which steps 3 to 9 ended, and the SFDP table of the NOR when it has a valid signature (R550). -/
structure Release where
  fuses   : Bool
  entropy : Bool
  rtc     : Nat
  ops     : Nat
  outage  : Nat
  unmet   : Nat
  steps   : List Nat
  sfdp    : Option Sfdp
  deriving DecidableEq, Repr

/-- The commands (opcode_table.json).  Each acts whole, at the moment its effect comes about. -/
inductive Instr where
  /-- BANK_ACCESS (R27) -/
  | bankAccess (p0 : Access) (p1 : Option Access)
  /-- BANK_OWNER_HANDOVER (R28) -/
  | bankOwnerHandover (p : Path) (bank : Fin 48) (owner : Fin 32)
  /-- BANK_POWER_CHANGE (R29) -/
  | bankPowerChange (p : Path) (bank : Fin 48) (pwr : Fin 4)
  /-- SCRUB (R33) -/
  | scrub (errs left : List (Nat × Nat))
  /-- REGISTER_WRITE (R533) -/
  | registerWrite (p : Path) (cpu : Fin 4) (addr : Nat) (mask value : Word) (narrow : Bool)
  /-- UNMAPPED_ACCESS (R22) -/
  | unmappedAccess (p : Path) (addr : Nat)
  /-- FRAME_OPEN (R80) -/
  | frameOpen (q : Fin 32) (fcnt : Fin 64) (job : Bool)
  /-- FRAME_WORD_WRITE (R81) -/
  | frameWordWrite (q : Fin 32) (w : BitVec 512)
  /-- FRAME_ERROR_REWIND (R82) -/
  | frameErrorRewind (q : Fin 32)
  /-- FRAME_TIMEOUT (R83) -/
  | frameTimeout (q : Fin 32)
  /-- QUEUE_REFILL (R78) -/
  | queueRefill (q : Fin 32) (bad : Bool)
  /-- QUEUE_MODE_CHANGE (R87) -/
  | queueModeChange (p : Path) (q : Fin 32) (mode : Bool)
  /-- RING_READ_ADVANCE (R86) -/
  | ringReadAdvance (p : Path) (q : Fin 32) (rptr : Fin 2048)
  /-- QUEUE_FENCE_FLAG_CHANGE (R84) -/
  | queueFenceFlagChange (p : Path) (q : Fin 32) (v : Bool)
  /-- ADMISSION_SLOT (R97) -/
  | admissionSlot (l : Fin 4) (j : Fin 125) (lat : Fin 461)
  /-- FENCE_RELEASE (R55) -/
  | fenceRelease (q : Fin 32)
  /-- LANE_FAULT (R121) -/
  | laneFault (l : Fin 4) (j : Option (Fin 125))
  /-- LANE_RESUME (R121) -/
  | laneResume (l : Fin 4)
  /-- INSERT (R105) -/
  | insert (d : DirArgs)
  /-- REMOVE (R126) -/
  | remove (d : DirArgs)
  /-- SETSTAT (R126) -/
  | setstat (d : DirArgs)
  /-- SETEPOCH (R119) -/
  | setepoch (d : DirArgs)
  /-- SETASSIGN (R126) -/
  | setassign (d : DirArgs)
  /-- SETLINK (R126) -/
  | setlink (d : DirArgs)
  /-- FIND (R126) -/
  | find (d : DirArgs)
  /-- SETDOWN (R126) -/
  | setdown (d : DirArgs)
  /-- WRSTAT (R126) -/
  | wrstat (d : DirArgs)
  /-- RPLREAD (R102) -/
  | rplread (d : DirArgs)
  /-- RPLMAX (R126) -/
  | rplmax (d : DirArgs)
  /-- RPLLINE (R102) -/
  | rplline (d : DirArgs)
  /-- DIRFIX (R126) -/
  | dirfix (d : DirArgs)
  /-- WEPOCH (R128) -/
  | wepoch (d : DirArgs)
  /-- HFREE (R109) -/
  | hfree (d : DirArgs)
  /-- WINDOW_ZEROING (R128) -/
  | windowZeroing (lines : Nat)
  /-- HEART_FILL (R111) -/
  | heartFill
  /-- HEART_REDERIVE (R364) -/
  | heartRederive
  /-- INTERVAL_OPEN (R144) -/
  | intervalOpen
  /-- INTERVAL_CLOSE (R145) -/
  | intervalClose
  /-- BALANCE_RUN_START (R136) -/
  | balanceRunStart
  /-- REPORT_POP (R154) -/
  | reportPop (p : Path)
  /-- METERING_VALID (R161) -/
  | meteringValid
  /-- TEMPERATURE_FACTOR_UPDATE (R164) -/
  | temperatureFactorUpdate (die : Int) (board : Option Int)
  /-- PER_SECOND_VALUES (R168) -/
  | perSecondValues
  /-- ZERO_CROSSING_DECISION (R214) -/
  | zeroCrossingDecision (v : Fin 7)
  /-- PSEUDO_CYCLE (R170) -/
  | pseudoCycle (g : Fin 4) (p : Fin 3)
  /-- PERIODIC_SAVE (R177) -/
  | periodicSave
  /-- ENERGY_BASE_ADD (R178) -/
  | energyBaseAdd (p : Path)
  /-- PULSE_START (R181) -/
  | pulseStart (k : Fin 4)
  /-- PULSE_END (R181) -/
  | pulseEnd (k : Fin 4)
  /-- SILLAGE_WINDOW (R185) -/
  | sillageWindow (samples : List (List Int))
  /-- SILLAGE_BLOCK_END (R186) -/
  | sillageBlockEnd
  /-- SILLAGE_TOTAL_CLEAR (R187) -/
  | sillageTotalClear (p : Path)
  /-- PLC_TRANSMIT_REQUEST (R216) -/
  | plcTransmitRequest (p : Fin 4) (mod : Fin 4) (psdu : List Byte)
  /-- PLC_BURST_START (R209) -/
  | plcBurstStart (p : Fin 4)
  /-- PLC_SYNC_DETECT (R212) -/
  | plcSyncDetect (p : Fin 4) (dev : Int) (gain : Fin 8) (ref : Nat)
  /-- PLC_HEADER_DECODE (R200) -/
  | plcHeaderDecode (p : Fin 4) (b : BurstIn) (h : BitVec 24)
  /-- PLC_FRAME_DECODE (R219) -/
  | plcFrameDecode (p : Fin 4) (bursts : List BurstIn) (snr : Fin 64) (stream : List Byte)
  /-- SWEEP_START (R241) -/
  | sweepStart (p : Fin 4)
  /-- TRAIN_START (R241) -/
  | trainStart (p : Fin 4)
  /-- SLOT_TIMEOUT (R232) -/
  | slotTimeout (p : Fin 4)
  /-- DATA_FRAME_RECEIVED (R238) -/
  | dataFrameReceived (p : Fin 4)
  /-- DATA_VERDICTS_COMPLETE (R238) -/
  | dataVerdictsComplete (p : Fin 4)
  /-- METER_ACK_RECEIVED (R240) -/
  | meterAckReceived (p : Fin 4)
  /-- METER_NACK_RECEIVED (R240) -/
  | meterNackReceived (p : Fin 4)
  /-- ROUND_END (R241) -/
  | roundEnd (p : Fin 4)
  /-- BEACON (R245) -/
  | beacon (p : Fin 4)
  /-- JOIN_RECEIVED (R247) -/
  | joinReceived (p : Fin 4)
  /-- DOWN (R248) -/
  | down (p : Fin 4)
  /-- BLOCK (R249) -/
  | block (p : Fin 4) (img : BitVec 32) (cnt no : Nat) (data : List Byte)
  /-- SLAVE_POLL_RECEIVED (R250) -/
  | slavePollReceived
  /-- SLAVE_DOWN_RECEIVED (R250) -/
  | slaveDownReceived (names : Option Nat)
  /-- SLAVE_BEACON_RECEIVED (R245) -/
  | slaveBeaconReceived
  /-- UPLINK_BEACON_LOSS (R250) -/
  | uplinkBeaconLoss
  /-- SERIAL_REQUEST (R257) -/
  | serialRequest (k : Fin 12)
  /-- SERIAL_REPLY (R258) -/
  | serialReply (n : Fin 8) (ago idle : Nat) (bytes : List Byte)
  /-- SERIAL_REPLY_TIMEOUT (R257) -/
  | serialReplyTimeout (k : Fin 12)
  /-- SERIAL_GAP_TIMEOUT (R258) -/
  | serialGapTimeout (n : Fin 8)
  /-- SND_NKE (R260) -/
  | sndNke (b : Fin 2)
  /-- REQ_UD2 (R260) -/
  | reqUd2 (b : Fin 2)
  /-- RSP_UD (R261) -/
  | rspUd (b : Fin 2) (ago : Nat) (bytes : List Byte)
  /-- MBUS_REPLY_TIMEOUT (R260) -/
  | mbusReplyTimeout (b : Fin 2)
  /-- RADIO_FRAME (R262) -/
  | radioFrame (r : Fin 4) (ago : Nat) (bytes : List Byte)
  /-- TRANSCEIVER_SCRIPT (R262) -/
  | transceiverScript (r : Fin 4)
  /-- JAM (R266) -/
  | jam (k : Fin 12)
  /-- JAM_END (R266) -/
  | jamEnd (k : Fin 12)
  /-- MBUS_OVERLOAD (R266) -/
  | mbusOverload (b : Fin 2)
  /-- MBUS_OVERLOAD_RETRY (R266) -/
  | mbusOverloadRetry (b : Fin 2)
  /-- RFID_LINE (R264) -/
  | rfidLine (u : Fin 4) (line : List Byte)
  /-- DISPLAY_LINE (R265) -/
  | displayLine (u : Fin 4)
  /-- PPP_ECHO_TIMEOUT (R266) -/
  | pppEchoTimeout (u : Fin 4) (rx : List Byte)
  /-- ETH_FRAME_RECEIVED (R272) -/
  | ethFrameReceived (n : Fin 3) (fcs : Bool) (bytes : List Byte)
  /-- ETH_LINK_LOSS (R273) -/
  | ethLinkLoss (n : Fin 3)
  /-- PAUSE_RECEIVED (R273) -/
  | pauseReceived (n : Fin 3) (quanta : BitVec 16) (offs : List Nat)
  /-- SFP_MODULE_CHANGE (R273) -/
  | sfpModuleChange (modabs los : Bool)
  /-- TIME_STEP_REQUEST (R279) -/
  | timeStepRequest (p : Path) (ns : BitVec 31)
  /-- STEP_REARM (R279) -/
  | stepRearm (p : Path)
  /-- ADDEND_APPLY (R275) -/
  | addendApply (p : Path) (hi : BitVec 32)
  /-- SYNC_RECEIVED (R284) -/
  | syncReceived (m : PtpMsg)
  /-- FOLLOW_UP_RECEIVED (R284) -/
  | followUpReceived (m : PtpMsg)
  /-- DELAY_RESP_RECEIVED (R279) -/
  | delayRespReceived (m : PtpMsg)
  /-- ANNOUNCE_RECEIVED (R284) -/
  | announceReceived (m : PtpMsg)
  /-- DELAY_REQ_RECEIVED (R283) -/
  | delayReqReceived (m : PtpMsg)
  /-- ANNOUNCE_TIMEOUT (R284) -/
  | announceTimeout
  /-- SYNC_SEND (R286) -/
  | syncSend (off : Nat)
  /-- ANNOUNCE_SEND (R284) -/
  | announceSend
  /-- DELAY_REQ_SEND (R287) -/
  | delayReqSend (off : Nat)
  /-- TIMESTAMP_SEARCH (R287) -/
  | timestampSearch (p : Path) (key : BitVec 32)
  /-- TRIGGER_ARM (R289) -/
  | triggerArm (p : Path) (k : Fin 4) (ns : BitVec 30)
  /-- TRIGGER_PULSE (R289) -/
  | triggerPulse (k : Fin 4)
  /-- PPS_OUT_PULSE (R290) -/
  | ppsOutPulse
  /-- CAPTURE_EDGE (R291) -/
  | captureEdge (k : Fin 5) (off : Nat)
  /-- PPS_SOURCE_LOSS (R292) -/
  | ppsSourceLoss
  /-- RTC_SYNC (R295) -/
  | rtcSync
  /-- HELLO_PHASE1_SEND (R311) -/
  | helloPhase1Send
  /-- HELLO_PHASE1 (R307) -/
  | helloPhase1 (d : Option Dgram)
  /-- HELLO_PHASE2 (R307) -/
  | helloPhase2 (d : Option Dgram)
  /-- HELLO_PHASE3 (R311) -/
  | helloPhase3 (d : Option Dgram)
  /-- HELLO_RETRY_TIMEOUT (R311) -/
  | helloRetryTimeout
  /-- HALF_OPEN_TIMEOUT (R311) -/
  | halfOpenTimeout
  /-- RECORDS (R317) -/
  | records (d : Option Dgram)
  /-- RECORDS_SEND (R315) -/
  | recordsSend
  /-- RECORDS_RETRANSMIT (R315) -/
  | recordsRetransmit
  /-- ACK (R314) -/
  | ack (d : Option Dgram)
  /-- ACK_SEND (R316) -/
  | ackSend
  /-- ACKR_ADVANCE (R317) -/
  | ackrAdvance
  /-- MGMT_READ (R323) -/
  | mgmtRead (d : Option Dgram)
  /-- MGMT_WRITE (R324) -/
  | mgmtWrite (d : Option Dgram)
  /-- KEY_UPDATE (R367) -/
  | keyUpdate (d : Option Dgram)
  /-- FW_CHUNK (R326) -/
  | fwChunk (d : Option Dgram)
  /-- ACTIVATE (R327) -/
  | activate (d : Option Dgram)
  /-- DOWNLINK (R328) -/
  | downlink (d : Option Dgram)
  /-- ALARM_SEND (R321) -/
  | alarmSend
  /-- SESSION_IDLE_TIMEOUT (R312) -/
  | sessionIdleTimeout
  /-- SESSION_LIFETIME_EXPIRY (R312) -/
  | sessionLifetimeExpiry
  /-- KEEPALIVE_ACK (R312) -/
  | keepaliveAck
  /-- TEST_OPEN (R520) -/
  | testOpen (d : Option Dgram)
  /-- TEST_CLOSE (R520) -/
  | testClose (d : Option Dgram)
  /-- PERTURBATION_WINDOW_EXPIRY (R520) -/
  | perturbationWindowExpiry
  /-- CIP_START (R342) -/
  | cipStart (agent : Fin 32) (page : Fin 256) (regs : List (Nat × BitVec 32))
  /-- CIP_ZERO (R338) -/
  | cipZero (agent : Fin 32) (page : Fin 256)
  /-- CIP_COMMIT (R349) -/
  | cipCommit (agent : Fin 32) (page : Fin 256)
  /-- CIP_ABANDON (R349) -/
  | cipAbandon (agent : Fin 32) (page : Fin 256)
  /-- JOB_END (R351) -/
  | jobEnd (page : Fin 256)
  /-- COUNTER_MARK_RAISE (R346) -/
  | counterMarkRaise (slot : Fin 32)
  /-- KEY_LOAD (R365) -/
  | keyLoad (agent : Fin 32) (page : Fin 256) (purpose : Fin 16) (gen : BitVec 32)
  /-- KEY_UPDATE_WRITE (R368) -/
  | keyUpdateWrite
  /-- KEY_UPDATE_TRANSITION (R369) -/
  | keyUpdateTransition
  /-- KEY_UPDATE_SETAUTH (R368) -/
  | keyUpdateSetauth
  /-- TRANSITION_DIE_RESET (R370) -/
  | transitionDieReset
  /-- TAMPER_INPUT (R372) -/
  | tamperInput (n : Fin 8) (pin : Bool)
  /-- TAMPER_INTERNAL (R373) -/
  | tamperInternal (src : Fin 3)
  /-- ENTROPY_FAILURE (R380) -/
  | entropyFailure
  /-- PILOT_STATE_CHANGE (R386) -/
  | pilotStateChange (o : Fin 2) (r : List (Int × Int))
  /-- PROXIMITY_CHANGE (R387) -/
  | proximityChange (o : Fin 2) (r : List Nat)
  /-- CONTACTOR_CLOSE (R388) -/
  | contactorClose (o : Fin 2)
  /-- CONTACTOR_CHECK_TIMEOUT (R389) -/
  | contactorCheckTimeout (o : Fin 2)
  /-- LOCK_TIMEOUT (R390) -/
  | lockTimeout (o : Fin 2)
  /-- RESIDUAL_CURRENT_TRIP (R392) -/
  | residualCurrentTrip (o : Fin 2)
  /-- SELF_TEST (R393) -/
  | selfTest (o : Fin 2)
  /-- SELF_TEST_RESULT (R393) -/
  | selfTestResult (o : Fin 2)
  /-- CP_COMPARATOR_SAFE_OPEN (R394) -/
  | cpComparatorSafeOpen (o : Fin 2)
  /-- TRIP_ISLAND_TIMER (R395) -/
  | tripIslandTimer (o : Fin 2) (x : ChgIn)
  /-- OFFER_COMPUTE (R396) -/
  | offerCompute
  /-- PAUSED_CONTACTOR_RELEASE (R398) -/
  | pausedContactorRelease (o : Fin 2)
  /-- AUTH_START (R400) -/
  | authStart (p : Path) (o : Fin 2) (acct : Fin 4096)
  /-- AUTH_STOP (R401) -/
  | authStop (p : Path) (o : Fin 2)
  /-- AUTH_CLEAR (R399) -/
  | authClear (p : Path) (o : Fin 2)
  /-- AUTH_DISABLE (R399) -/
  | authDisable (p : Path) (o : Fin 2)
  /-- AUTH_ENABLE (R399) -/
  | authEnable (p : Path) (o : Fin 2)
  /-- AUTHORISATION_TIMEOUT (R400) -/
  | authorisationTimeout (o : Fin 2)
  /-- CREDIT_LIMIT_WRITE (R403) -/
  | creditLimitWrite
  /-- SESSION_RECORD (R405) -/
  | sessionRecord (o : Fin 2)
  /-- SETACC (R408) -/
  | setacc
  /-- ACCOUNT_CREDIT (R408) -/
  | accountCredit
  /-- ACCOUNT_BLOCK (R408) -/
  | accountBlock
  /-- ACCOUNT_READ (R408) -/
  | accountRead
  /-- TARIFF (R404) -/
  | tariff
  /-- ACCOUNT_REMOVE (R408) -/
  | accountRemove
  /-- ACCOUNT_REBUILD (R407) -/
  | accountRebuild
  /-- NAND_PROGRAM_DONE (R420) -/
  | nandProgramDone (k dst : Nat) (ok : Bool)
  /-- NAND_ERASE_DONE (R420) -/
  | nandEraseDone (block : Nat) (ok : Bool)
  /-- UNIT_READ (R417) -/
  | unitRead (lun : Nat) (corr : List Nat) (bad : Bool)
  /-- GARBAGE_COLLECTION (R421) -/
  | garbageCollection (victim : Option Nat) (moves : List UnitMove)
  /-- MAP_SEGMENT_WRITE (R419) -/
  | mapSegmentWrite (dst : Nat) (ok : Bool)
  /-- HOLDUP_CHECK (R434) -/
  | holdupCheck (reached fall time : Nat)
  /-- HOLDUP_CHARGE_TIMEOUT (R434) -/
  | holdupChargeTimeout
  /-- HOLDUP_DECISION (R434) -/
  | holdupDecision
  /-- MOUNT (R419) -/
  | mount (pages : List ParamPage) (bad : List Nat)
  /-- LEDGER_RESTORE (R432) -/
  | ledgerRestore
  /-- LEDGER_UNIT_FLUSH (R427) -/
  | ledgerUnitFlush
  /-- FENCE_ISSUE (R429) -/
  | fenceIssue (p : Option Path)
  /-- FENCE_COMPLETE (R429) -/
  | fenceComplete
  /-- LEDGER_HOLD (R428) -/
  | ledgerHold
  /-- LEDGER_HOLD_END (R428) -/
  | ledgerHoldEnd
  /-- LEDGER_UNIT_RELEASE (R430) -/
  | ledgerUnitRelease
  /-- CHECKPOINT (R431) -/
  | checkpoint (tries : List (Nat × Bool))
  /-- DRYDOWN (R505) -/
  | drydown (tries : List (Nat × Bool))
  /-- DRYDOWN_TAKEOVER (R505) -/
  | drydownTakeover (tries : List (Nat × Bool))
  /-- DRYDOWN_DONE (R505) -/
  | drydownDone (us : Nat)
  /-- DRYDOWN_SHORT (R436) -/
  | drydownShort
  /-- FORMAT (R439) -/
  | format (p : Path)
  /-- TEMPERATURE_HISTOGRAM (R440) -/
  | temperatureHistogram (temps : List Int)
  /-- EVENT_RECORD (R449) -/
  | eventRecord (k : Nat)
  /-- BARRIER (R449) -/
  | barrier (src : Option (Fin 22)) (k : Nat)
  /-- FLUSH (R454) -/
  | flush (p : Path)
  /-- READ (R460) -/
  | read (p : Path)
  /-- CLEAR (R459) -/
  | clear (p : Path)
  /-- EVENT_UNIT_PROGRAM (R454) -/
  | eventUnitProgram
  /-- CONFIRM (R472) -/
  | confirm (p : Path)
  /-- TRIAL_TIMER_EXPIRY (R511) -/
  | trialTimerExpiry
  /-- FIXATIVE_WRITE (R481) -/
  | fixativeWrite
  /-- SVC_MESSAGE (R495) -/
  | svcMessage (bytes : List Byte)
  /-- POWER_FAIL_WARNING (R502) -/
  | powerFailWarning
  /-- MAIN_SUPPLIES_LOST (R503) -/
  | mainSuppliesLost
  /-- WARNING_RECOVERY (R504) -/
  | warningRecovery
  /-- VBAT_MEASUREMENT (R499) -/
  | vbatMeasurement (mv : Fin 4096)
  /-- RTC_SET (R508) -/
  | rtcSet (p : Path) (sec : BitVec 32)
  /-- CRYSTAL_STOP (R508) -/
  | crystalStop
  /-- WATCHDOG_KICK (R510) -/
  | watchdogKick (p : Path) (key : Fin 256)
  /-- WATCHDOG_EXPIRY (R510) -/
  | watchdogExpiry
  /-- SKEW_START (R522) -/
  | skewStart (p : Path) (amount : BitVec 16) (step : Fin 16)
  /-- NAND_FAILURE_ARM (R522) -/
  | nandFailureArm (p : Path) (kind : Fin 4)
  /-- TAG_FAILURE_ARM (R522) -/
  | tagFailureArm (p : Path) (tgt : Bool) (page : Fin 256) (q : Fin 32)
  /-- TEST_STEP_REQUEST (R522) -/
  | testStepRequest (p : Path) (ns : BitVec 31)
  /-- LOOPBACK_SET (R527) -/
  | loopbackSet (p : Path) (plc : Fin 4) (eth : Fin 8) (ser : Fin 256)
  /-- DIRHOLD (R524) -/
  | dirhold (p : Path) (v : Bool)
  /-- BYPASS (R517) -/
  | bypass (bit : Bool)
  /-- IDCODE (R517) -/
  | idcode
  /-- SAMPLE_PRELOAD (R517) -/
  | samplePreload (cells : List Byte)
  /-- EXTEST (R518) -/
  | extest (cells : List Byte)
  /-- TESTACC (R517) -/
  | testacc (addr : Nat) (wr : Option Word)
  /-- ALARM_RECEIVED (R321) -/
  | alarmReceived (d : Option Dgram)
  /-- SLAVE_DISCOVER_RECEIVED (R246) -/
  | slaveDiscoverReceived
  /-- SLAVE_JOIN_ACK_RECEIVED (R250) -/
  | slaveJoinAckReceived
  /-- ETH_LINK_UP (R273) -/
  | ethLinkUp (n : Fin 3) (spd : Fin 4)
  /-- PAUSE_QUANTA_EXPIRY (R273) -/
  | pauseQuantaExpiry (n : Fin 3) (offs : List Nat)
  /-- UART_CTS_CHANGE (R266) -/
  | uartCtsChange (u : Fin 4) (cts : Bool)
  /-- SVC_VBUS_CHANGE (R549) -/
  | svcVbusChange (up : Bool)
  /-- ENTROPY_RECOVERY (R380) -/
  | entropyRecovery
  /-- ISLAND_SUPPLY_LOST (R499) -/
  | islandSupplyLost
  /-- TICK_CAPTURE (R37) -/
  | tickCapture (x : TickIn)
  /-- TICK_COMMIT (R37) -/
  | tickCommit
  /-- SLOT_ACTIVATION (R44) -/
  | slotActivation (n : Fin 48) (work : Nat)
  /-- SLOT_CUT (R47) -/
  | slotCut (n : Fin 48)
  /-- PLAN_SWITCH (R46) -/
  | planSwitch
  /-- ISLAND_POWER_ON_RESET (R478) -/
  | islandPowerOnReset
  /-- RESET_N_ASSERT (R477) -/
  | resetNAssert
  /-- RESET_RELEASE (R490) -/
  | resetRelease (x : Release)
  /-- PLL_RESTART (R477) -/
  | pllRestart
  /-- RESTART (R468) -/
  | restart
  /-- RECOVERY_RESTART (R496) -/
  | recoveryRestart (cpu : Fin 4) (why : Fin 3)
  /-- CORRECTED_LINE_WRITEBACK (R30) -/
  | correctedLineWriteback (line : Nat)
  /-- HANDOVER_DRAIN_END (R28) -/
  | handoverDrainEnd (bank : Fin 48)
  /-- BANK_READY (R29) -/
  | bankReady (bank : Fin 48)
  deriving DecidableEq, Repr

end Sys2Proof
end

