-- ==== Sys2Proof/Decode.lean ====
section
/-!
DEFINITION. The words of commands.  The device takes commands by registers, messages and pins, and its table gives no row any bits:
no word spells a command.
-/
namespace Sys2Proof

/-- The command that a word spells by the table's bits: none, since no row has bits. -/
def decodeTableWord (_nbits _w : Nat) : Option Instr := none

end Sys2Proof
end

