-- ==== Sys2Proof/Config.lean ====
section
/-!
DEFINITION. What the manual leaves open as a value: each is a constant without a body, so that nothing can be proved of its
value.  A meaning applies one to the plain counter `fresh` of the state, which it then advances, or to its operands.
-/
namespace Sys2Proof

/-- A value the manual leaves open, one for each draw: nonces, keys and numbers of the TRNG (R380), the data of a line
miscorrected by R30, and the other values listed in the assumption log. -/
opaque Config.freeValue : Nat → BitVec 512

/-- Whether an error in three or more symbols lies within two symbols of another valid line (R30): by the draw. -/
opaque Config.miscorrects : Nat → Bool

/-- Which way a computation whose result is not a whole number rounds, where the manual states no rounding: up when true. -/
opaque Config.roundsUp : Int → Int → Bool

/-- The 64-bit device serial in OTP (R358): each device has its own. -/
opaque Config.serial : BitVec 64

/-- AHK, the SHA-256 hash of Kaolaoc's public key in OTP (R358). -/
opaque Config.ahk : BitVec 256

/-- The OTP base address of the Ethernet ports (R272). -/
opaque Config.macBase : BitVec 48

/-- The AT command line with which a port in MODEM role starts its modem (R263); the manual gives none. -/
opaque Config.modemStart : List Byte

/-- The 42 bytes of parity of a codeword under the BCH code of R415; the manual names the code and gives no generator polynomial. -/
opaque Config.bchParity : List (BitVec 8) → List (BitVec 8)

end Sys2Proof
end

