-- ==== Sys2Proof/Machine/RegTypes.lean ====
section
/-!
DEFINITION. The types the register table is written in: a field handle, an access code of R11, and a row of a register
table.  Paths of R13 are kept as a mask: A 1, H 2, S 4, T 8.
-/
namespace Sys2Proof.Machine

/-- A field of a register: its register's address, its lowest bit and its width (R7, R9). -/
structure Fld where
  addr : Nat
  lo   : Nat
  w    : Nat
  deriving DecidableEq, Repr

/-- The access codes of R11.  `w1c` is a field each of whose bits a 1 clears; `w1cField` is a counter which, as its
description says, a 1 written to its lowest bit clears whole. -/
inductive Acc where
  | ro | rw | w1c | w1cField | wo | rwl
  deriving DecidableEq, Repr

/-- One field of a register table (R10). -/
structure FRow where
  name  : String
  lo    : Nat
  w     : Nat
  acc   : Acc
  reset : Nat
  paths : Nat
  legal : List (Nat × Nat)
  deriving DecidableEq, Repr

/-- One register name of R530: base address, index counts and strides (outermost first), fields, and the reset words that
depend on the index. -/
structure RegRow where
  name : String
  base : Nat
  dims : List (Nat × Nat)
  flds : List FRow
  ovr  : List (Nat × Nat)
  deriving DecidableEq, Repr

end Sys2Proof.Machine
end

