-- ==== Sys2Proof/Machine/Bits.lean ====
section
/-!
DEFINITION. Numbers, bits and bytes: field extraction (R7), little-endian byte strings (R8), two's complement readings,
saturating counts, and the bit tests of mask fields.
-/
namespace Sys2Proof.Machine

/-- Bits [lo+w-1 : lo] of a number. -/
def bitsOf (n lo w : Nat) : Nat := (n / 2 ^ lo) % 2 ^ w

/-- Bit `i` of a number. -/
def bitOf (n i : Nat) : Bool := n.testBit i

/-- 1 for true. -/
def b2n (b : Bool) : Nat := if b then 1 else 0

/-- `n` with bit `i` set to `b`. -/
def withBit (n i : Nat) (b : Bool) : Nat :=
  if n.testBit i = b then n else if b then n + 2 ^ i else n - 2 ^ i

/-- How many of the lowest `w` bits of `n` are 1. -/
def popCount (w n : Nat) : Nat := ((List.range w).filter (fun i => n.testBit i)).length

/-- The value of a `w`-bit two's complement number. -/
def sgn (w n : Nat) : Int := if n < 2 ^ (w - 1) then (n : Int) else (n : Int) - (2 ^ w : Nat)

/-- The `w`-bit two's complement number of an integer. -/
def unsgn (w : Nat) (i : Int) : Nat := (i % (2 ^ w : Nat)).toNat

/-- An integer held to the range [lo, hi]. -/
def clampI (lo hi i : Int) : Int := if i < lo then lo else if hi < i then hi else i

/-- Integer division rounded toward zero. -/
def divZ (a b : Int) : Int := Int.tdiv a b

/-- Integer division rounded to nearest, halves away from zero. -/
def divNear (a b : Int) : Int :=
  if a < 0 then - (((- a) * 2 + b) / (2 * b)) else (a * 2 + b) / (2 * b)

/-- The whole number next to a / b where the manual states no rounding: below or above it, as an open value decides. -/
def divOpen (a b : Int) : Int :=
  if a % b = 0 then a / b else if Config.roundsUp a b then a / b + 1 else a / b

/-- Addition that stops at 2^w - 1. -/
def satAdd (w a n : Nat) : Nat := min (a + n) (2 ^ w - 1)

/-- Division rounded up. -/
def ceilDiv (a b : Nat) : Nat := (a + b - 1) / b

/-- Integer square root, rounded down, found bit by bit from bit `k - 1`. -/
def isqrtFrom (n : Nat) : Nat → Nat → Nat
  | 0, r => r
  | k + 1, r => if (r + 2 ^ k) * (r + 2 ^ k) ≤ n then isqrtFrom n k (r + 2 ^ k) else isqrtFrom n k r

/-- Integer square root of numbers below 2^128. -/
def isqrt (n : Nat) : Nat := isqrtFrom n 64 0

/-- The little-endian number of a byte string (R8). -/
def leNat : List Byte → Nat
  | [] => 0
  | b :: t => b.toNat + 256 * leNat t

/-- The first `k` bytes, little-endian, of a number (R8). -/
def leBytes : Nat → Nat → List Byte
  | 0, _ => []
  | k + 1, n => BitVec.ofNat 8 n :: leBytes k (n / 256)

/-- The big-endian number of a byte string. -/
def beNat (bs : List Byte) : Nat := leNat bs.reverse

/-- The last `k` bytes of a number, big-endian. -/
def beBytes (k n : Nat) : List Byte := (leBytes k n).reverse

/-- `k` bytes from offset `off` of a byte string; bytes beyond its end read 0. -/
def sliceB (bs : List Byte) (off k : Nat) : List Byte :=
  let t := (bs.drop off).take k
  t ++ List.replicate (k - t.length) 0#8

/-- The little-endian number of `k` bytes at offset `off`. -/
def leAt (bs : List Byte) (off k : Nat) : Nat := leNat (sliceB bs off k)

/-- The big-endian number of `k` bytes at offset `off`. -/
def beAt (bs : List Byte) (off k : Nat) : Nat := beNat (sliceB bs off k)

/-- Byte string with `bs'` laid over it at offset `off`. -/
def overlay (bs : List Byte) (off : Nat) (bs' : List Byte) : List Byte :=
  bs.take off ++ bs' ++ bs.drop (off + bs'.length)

/-- Byte-wise exclusive or, to the shorter length. -/
def xorB (a b : List Byte) : List Byte := a.zipWith (· ^^^ ·) b

/-- A record as its 64 bytes. -/
def recBytes (r : Rec) : List Byte := leBytes 64 r.toNat

/-- A record from bytes. -/
def recOf (bs : List Byte) : Rec := BitVec.ofNat 512 (leNat (sliceB bs 0 64))

/-- `k` bytes, little-endian, at offset `off` of a record. -/
def recAt (r : Rec) (off k : Nat) : Nat := bitsOf r.toNat (8 * off) (8 * k)

/-- A byte string cut into pieces of `k` bytes, at most `fuel` of them. -/
def chunks (k : Nat) : Nat → List Byte → List (List Byte)
  | 0, _ => []
  | f + 1, bs => if bs.isEmpty then [] else bs.take k :: chunks k f (bs.drop k)

/-- The element at an index, or a default. -/
def nth {α : Type} (l : List α) (i : Nat) (d : α) : α := l.getD i d

/-- The list with element `i` replaced. -/
def setNth {α : Type} (l : List α) (i : Nat) (v : α) : List α := l.set i v

/-- The first index whose element satisfies `p`. -/
def findIdx? {α : Type} (p : α → Bool) (l : List α) : Option Nat := l.findIdx? p

/-- The default of tables of numbers: 0. -/
def zN (_ : Nat) : Nat := 0

/-- The default of tables of integers: 0. -/
def zI (_ : Nat) : Int := 0

/-- The default of tables of flags: false. -/
def zB (_ : Nat) : Bool := false

/-- A field of a word. -/
def Fld.read (f : Fld) (w : Word) : Nat := bitsOf w.toNat f.lo f.w

/-- The bits of a field as a mask. -/
def Fld.mask (f : Fld) : Word := BitVec.ofNat 32 ((2 ^ f.w - 1) * 2 ^ f.lo)

/-- A word with a field replaced (R11). -/
def Fld.write (f : Fld) (w : Word) (v : Nat) : Word :=
  (w &&& ~~~ f.mask) ||| BitVec.ofNat 32 ((v % 2 ^ f.w) * 2 ^ f.lo)

end Sys2Proof.Machine
end

