-- ==== Sys2Proof/Machine/Map.lean ====
section
/-!
DEFINITION. Sparse tables: a list of (number, value) pairs with strictly rising numbers and no entry equal to what an
unlisted number reads as.  The register file, SRAM and the per-index tables of the engines are all held so.
-/
namespace Sys2Proof.Machine

/-- The value at `k`; an unlisted number reads as the default `d k`. -/
def SMap.get {β : Type} (d : Nat → β) : SMap β → Nat → β
  | [], k => d k
  | (a, b) :: t, k => if k < a then d k else if k = a then b else SMap.get d t k

/-- The table with `v` at `k`; writing what an unlisted number reads as removes the entry. -/
def SMap.put {β : Type} [DecidableEq β] (d : Nat → β) : SMap β → Nat → β → SMap β
  | [], k, v => if v = d k then [] else [(k, v)]
  | (a, b) :: t, k, v =>
    if k < a then (if v = d k then (a, b) :: t else (k, v) :: (a, b) :: t)
    else if k = a then (if v = d k then t else (k, v) :: t)
    else (a, b) :: SMap.put d t k v

/-- The table with the pair (k, v), whatever `v` is: for tables whose unlisted numbers have no value. -/
def SMap.ins {β : Type} : SMap β → Nat → β → SMap β
  | [], k, v => [(k, v)]
  | (a, b) :: t, k, v =>
    if k < a then (k, v) :: (a, b) :: t
    else if k = a then (k, v) :: t
    else (a, b) :: SMap.ins t k v

/-- The value listed at `k`, if any. -/
def SMap.at? {β : Type} (m : SMap β) (k : Nat) : Option β := (m.find? (fun e => decide (e.1 = k))).map Prod.snd

/-- The table without `k`. -/
def SMap.del {β : Type} (m : SMap β) (k : Nat) : SMap β := m.filter (fun e => decide (e.1 ≠ k))

/-- Every number of the table is above `k`. -/
def SMap.above {β : Type} (k : Nat) (m : SMap β) : Bool := m.all (fun p => decide (k < p.1))

/-- The canonical form: strictly rising numbers, no entry equal to the default. -/
def SMap.wf {β : Type} [DecidableEq β] (d : Nat → β) : SMap β → Bool
  | [] => true
  | (a, b) :: t => SMap.above a t && decide (b ≠ d a) && SMap.wf d t

/-- The table without the entries whose number fails `p`: each removed number reads as the default again. -/
def SMap.keep {β : Type} (p : Nat → Bool) (m : SMap β) : SMap β := m.filter (fun e => p e.1)

end Sys2Proof.Machine
end

