-- ==== Sys2Proof/Machine/RegNames.lean ====
section
/-!
DEFINITION. The fields of the registers by the manual's names: `R.QUE_CTL_EN n` is the field EN of QUE_CTLn (R530 gives the
address, the chapter's table the bits).  Index letters become arguments in the manual's order, counted from 0; a phase
index p of the manual, counted from 1, is counted from 0 here.
-/
namespace Sys2Proof.Machine.R

def TSQ_TICK : Nat := 0x20000000
def TSQ_TICK_TICK : Fld := ⟨TSQ_TICK, 0, 32⟩
def TSQ_TICKHI : Nat := 0x20000004
def TSQ_TICKHI_TICKHI : Fld := ⟨TSQ_TICKHI, 0, 32⟩
def TSQ_CTL : Nat := 0x20000008
def TSQ_CTL_OVRLIM : Fld := ⟨TSQ_CTL, 0, 8⟩
def TSQ_CTL_REALIGN : Fld := ⟨TSQ_CTL, 8, 1⟩
def TSQ_STAT : Nat := 0x2000000C
def TSQ_STAT_PLAN_OK : Fld := ⟨TSQ_STAT, 0, 1⟩
def TSQ_STAT_ALIGNING : Fld := ⟨TSQ_STAT, 1, 1⟩
def TSQ_STAT_STEPPED : Fld := ⟨TSQ_STAT, 2, 1⟩
def TSQ_STAT_SLOTS : Fld := ⟨TSQ_STAT, 8, 6⟩
def TSQ_LEN : Nat := 0x20000010
def TSQ_LEN_CYCLES : Fld := ⟨TSQ_LEN, 0, 16⟩
def TSQ_STEPOFS : Nat := 0x20000014
def TSQ_STEPOFS_OFS : Fld := ⟨TSQ_STEPOFS, 0, 32⟩
def TSQ_SLOTA (n : Nat) : Nat := 0x20000100 + 8 * n
def TSQ_SLOTA_EXEC (n : Nat) : Fld := ⟨TSQ_SLOTA n, 0, 8⟩
def TSQ_SLOTA_TASK (n : Nat) : Fld := ⟨TSQ_SLOTA n, 8, 8⟩
def TSQ_SLOTA_PEXP (n : Nat) : Fld := ⟨TSQ_SLOTA n, 16, 4⟩
def TSQ_SLOTB (n : Nat) : Nat := 0x20000104 + 8 * n
def TSQ_SLOTB_PHASE (n : Nat) : Fld := ⟨TSQ_SLOTB n, 0, 10⟩
def TSQ_SLOTB_BUDGET (n : Nat) : Fld := ⟨TSQ_SLOTB n, 16, 16⟩
def TSQ_OVR (n : Nat) : Nat := 0x20000300 + 4 * n
def TSQ_OVR_CUTS (n : Nat) : Fld := ⟨TSQ_OVR n, 0, 16⟩
def TSQ_OVR_PEAK (n : Nat) : Fld := ⟨TSQ_OVR n, 16, 16⟩
def TSQ_PROOF (c : Nat) : Nat := 0x20000400 + 4 * c
def TSQ_PROOF_WORST (c : Nat) : Fld := ⟨TSQ_PROOF c, 0, 16⟩
def TSQ_PROOF_RES (c : Nat) : Fld := ⟨TSQ_PROOF c, 16, 10⟩
def BNK_CTL (n : Nat) : Nat := 0x20010000 + 4 * n
def BNK_CTL_OWNER (n : Nat) : Fld := ⟨BNK_CTL n, 0, 5⟩
def BNK_CTL_PWR (n : Nat) : Fld := ⟨BNK_CTL n, 8, 2⟩
def BNK_STAT (n : Nat) : Nat := 0x20010100 + 4 * n
def BNK_STAT_READY (n : Nat) : Fld := ⟨BNK_STAT n, 0, 1⟩
def BNK_STAT_CORR (n : Nat) : Fld := ⟨BNK_STAT n, 4, 8⟩
def BNK_STAT_UNCORR (n : Nat) : Fld := ⟨BNK_STAT n, 12, 4⟩
def BNK_STAT_WCOLL (n : Nat) : Fld := ⟨BNK_STAT n, 16, 8⟩
def BNK_STAT_PASSES (n : Nat) : Fld := ⟨BNK_STAT n, 24, 8⟩
def BNK_SCRUB : Nat := 0x20010200
def BNK_SCRUB_LINES : Fld := ⟨BNK_SCRUB, 0, 4⟩
def BNK_ERRADDR : Nat := 0x20010204
def BNK_ERRADDR_LINE : Fld := ⟨BNK_ERRADDR, 5, 20⟩
def BNK_ERRADDR_VALID : Fld := ⟨BNK_ERRADDR, 31, 1⟩
def BNK_FAULT : Nat := 0x20010208
def BNK_FAULT_BANK : Fld := ⟨BNK_FAULT, 0, 6⟩
def BNK_FAULT_AGENT : Fld := ⟨BNK_FAULT, 8, 5⟩
def BNK_FAULT_COUNT : Fld := ⟨BNK_FAULT, 16, 12⟩
def BNK_FAULT_VALID : Fld := ⟨BNK_FAULT, 31, 1⟩
def PROC_LOCKV : Nat := 0x20020000
def PROC_LOCKV_COUNT : Fld := ⟨PROC_LOCKV, 0, 16⟩
def PROC_LOCKV_AGENT : Fld := ⟨PROC_LOCKV, 16, 3⟩
def PROC_LOCKV_VALID : Fld := ⟨PROC_LOCKV, 31, 1⟩
def PROC_LOCKA : Nat := 0x20020004
def PROC_LOCKA_ADDR : Fld := ⟨PROC_LOCKA, 0, 32⟩
def PROC_PATHREF : Nat := 0x20020008
def PROC_PATHREF_COUNT : Fld := ⟨PROC_PATHREF, 0, 16⟩
def PROC_PATHREF_AGENT : Fld := ⟨PROC_PATHREF, 16, 3⟩
def PROC_PATHREF_VALID : Fld := ⟨PROC_PATHREF, 31, 1⟩
def PROC_PATHA : Nat := 0x2002000C
def PROC_PATHA_ADDR : Fld := ⟨PROC_PATHA, 0, 32⟩
def PROC_UNMAP : Nat := 0x20020010
def PROC_UNMAP_COUNT : Fld := ⟨PROC_UNMAP, 0, 16⟩
def PROC_UNMAP_AGENT : Fld := ⟨PROC_UNMAP, 16, 3⟩
def PROC_UNMAP_VALID : Fld := ⟨PROC_UNMAP, 31, 1⟩
def PROC_UNMAPA : Nat := 0x20020014
def PROC_UNMAPA_ADDR : Fld := ⟨PROC_UNMAPA, 0, 32⟩
def PROC_STAT (n : Nat) : Nat := 0x20020040 + 4 * n
def PROC_STAT_RUN (n : Nat) : Fld := ⟨PROC_STAT n, 0, 1⟩
def PROC_STAT_HELD (n : Nat) : Fld := ⟨PROC_STAT n, 1, 1⟩
def PROC_STAT_TRAPS (n : Nat) : Fld := ⟨PROC_STAT n, 8, 8⟩
def PROC_STAT_TASK (n : Nat) : Fld := ⟨PROC_STAT n, 16, 8⟩
def PRT_CTL : Nat := 0x20800000
def PRT_CTL_OPEN : Fld := ⟨PRT_CTL, 0, 1⟩
def PRT_CTL_DIRHOLD : Fld := ⟨PRT_CTL, 1, 1⟩
def PRT_WIN : Nat := 0x20800004
def PRT_WIN_LEFT : Fld := ⟨PRT_WIN, 0, 32⟩
def PRT_MASK : Nat := 0x20800008
def PRT_MASK_MASK : Fld := ⟨PRT_MASK, 0, 10⟩
def PRT_QDLY (n : Nat) : Nat := 0x20800010 + 4 * n
def PRT_QDLY_DLY0 (n : Nat) : Fld := ⟨PRT_QDLY n, 0, 8⟩
def PRT_QDLY_DLY1 (n : Nat) : Fld := ⟨PRT_QDLY n, 8, 8⟩
def PRT_QDLY_DLY2 (n : Nat) : Fld := ⟨PRT_QDLY n, 16, 8⟩
def PRT_QDLY_DLY3 (n : Nat) : Fld := ⟨PRT_QDLY n, 24, 8⟩
def PRT_BP0 : Nat := 0x20800030
def PRT_BP0_QUEUES : Fld := ⟨PRT_BP0, 0, 32⟩
def PRT_BP1 : Nat := 0x20800034
def PRT_BP1_ETH : Fld := ⟨PRT_BP1, 0, 3⟩
def PRT_SKEW : Nat := 0x20800038
def PRT_SKEW_AMOUNT : Fld := ⟨PRT_SKEW, 0, 16⟩
def PRT_SKEW_STEP : Fld := ⟨PRT_SKEW, 16, 4⟩
def PRT_PLCDROP : Nat := 0x2080003C
def PRT_PLCDROP_PORT : Fld := ⟨PRT_PLCDROP, 0, 2⟩
def PRT_PLCDROP_DIR : Fld := ⟨PRT_PLCDROP, 2, 1⟩
def PRT_PLCDROP_FRAMES : Fld := ⟨PRT_PLCDROP, 4, 4⟩
def PRT_PLCDROP_MASK : Fld := ⟨PRT_PLCDROP, 16, 16⟩
def PRT_NAND : Nat := 0x20800040
def PRT_NAND_ARM : Fld := ⟨PRT_NAND, 0, 1⟩
def PRT_NAND_KIND : Fld := ⟨PRT_NAND, 1, 2⟩
def PRT_NAND_ARMED : Fld := ⟨PRT_NAND, 8, 1⟩
def PRT_TAG : Nat := 0x20800044
def PRT_TAG_ARM : Fld := ⟨PRT_TAG, 0, 1⟩
def PRT_TAG_TGT : Fld := ⟨PRT_TAG, 1, 1⟩
def PRT_TAG_PAGE : Fld := ⟨PRT_TAG, 8, 8⟩
def PRT_TAG_QNUM : Fld := ⟨PRT_TAG, 16, 5⟩
def PRT_TAG_ARMED : Fld := ⟨PRT_TAG, 24, 1⟩
def PRT_STEPS : Nat := 0x20800048
def PRT_STEPS_S : Fld := ⟨PRT_STEPS, 0, 32⟩
def PRT_STEPNS : Nat := 0x2080004C
def PRT_STEPNS_NS : Fld := ⟨PRT_STEPNS, 0, 31⟩
def PRT_PJIT : Nat := 0x20800050
def PRT_PJIT_J0 : Fld := ⟨PRT_PJIT, 0, 4⟩
def PRT_PJIT_J1 : Fld := ⟨PRT_PJIT, 4, 4⟩
def PRT_PJIT_J2 : Fld := ⟨PRT_PJIT, 8, 4⟩
def PRT_PJIT_J3 : Fld := ⟨PRT_PJIT, 12, 4⟩
def PRT_LOOP : Nat := 0x20800054
def PRT_LOOP_PLCPAIR : Fld := ⟨PRT_LOOP, 0, 2⟩
def PRT_LOOP_ETH : Fld := ⟨PRT_LOOP, 4, 3⟩
def PRT_LOOP_SER : Fld := ⟨PRT_LOOP, 8, 8⟩
def QUE_CTL (n : Nat) : Nat := 0x21000000 + 0x20 * n
def QUE_CTL_EN (n : Nat) : Fld := ⟨QUE_CTL n, 0, 1⟩
def QUE_CTL_MODE (n : Nat) : Fld := ⟨QUE_CTL n, 1, 1⟩
def QUE_CTL_FENCE (n : Nat) : Fld := ⟨QUE_CTL n, 2, 1⟩
def QUE_CTL_XMAP (n : Nat) : Fld := ⟨QUE_CTL n, 8, 8⟩
def QUE_CFG (n : Nat) : Nat := 0x21000004 + 0x20 * n
def QUE_CFG_SPBASE (n : Nat) : Fld := ⟨QUE_CFG n, 0, 8⟩
def QUE_CFG_SPCNT (n : Nat) : Fld := ⟨QUE_CFG n, 8, 9⟩
def QUE_CFG_FRTO (n : Nat) : Fld := ⟨QUE_CFG n, 24, 8⟩
def QUE_WMH (n : Nat) : Nat := 0x21000008 + 0x20 * n
def QUE_WMH_HIGH (n : Nat) : Fld := ⟨QUE_WMH n, 0, 17⟩
def QUE_WML (n : Nat) : Nat := 0x2100000C + 0x20 * n
def QUE_WML_LOW (n : Nat) : Fld := ⟨QUE_WML n, 0, 17⟩
def QUE_STAT (n : Nat) : Nat := 0x21000010 + 0x20 * n
def QUE_STAT_ABOVE (n : Nat) : Fld := ⟨QUE_STAT n, 0, 1⟩
def QUE_STAT_OPEN (n : Nat) : Fld := ⟨QUE_STAT n, 1, 1⟩
def QUE_STAT_FULL (n : Nat) : Fld := ⟨QUE_STAT n, 2, 1⟩
def QUE_STAT_FWAIT (n : Nat) : Fld := ⟨QUE_STAT n, 3, 1⟩
def QUE_STAT_MODE (n : Nat) : Fld := ⟨QUE_STAT n, 4, 1⟩
def QUE_CNT (n : Nat) : Nat := 0x21000014 + 0x20 * n
def QUE_CNT_REJECT (n : Nat) : Fld := ⟨QUE_CNT n, 0, 12⟩
def QUE_CNT_REWIND (n : Nat) : Fld := ⟨QUE_CNT n, 12, 12⟩
def QUE_CNT_PTRERR (n : Nat) : Fld := ⟨QUE_CNT n, 24, 8⟩
def QUE_RING (n : Nat) : Nat := 0x21000018 + 0x20 * n
def QUE_RING_RPTR (n : Nat) : Fld := ⟨QUE_RING n, 0, 11⟩
def QUE_RING_WPTR (n : Nat) : Fld := ⟨QUE_RING n, 16, 11⟩
def QUE_OCC (n : Nat) : Nat := 0x2100001C + 0x20 * n
def QUE_OCC_OCC (n : Nat) : Fld := ⟨QUE_OCC n, 0, 17⟩
def QUE_XCTL : Nat := 0x21000400
def QUE_XCTL_POL : Fld := ⟨QUE_XCTL, 0, 8⟩
def QUE_XCTL_FORCE : Fld := ⟨QUE_XCTL, 8, 8⟩
def QUE_XSTAT : Nat := 0x21000404
def QUE_XSTAT_XOFF : Fld := ⟨QUE_XSTAT, 0, 8⟩
def QUE_XSTAT_HOLD : Fld := ⟨QUE_XSTAT, 8, 1⟩
def VAL_CTL : Nat := 0x21010000
def VAL_CTL_LANEEN : Fld := ⟨VAL_CTL, 0, 4⟩
def VAL_CTL_FRESH : Fld := ⟨VAL_CTL, 4, 1⟩
def VAL_CTL_QTHR : Fld := ⟨VAL_CTL, 8, 8⟩
def VAL_STAT : Nat := 0x21010004
def VAL_STAT_LANEFLT : Fld := ⟨VAL_STAT, 0, 4⟩
def VAL_STAT_HUSED : Fld := ⟨VAL_STAT, 8, 9⟩
def VAL_STAT_HFULL : Fld := ⟨VAL_STAT, 17, 1⟩
def VAL_QMAP0 : Nat := 0x21010008
def VAL_QMAP0_LANE0 : Fld := ⟨VAL_QMAP0, 0, 2⟩
def VAL_QMAP0_LANE1 : Fld := ⟨VAL_QMAP0, 2, 2⟩
def VAL_QMAP0_LANE2 : Fld := ⟨VAL_QMAP0, 4, 2⟩
def VAL_QMAP0_LANE3 : Fld := ⟨VAL_QMAP0, 6, 2⟩
def VAL_QMAP0_LANE4 : Fld := ⟨VAL_QMAP0, 8, 2⟩
def VAL_QMAP0_LANE5 : Fld := ⟨VAL_QMAP0, 10, 2⟩
def VAL_QMAP0_LANE6 : Fld := ⟨VAL_QMAP0, 12, 2⟩
def VAL_QMAP0_LANE7 : Fld := ⟨VAL_QMAP0, 14, 2⟩
def VAL_QMAP0_LANE8 : Fld := ⟨VAL_QMAP0, 16, 2⟩
def VAL_QMAP0_LANE9 : Fld := ⟨VAL_QMAP0, 18, 2⟩
def VAL_QMAP0_LANE10 : Fld := ⟨VAL_QMAP0, 20, 2⟩
def VAL_QMAP0_LANE11 : Fld := ⟨VAL_QMAP0, 22, 2⟩
def VAL_QMAP0_LANE12 : Fld := ⟨VAL_QMAP0, 24, 2⟩
def VAL_QMAP0_LANE13 : Fld := ⟨VAL_QMAP0, 26, 2⟩
def VAL_QMAP0_LANE14 : Fld := ⟨VAL_QMAP0, 28, 2⟩
def VAL_QMAP0_LANE15 : Fld := ⟨VAL_QMAP0, 30, 2⟩
def VAL_QMAP1 : Nat := 0x2101000C
def VAL_QMAP1_LANE0 : Fld := ⟨VAL_QMAP1, 0, 2⟩
def VAL_QMAP1_LANE1 : Fld := ⟨VAL_QMAP1, 2, 2⟩
def VAL_QMAP1_LANE2 : Fld := ⟨VAL_QMAP1, 4, 2⟩
def VAL_QMAP1_LANE3 : Fld := ⟨VAL_QMAP1, 6, 2⟩
def VAL_QMAP1_LANE4 : Fld := ⟨VAL_QMAP1, 8, 2⟩
def VAL_QMAP1_LANE5 : Fld := ⟨VAL_QMAP1, 10, 2⟩
def VAL_QMAP1_LANE6 : Fld := ⟨VAL_QMAP1, 12, 2⟩
def VAL_QMAP1_LANE7 : Fld := ⟨VAL_QMAP1, 14, 2⟩
def VAL_QMAP1_LANE8 : Fld := ⟨VAL_QMAP1, 16, 2⟩
def VAL_QMAP1_LANE9 : Fld := ⟨VAL_QMAP1, 18, 2⟩
def VAL_QMAP1_LANE10 : Fld := ⟨VAL_QMAP1, 20, 2⟩
def VAL_QMAP1_LANE11 : Fld := ⟨VAL_QMAP1, 22, 2⟩
def VAL_QMAP1_LANE12 : Fld := ⟨VAL_QMAP1, 24, 2⟩
def VAL_QMAP1_LANE13 : Fld := ⟨VAL_QMAP1, 26, 2⟩
def VAL_QMAP1_LANE14 : Fld := ⟨VAL_QMAP1, 28, 2⟩
def VAL_QMAP1_LANE15 : Fld := ⟨VAL_QMAP1, 30, 2⟩
def VAL_QDISP0 : Nat := 0x21010010
def VAL_QDISP0_DISP0 : Fld := ⟨VAL_QDISP0, 0, 2⟩
def VAL_QDISP0_DISP1 : Fld := ⟨VAL_QDISP0, 2, 2⟩
def VAL_QDISP0_DISP2 : Fld := ⟨VAL_QDISP0, 4, 2⟩
def VAL_QDISP0_DISP3 : Fld := ⟨VAL_QDISP0, 6, 2⟩
def VAL_QDISP0_DISP4 : Fld := ⟨VAL_QDISP0, 8, 2⟩
def VAL_QDISP0_DISP5 : Fld := ⟨VAL_QDISP0, 10, 2⟩
def VAL_QDISP0_DISP6 : Fld := ⟨VAL_QDISP0, 12, 2⟩
def VAL_QDISP0_DISP7 : Fld := ⟨VAL_QDISP0, 14, 2⟩
def VAL_QDISP0_DISP8 : Fld := ⟨VAL_QDISP0, 16, 2⟩
def VAL_QDISP0_DISP9 : Fld := ⟨VAL_QDISP0, 18, 2⟩
def VAL_QDISP0_DISP10 : Fld := ⟨VAL_QDISP0, 20, 2⟩
def VAL_QDISP0_DISP11 : Fld := ⟨VAL_QDISP0, 22, 2⟩
def VAL_QDISP0_DISP12 : Fld := ⟨VAL_QDISP0, 24, 2⟩
def VAL_QDISP0_DISP13 : Fld := ⟨VAL_QDISP0, 26, 2⟩
def VAL_QDISP0_DISP14 : Fld := ⟨VAL_QDISP0, 28, 2⟩
def VAL_QDISP0_DISP15 : Fld := ⟨VAL_QDISP0, 30, 2⟩
def VAL_QDISP1 : Nat := 0x21010014
def VAL_QDISP1_DISP0 : Fld := ⟨VAL_QDISP1, 0, 2⟩
def VAL_QDISP1_DISP1 : Fld := ⟨VAL_QDISP1, 2, 2⟩
def VAL_QDISP1_DISP2 : Fld := ⟨VAL_QDISP1, 4, 2⟩
def VAL_QDISP1_DISP3 : Fld := ⟨VAL_QDISP1, 6, 2⟩
def VAL_QDISP1_DISP4 : Fld := ⟨VAL_QDISP1, 8, 2⟩
def VAL_QDISP1_DISP5 : Fld := ⟨VAL_QDISP1, 10, 2⟩
def VAL_QDISP1_DISP6 : Fld := ⟨VAL_QDISP1, 12, 2⟩
def VAL_QDISP1_DISP7 : Fld := ⟨VAL_QDISP1, 14, 2⟩
def VAL_QDISP1_DISP8 : Fld := ⟨VAL_QDISP1, 16, 2⟩
def VAL_QDISP1_DISP9 : Fld := ⟨VAL_QDISP1, 18, 2⟩
def VAL_QDISP1_DISP10 : Fld := ⟨VAL_QDISP1, 20, 2⟩
def VAL_QDISP1_DISP11 : Fld := ⟨VAL_QDISP1, 22, 2⟩
def VAL_QDISP1_DISP12 : Fld := ⟨VAL_QDISP1, 24, 2⟩
def VAL_QDISP1_DISP13 : Fld := ⟨VAL_QDISP1, 26, 2⟩
def VAL_QDISP1_DISP14 : Fld := ⟨VAL_QDISP1, 28, 2⟩
def VAL_QDISP1_DISP15 : Fld := ⟨VAL_QDISP1, 30, 2⟩
def VAL_CNT (v : Nat) : Nat := 0x21010020 + 4 * v
def VAL_CNT_COUNT (v : Nat) : Fld := ⟨VAL_CNT v, 0, 32⟩
def VAL_LAT (l : Nat) : Nat := 0x21010040 + 4 * l
def VAL_LAT_MAX (l : Nat) : Fld := ⟨VAL_LAT l, 0, 9⟩
def VAL_LAT_CLR (l : Nat) : Fld := ⟨VAL_LAT l, 31, 1⟩
def VAL_ADM (l : Nat) : Nat := 0x21010050 + 4 * l
def VAL_ADM_LAST (l : Nat) : Fld := ⟨VAL_ADM l, 0, 8⟩
def VAL_ADM_SKIP (l : Nat) : Fld := ⟨VAL_ADM l, 8, 16⟩
def VAL_ADM_IDLE (l : Nat) : Fld := ⟨VAL_ADM l, 24, 8⟩
def VAL_WINA (k : Nat) : Nat := 0x21010100 + 0x10 * k
def VAL_WINA_DOMAIN (k : Nat) : Fld := ⟨VAL_WINA k, 0, 12⟩
def VAL_WINA_EPOCH (k : Nat) : Fld := ⟨VAL_WINA k, 16, 16⟩
def VAL_WINB (k : Nat) : Nat := 0x21010104 + 0x10 * k
def VAL_WINB_FIRST (k : Nat) : Fld := ⟨VAL_WINB k, 0, 20⟩
def VAL_WINC (k : Nat) : Nat := 0x21010108 + 0x10 * k
def VAL_WINC_COUNT (k : Nat) : Fld := ⟨VAL_WINC k, 0, 21⟩
def VAL_WIND (k : Nat) : Nat := 0x2101010C + 0x10 * k
def VAL_WIND_BASE (k : Nat) : Fld := ⟨VAL_WIND k, 0, 20⟩
def DIR_CMD : Nat := 0x21020000
def DIR_CMD_OP : Fld := ⟨DIR_CMD, 0, 8⟩
def DIR_CMD_BUSY : Fld := ⟨DIR_CMD, 31, 1⟩
def DIR_ARG (n : Nat) : Nat := 0x21020004 + 4 * n
def DIR_ARG_ARG (n : Nat) : Fld := ⟨DIR_ARG n, 0, 32⟩
def DIR_RES : Nat := 0x21020014
def DIR_RES_RESULT : Fld := ⟨DIR_RES, 0, 8⟩
def DIR_RES_INDEX : Fld := ⟨DIR_RES, 8, 16⟩
def DIR_RES_SEQ : Fld := ⟨DIR_RES, 24, 8⟩
def DIR_USED : Nat := 0x21020018
def DIR_USED_COUNT : Fld := ⟨DIR_USED, 0, 17⟩
def DIR_DAT (w : Nat) : Nat := 0x21020040 + 4 * w
def DIR_DAT_DATA (w : Nat) : Fld := ⟨DIR_DAT w, 0, 32⟩
def RPL_STAT : Nat := 0x21030000
def RPL_STAT_ZEROING : Fld := ⟨RPL_STAT, 0, 1⟩
def RPL_STAT_WIN : Fld := ⟨RPL_STAT, 4, 4⟩
def RPL_STAT_LEFT : Fld := ⟨RPL_STAT, 8, 18⟩
def RPL_ERR : Nat := 0x21030004
def RPL_ERR_SLOT : Fld := ⟨RPL_ERR, 0, 20⟩
def RPL_ERR_VALID : Fld := ⟨RPL_ERR, 31, 1⟩
def RPL_FINAL : Nat := 0x21030008
def RPL_FINAL_COUNT : Fld := ⟨RPL_FINAL, 0, 32⟩
def BAL_CTL : Nat := 0x21040000
def BAL_CTL_GEN : Fld := ⟨BAL_CTL, 0, 4⟩
def BAL_CTL_INTLEN : Fld := ⟨BAL_CTL, 8, 6⟩
def BAL_CTL_SETTLE : Fld := ⟨BAL_CTL, 16, 3⟩
def BAL_ORGLO : Nat := 0x21040004
def BAL_ORGLO_ORGLO : Fld := ⟨BAL_ORGLO, 0, 32⟩
def BAL_ORGHI : Nat := 0x21040008
def BAL_ORGHI_ORGHI : Fld := ⟨BAL_ORGHI, 0, 16⟩
def BAL_CUR : Nat := 0x2104000C
def BAL_CUR_CUR : Fld := ⟨BAL_CUR, 0, 32⟩
def BAL_STAT : Nat := 0x21040010
def BAL_STAT_RUN : Fld := ⟨BAL_STAT, 0, 1⟩
def BAL_STAT_STEPPED : Fld := ⟨BAL_STAT, 1, 1⟩
def BAL_STAT_DROP : Fld := ⟨BAL_STAT, 16, 16⟩
def BAL_RPTSTAT : Nat := 0x21040014
def BAL_RPTSTAT_COUNT : Fld := ⟨BAL_RPTSTAT, 0, 5⟩
def BAL_RPTSTAT_LOST : Fld := ⟨BAL_RPTSTAT, 16, 8⟩
def BAL_RPTPOP : Nat := 0x21040018
def BAL_RPTPOP_POP : Fld := ⟨BAL_RPTPOP, 0, 1⟩
def BAL_OUT (o : Nat) : Nat := 0x21040020 + 4 * o
def BAL_OUT_EN (o : Nat) : Fld := ⟨BAL_OUT o, 0, 1⟩
def BAL_OUT_GROUP (o : Nat) : Fld := ⟨BAL_OUT o, 4, 2⟩
def BAL_GCTL (g : Nat) : Nat := 0x21040100 + 0x40 * g
def BAL_GCTL_COVMIN (g : Nat) : Fld := ⟨BAL_GCTL g, 0, 10⟩
def BAL_GCTL_RELIMP (g : Nat) : Fld := ⟨BAL_GCTL g, 16, 10⟩
def BAL_ABSI (g : Nat) : Nat := 0x21040104 + 0x40 * g
def BAL_ABSI_ABSI (g : Nat) : Fld := ⟨BAL_ABSI g, 0, 32⟩
def BAL_ABSE (g : Nat) : Nat := 0x21040108 + 0x40 * g
def BAL_ABSE_ABSE (g : Nat) : Fld := ⟨BAL_ABSE g, 0, 32⟩
def BAL_EXP (g : Nat) : Nat := 0x2104010C + 0x40 * g
def BAL_EXP_EXPMIN (g : Nat) : Fld := ⟨BAL_EXP g, 0, 16⟩
def BAL_EXP_RELEXP (g : Nat) : Fld := ⟨BAL_EXP g, 16, 10⟩
def BAL_KCU (g p : Nat) : Nat := 0x21040110 + 0x40 * g + 4 * p
def BAL_KCU_KCU (g p : Nat) : Fld := ⟨BAL_KCU g p, 0, 32⟩
def BAL_KFIX (g p : Nat) : Nat := 0x2104011C + 0x40 * g + 4 * p
def BAL_KFIX_KFIX (g p : Nat) : Fld := ⟨BAL_KFIX g p, 0, 32⟩
def BAL_CNT (g : Nat) : Nat := 0x21040128 + 0x40 * g
def BAL_CNT_LATE (g : Nat) : Fld := ⟨BAL_CNT g, 0, 16⟩
def BAL_CNT_EARLY (g : Nat) : Fld := ⟨BAL_CNT g, 16, 16⟩
def BAL_ASG (g c : Nat) : Nat := 0x21040130 + 0x40 * g + 4 * c
def BAL_ASG_COUNT (g c : Nat) : Fld := ⟨BAL_ASG g c, 0, 17⟩
def BAL_RPT (w : Nat) : Nat := 0x21040400 + 4 * w
def BAL_RPT_DATA (w : Nat) : Fld := ⟨BAL_RPT w, 0, 32⟩
def MTR_CTL : Nat := 0x22000000
def MTR_CTL_GEN : Fld := ⟨MTR_CTL, 0, 4⟩
def MTR_CTL_VEN : Fld := ⟨MTR_CTL, 4, 8⟩
def MTR_STAT : Nat := 0x22000004
def MTR_STAT_VALID : Fld := ⟨MTR_STAT, 0, 1⟩
def MTR_STAT_EXCFLT : Fld := ⟨MTR_STAT, 1, 4⟩
def MTR_STAT_TFALL : Fld := ⟨MTR_STAT, 5, 1⟩
def MTR_CLIP : Nat := 0x22000008
def MTR_CLIP_CLIP : Fld := ⟨MTR_CLIP, 0, 24⟩
def MTR_TEMP : Nat := 0x2200000C
def MTR_TEMP_TEMP : Fld := ⟨MTR_TEMP, 0, 16⟩
def MTR_TEMP_SRC : Fld := ⟨MTR_TEMP, 16, 1⟩
def MTR_CALID : Nat := 0x22000010
def MTR_CALID_CALID : Fld := ⟨MTR_CALID, 0, 32⟩
def MTR_EVSTAT : Nat := 0x22000014
def MTR_EVSTAT_SEQERR : Fld := ⟨MTR_EVSTAT, 0, 4⟩
def MTR_EVSTAT_NEUTMISS : Fld := ⟨MTR_EVSTAT, 4, 4⟩
def MTR_EVCFG : Nat := 0x22000018
def MTR_EVCFG_SEQN : Fld := ⟨MTR_EVCFG, 0, 8⟩
def MTR_EVCFG_NEUTN : Fld := ⟨MTR_EVCFG, 8, 8⟩
def MTR_NTHR : Nat := 0x2200001C
def MTR_NTHR_VNEMIN : Fld := ⟨MTR_NTHR, 0, 12⟩
def MTR_NTHR_ASYMMIN : Fld := ⟨MTR_NTHR, 16, 12⟩
def MTR_NTHR2 : Nat := 0x22000020
def MTR_NTHR2_ISUMMIN : Fld := ⟨MTR_NTHR2, 0, 16⟩
def MTR_NTHR2_INRATIO : Fld := ⟨MTR_NTHR2, 16, 8⟩
def MTR_GCFG (g : Nat) : Nat := 0x22000040 + 0x10 * g
def MTR_GCFG_VREF1 (g : Nat) : Fld := ⟨MTR_GCFG g, 0, 3⟩
def MTR_GCFG_VREF2 (g : Nat) : Fld := ⟨MTR_GCFG g, 4, 3⟩
def MTR_GCFG_VREF3 (g : Nat) : Fld := ⟨MTR_GCFG g, 8, 3⟩
def MTR_GCFG_NEN (g : Nat) : Fld := ⟨MTR_GCFG g, 12, 1⟩
def MTR_GCFG_INV (g : Nat) : Fld := ⟨MTR_GCFG g, 13, 3⟩
def MTR_GCFG_TSRC (g : Nat) : Fld := ⟨MTR_GCFG g, 16, 1⟩
def MTR_GCFG_EXCLVL (g : Nat) : Fld := ⟨MTR_GCFG g, 17, 1⟩
def MTR_OFS (c : Nat) : Nat := 0x22000100 + 0x10 * c
def MTR_OFS_OFS (c : Nat) : Fld := ⟨MTR_OFS c, 0, 24⟩
def MTR_GAIN (c : Nat) : Nat := 0x22000104 + 0x10 * c
def MTR_GAIN_GAIN (c : Nat) : Fld := ⟨MTR_GAIN c, 0, 32⟩
def MTR_PHC (c : Nat) : Nat := 0x22000108 + 0x10 * c
def MTR_PHC_PHC (c : Nat) : Fld := ⟨MTR_PHC c, 0, 10⟩
def MTR_XT (g r s : Nat) : Nat := 0x22000300 + 0x40 * g + 0x10 * r + 4 * s
def MTR_XT_XT (g r s : Nat) : Fld := ⟨MTR_XT g r s, 0, 32⟩
def MTR_TPA (g : Nat) : Nat := 0x22000400 + 8 * g
def MTR_TPA_T0 (g : Nat) : Fld := ⟨MTR_TPA g, 0, 16⟩
def MTR_TPA_A1 (g : Nat) : Fld := ⟨MTR_TPA g, 16, 16⟩
def MTR_TPB (g : Nat) : Nat := 0x22000404 + 8 * g
def MTR_TPB_A2 (g : Nat) : Fld := ⟨MTR_TPB g, 0, 16⟩
def MTR_IRMS (g r : Nat) : Nat := 0x22000500 + 0x10 * g + 4 * r
def MTR_IRMS_IRMS (g r : Nat) : Fld := ⟨MTR_IRMS g r, 0, 24⟩
def MTR_VRMS (v : Nat) : Nat := 0x22000580 + 4 * v
def MTR_VRMS_VRMS (v : Nat) : Fld := ⟨MTR_VRMS v, 0, 20⟩
def MTR_P (g p : Nat) : Nat := 0x220005C0 + 0x10 * g + 4 * p
def MTR_P_P (g p : Nat) : Fld := ⟨MTR_P g p, 0, 32⟩
def NRG_CTL : Nat := 0x22010000
def NRG_CTL_SAVEP : Fld := ⟨NRG_CTL, 0, 12⟩
def NRG_CTL_ADD : Fld := ⟨NRG_CTL, 16, 1⟩
def NRG_STAT : Nat := 0x22010004
def NRG_STAT_BASED : Fld := ⟨NRG_STAT, 0, 1⟩
def NRG_STAT_GAP : Fld := ⟨NRG_STAT, 1, 1⟩
def NRG_STAT_PARTLOST : Fld := ⟨NRG_STAT, 2, 1⟩
def NRG_UNMET : Nat := 0x22010008
def NRG_UNMET_MS : Fld := ⟨NRG_UNMET, 0, 32⟩
def NRG_LASTINT : Nat := 0x2201000C
def NRG_LASTINT_INT : Fld := ⟨NRG_LASTINT, 0, 32⟩
def NRG_CILO (g p : Nat) : Nat := 0x22010100 + 0x40 * g + 0x10 * p
def NRG_CILO_LO (g p : Nat) : Fld := ⟨NRG_CILO g p, 0, 32⟩
def NRG_CIHI (g p : Nat) : Nat := 0x22010104 + 0x40 * g + 0x10 * p
def NRG_CIHI_HI (g p : Nat) : Fld := ⟨NRG_CIHI g p, 0, 32⟩
def NRG_CELO (g p : Nat) : Nat := 0x22010108 + 0x40 * g + 0x10 * p
def NRG_CELO_LO (g p : Nat) : Fld := ⟨NRG_CELO g p, 0, 32⟩
def NRG_CEHI (g p : Nat) : Nat := 0x2201010C + 0x40 * g + 0x10 * p
def NRG_CEHI_HI (g p : Nat) : Fld := ⟨NRG_CEHI g p, 0, 32⟩
def NRG_AILO (g p : Nat) : Nat := 0x22010200 + 0x40 * g + 0x10 * p
def NRG_AILO_ADDV (g p : Nat) : Fld := ⟨NRG_AILO g p, 0, 32⟩
def NRG_AIHI (g p : Nat) : Nat := 0x22010204 + 0x40 * g + 0x10 * p
def NRG_AIHI_ADDV (g p : Nat) : Fld := ⟨NRG_AIHI g p, 0, 32⟩
def NRG_AELO (g p : Nat) : Nat := 0x22010208 + 0x40 * g + 0x10 * p
def NRG_AELO_ADDV (g p : Nat) : Fld := ⟨NRG_AELO g p, 0, 32⟩
def NRG_AEHI (g p : Nat) : Nat := 0x2201020C + 0x40 * g + 0x10 * p
def NRG_AEHI_ADDV (g p : Nat) : Fld := ⟨NRG_AEHI g p, 0, 32⟩
def NRG_FI (g p : Nat) : Nat := 0x22010300 + 0x40 * g + 0x10 * p
def NRG_FI_F (g p : Nat) : Fld := ⟨NRG_FI g p, 0, 32⟩
def NRG_FE (g p : Nat) : Nat := 0x22010304 + 0x40 * g + 0x10 * p
def NRG_FE_F (g p : Nat) : Fld := ⟨NRG_FE g p, 0, 32⟩
def NRG_I2T (g p : Nat) : Nat := 0x22010308 + 0x40 * g + 0x10 * p
def NRG_I2T_I2T (g p : Nat) : Fld := ⟨NRG_I2T g p, 0, 32⟩
def NRG_PCFG (k : Nat) : Nat := 0x22010400 + 0x10 * k
def NRG_PCFG_EN (k : Nat) : Fld := ⟨NRG_PCFG k, 0, 1⟩
def NRG_PCFG_GROUP (k : Nat) : Fld := ⟨NRG_PCFG k, 1, 2⟩
def NRG_PCFG_PHASE (k : Nat) : Fld := ⟨NRG_PCFG k, 3, 2⟩
def NRG_PCFG_DIR (k : Nat) : Fld := ⟨NRG_PCFG k, 5, 1⟩
def NRG_PCFG_POL (k : Nat) : Fld := ⟨NRG_PCFG k, 6, 1⟩
def NRG_PCFG_WIDTH (k : Nat) : Fld := ⟨NRG_PCFG k, 8, 8⟩
def NRG_PK (k : Nat) : Nat := 0x22010404 + 0x10 * k
def NRG_PK_K (k : Nat) : Fld := ⟨NRG_PK k, 0, 32⟩
def NRG_PSTAT (k : Nat) : Nat := 0x22010408 + 0x10 * k
def NRG_PSTAT_BACKLOG (k : Nat) : Fld := ⟨NRG_PSTAT k, 0, 8⟩
def NRG_PSTAT_OVER (k : Nat) : Fld := ⟨NRG_PSTAT k, 8, 16⟩
def ZCX_CFG : Nat := 0x22020000
def ZCX_CFG_HYST : Fld := ⟨ZCX_CFG, 0, 16⟩
def ZCX_CFG_ACQN : Fld := ⟨ZCX_CFG, 16, 4⟩
def ZCX_STAT (v : Nat) : Nat := 0x22020010 + 0x10 * v
def ZCX_STAT_LOCK (v : Nat) : Fld := ⟨ZCX_STAT v, 0, 1⟩
def ZCX_STAT_FLY (v : Nat) : Fld := ⟨ZCX_STAT v, 1, 5⟩
def ZCX_STAT_POL (v : Nat) : Fld := ⟨ZCX_STAT v, 6, 1⟩
def ZCX_STAT_FCLASS (v : Nat) : Fld := ⟨ZCX_STAT v, 8, 2⟩
def ZCX_HP (v : Nat) : Nat := 0x22020014 + 0x10 * v
def ZCX_HP_HP (v : Nat) : Fld := ⟨ZCX_HP v, 0, 24⟩
def ZCX_LAST (v : Nat) : Nat := 0x22020018 + 0x10 * v
def ZCX_LAST_TIME (v : Nat) : Fld := ⟨ZCX_LAST v, 0, 32⟩
def ZCX_CNT (v : Nat) : Nat := 0x2202001C + 0x10 * v
def ZCX_CNT_REJECT (v : Nat) : Fld := ⟨ZCX_CNT v, 0, 16⟩
def ZCX_CNT_LOSS (v : Nat) : Fld := ⟨ZCX_CNT v, 16, 8⟩
def ZCX_CNT_ACQ (v : Nat) : Fld := ⟨ZCX_CNT v, 24, 8⟩
def CHG_CTL (o : Nat) : Nat := 0x22030000 + 0x40 * o
def CHG_CTL_EN (o : Nat) : Fld := ⟨CHG_CTL o, 0, 1⟩
def CHG_CTL_TETHER (o : Nat) : Fld := ⟨CHG_CTL o, 1, 1⟩
def CHG_CTL_VENT (o : Nat) : Fld := ⟨CHG_CTL o, 2, 1⟩
def CHG_CTL_LOCKEN (o : Nat) : Fld := ⟨CHG_CTL o, 3, 1⟩
def CHG_CTL_SHUNT (o : Nat) : Fld := ⟨CHG_CTL o, 4, 1⟩
def CHG_CTL_PHASES (o : Nat) : Fld := ⟨CHG_CTL o, 5, 3⟩
def CHG_CTL_MGRP (o : Nat) : Fld := ⟨CHG_CTL o, 8, 2⟩
def CHG_CTL_RDR (o : Nat) : Fld := ⟨CHG_CTL o, 12, 3⟩
def CHG_CTL_CABLE (o : Nat) : Fld := ⟨CHG_CTL o, 16, 3⟩
def CHG_LIM (o : Nat) : Nat := 0x22030004 + 0x40 * o
def CHG_LIM_IMAX (o : Nat) : Fld := ⟨CHG_LIM o, 0, 10⟩
def CHG_LIM_AUTHTO (o : Nat) : Fld := ⟨CHG_LIM o, 16, 8⟩
def CHG_STAT (o : Nat) : Nat := 0x22030008 + 0x40 * o
def CHG_STAT_STATE (o : Nat) : Fld := ⟨CHG_STAT o, 0, 4⟩
def CHG_STAT_CP (o : Nat) : Fld := ⟨CHG_STAT o, 4, 3⟩
def CHG_STAT_PP (o : Nat) : Fld := ⟨CHG_STAT o, 8, 3⟩
def CHG_STAT_K (o : Nat) : Fld := ⟨CHG_STAT o, 12, 1⟩
def CHG_STAT_MIR (o : Nat) : Fld := ⟨CHG_STAT o, 13, 1⟩
def CHG_STAT_VP (o : Nat) : Fld := ⟨CHG_STAT o, 14, 1⟩
def CHG_STAT_LOCKED (o : Nat) : Fld := ⟨CHG_STAT o, 15, 1⟩
def CHG_STAT_SAFE (o : Nat) : Fld := ⟨CHG_STAT o, 16, 1⟩
def CHG_STAT_WELD (o : Nat) : Fld := ⟨CHG_STAT o, 17, 1⟩
def CHG_STAT_PEND (o : Nat) : Fld := ⟨CHG_STAT o, 18, 1⟩
def CHG_STAT_ARES (o : Nat) : Fld := ⟨CHG_STAT o, 24, 4⟩
def CHG_OFFER (o : Nat) : Nat := 0x2203000C + 0x40 * o
def CHG_OFFER_OFFER (o : Nat) : Fld := ⟨CHG_OFFER o, 0, 10⟩
def CHG_OFFER_DUTY (o : Nat) : Fld := ⟨CHG_OFFER o, 16, 10⟩
def CHG_RC (o : Nat) : Nat := 0x22030010 + 0x40 * o
def CHG_RC_DC (o : Nat) : Fld := ⟨CHG_RC o, 0, 16⟩
def CHG_RC_AC (o : Nat) : Fld := ⟨CHG_RC o, 16, 16⟩
def CHG_TRIP (o : Nat) : Nat := 0x22030014 + 0x40 * o
def CHG_TRIP_LEVEL (o : Nat) : Fld := ⟨CHG_TRIP o, 0, 3⟩
def CHG_TRIP_HOUR (o : Nat) : Fld := ⟨CHG_TRIP o, 8, 4⟩
def CHG_TRIP_TOTAL (o : Nat) : Fld := ⟨CHG_TRIP o, 16, 16⟩
def CHG_AUTH (o : Nat) : Nat := 0x22030018 + 0x40 * o
def CHG_AUTH_ACCT (o : Nat) : Fld := ⟨CHG_AUTH o, 0, 12⟩
def CHG_AUTH_OP (o : Nat) : Fld := ⟨CHG_AUTH o, 12, 4⟩
def CHG_SLIM (o : Nat) : Nat := 0x2203001C + 0x40 * o
def CHG_SLIM_LIM (o : Nat) : Fld := ⟨CHG_SLIM o, 0, 32⟩
def CHG_SID (o : Nat) : Nat := 0x22030020 + 0x40 * o
def CHG_SID_SID (o : Nat) : Fld := ⟨CHG_SID o, 0, 32⟩
def CHG_SACC (o : Nat) : Nat := 0x22030024 + 0x40 * o
def CHG_SACC_ACCT (o : Nat) : Fld := ⟨CHG_SACC o, 0, 12⟩
def CHG_SACC_TARIFF (o : Nat) : Fld := ⟨CHG_SACC o, 16, 4⟩
def CHG_SACC_REASON (o : Nat) : Fld := ⟨CHG_SACC o, 24, 8⟩
def CHG_SSTART (o : Nat) : Nat := 0x22030028 + 0x40 * o
def CHG_SSTART_RTC (o : Nat) : Fld := ⟨CHG_SSTART o, 0, 32⟩
def CHG_SE0 (o : Nat) : Nat := 0x2203002C + 0x40 * o
def CHG_SE0_E0 (o : Nat) : Fld := ⟨CHG_SE0 o, 0, 32⟩
def CHG_SENG (o : Nat) : Nat := 0x22030030 + 0x40 * o
def CHG_SENG_E (o : Nat) : Fld := ⟨CHG_SENG o, 0, 32⟩
def CHG_SMAX (o : Nat) : Nat := 0x22030034 + 0x40 * o
def CHG_SMAX_OFFMAX (o : Nat) : Fld := ⟨CHG_SMAX o, 0, 10⟩
def CHG_SMAX_DCMAX (o : Nat) : Fld := ⟨CHG_SMAX o, 16, 16⟩
def CHG_LM : Nat := 0x22030100
def CHG_LM_IRATED : Fld := ⟨CHG_LM, 0, 16⟩
def CHG_LM_RESERVE : Fld := ⟨CHG_LM, 16, 16⟩
def CHG_LM2 : Nat := 0x22030104
def CHG_LM2_STEP : Fld := ⟨CHG_LM2, 0, 8⟩
def CHG_LM2_TRIPMAX : Fld := ⟨CHG_LM2, 8, 4⟩
def CHG_HEAD (p : Nat) : Nat := 0x22030108 + 4 * p
def CHG_HEAD_A (p : Nat) : Fld := ⟨CHG_HEAD p, 0, 16⟩
def CHG_MTR : Nat := 0x22030114
def CHG_MTR_METER : Fld := ⟨CHG_MTR, 0, 32⟩
def CHG_CTR : Nat := 0x22030118
def CHG_CTR_CTR : Fld := ⟨CHG_CTR, 0, 32⟩
def CHG_CFG : Nat := 0x2203011C
def CHG_CFG_QUEUE : Fld := ⟨CHG_CFG, 0, 5⟩
def CHG_SEQ : Nat := 0x22030120
def CHG_SEQ_SEQ : Fld := ⟨CHG_SEQ, 0, 32⟩
def CHG_ACMD : Nat := 0x22030140
def CHG_ACMD_OP : Fld := ⟨CHG_ACMD, 0, 8⟩
def CHG_ACMD_BUSY : Fld := ⟨CHG_ACMD, 31, 1⟩
def CHG_AARG (n : Nat) : Nat := 0x22030144 + 4 * n
def CHG_AARG_ARG (n : Nat) : Fld := ⟨CHG_AARG n, 0, 32⟩
def CHG_ARES : Nat := 0x22030154
def CHG_ARES_RESULT : Fld := ⟨CHG_ARES, 0, 8⟩
def CHG_ARES_SEQ : Fld := ⟨CHG_ARES, 8, 8⟩
def CHG_ADAT (w : Nat) : Nat := 0x22030160 + 4 * w
def CHG_ADAT_DATA (w : Nat) : Fld := ⟨CHG_ADAT w, 0, 32⟩
def CHG_CNT : Nat := 0x22030170
def CHG_CNT_SESS : Fld := ⟨CHG_CNT, 0, 16⟩
def CHG_CNT_REFUSED : Fld := ⟨CHG_CNT, 16, 16⟩
def PLC_CTL (p : Nat) : Nat := 0x23000000 + 0x40 * p
def PLC_CTL_EN (p : Nat) : Fld := ⟨PLC_CTL p, 0, 1⟩
def PLC_CTL_ZSRC (p : Nat) : Fld := ⟨PLC_CTL p, 1, 3⟩
def PLC_CTL_OFFS (p : Nat) : Fld := ⟨PLC_CTL p, 4, 9⟩
def PLC_CTL_TXATT (p : Nat) : Fld := ⟨PLC_CTL p, 16, 4⟩
def PLC_CFG (p : Nat) : Nat := 0x23000004 + 0x40 * p
def PLC_CFG_IMPTHR (p : Nat) : Fld := ⟨PLC_CFG p, 0, 5⟩
def PLC_CFG_ERAMAX (p : Nat) : Fld := ⟨PLC_CFG p, 8, 7⟩
def PLC_STAT (p : Nat) : Nat := 0x23000008 + 0x40 * p
def PLC_STAT_READY (p : Nat) : Fld := ⟨PLC_STAT p, 0, 1⟩
def PLC_STAT_TXBUSY (p : Nat) : Fld := ⟨PLC_STAT p, 1, 1⟩
def PLC_STAT_RXBUSY (p : Nat) : Fld := ⟨PLC_STAT p, 2, 1⟩
def PLC_STAT_GAIN (p : Nat) : Fld := ⟨PLC_STAT p, 4, 3⟩
def PLC_RXQ (p : Nat) : Nat := 0x2300000C + 0x40 * p
def PLC_RXQ_MOD (p : Nat) : Fld := ⟨PLC_RXQ p, 0, 2⟩
def PLC_RXQ_LEN (p : Nat) : Fld := ⟨PLC_RXQ p, 2, 9⟩
def PLC_RXQ_ERASED (p : Nat) : Fld := ⟨PLC_RXQ p, 11, 7⟩
def PLC_RXQ_SNR (p : Nat) : Fld := ⟨PLC_RXQ p, 18, 6⟩
def PLC_RXQ_RSCORR (p : Nat) : Fld := ⟨PLC_RXQ p, 24, 8⟩
def PLC_CNT0 (p : Nat) : Nat := 0x23000010 + 0x40 * p
def PLC_CNT0_RXOK (p : Nat) : Fld := ⟨PLC_CNT0 p, 0, 16⟩
def PLC_CNT0_TXOK (p : Nat) : Fld := ⟨PLC_CNT0 p, 16, 16⟩
def PLC_CNT1 (p : Nat) : Nat := 0x23000014 + 0x40 * p
def PLC_CNT1_HDRERR (p : Nat) : Fld := ⟨PLC_CNT1 p, 0, 8⟩
def PLC_CNT1_RSFAIL (p : Nat) : Fld := ⟨PLC_CNT1 p, 8, 8⟩
def PLC_CNT1_ERADROP (p : Nat) : Fld := ⟨PLC_CNT1 p, 16, 8⟩
def PLC_CNT1_ABORT (p : Nat) : Fld := ⟨PLC_CNT1 p, 24, 8⟩
def PLK_CTL (p : Nat) : Nat := 0x23010000 + 0x40 * p
def PLK_CTL_ROLE (p : Nat) : Fld := ⟨PLK_CTL p, 0, 2⟩
def PLK_CTL_NET (p : Nat) : Fld := ⟨PLK_CTL p, 8, 8⟩
def PLK_CTL_QUEUE (p : Nat) : Fld := ⟨PLK_CTL p, 16, 5⟩
def PLK_CTL_DISC (p : Nat) : Fld := ⟨PLK_CTL p, 24, 1⟩
def PLK_SCH (p : Nat) : Nat := 0x23010004 + 0x40 * p
def PLK_SCH_RND (p : Nat) : Fld := ⟨PLK_SCH p, 0, 6⟩
def PLK_SCH_RETRY (p : Nat) : Fld := ⟨PLK_SCH p, 8, 4⟩
def PLK_SCH_TRAIN (p : Nat) : Fld := ⟨PLK_SCH p, 12, 3⟩
def PLK_SCH_DNGAP (p : Nat) : Fld := ⟨PLK_SCH p, 16, 4⟩
def PLK_SCH_RMAX (p : Nat) : Fld := ⟨PLK_SCH p, 20, 2⟩
def PLK_SCH_BLKMOD (p : Nat) : Fld := ⟨PLK_SCH p, 22, 2⟩
def PLK_BCN (p : Nat) : Nat := 0x23010008 + 0x40 * p
def PLK_BCN_PER (p : Nat) : Fld := ⟨PLK_BCN p, 0, 10⟩
def PLK_BCN_JSLOTS (p : Nat) : Fld := ⟨PLK_BCN p, 12, 4⟩
def PLK_BCN_DEVERY (p : Nat) : Fld := ⟨PLK_BCN p, 16, 8⟩
def PLK_MOD (p : Nat) : Nat := 0x2301000C + 0x40 * p
def PLK_MOD_MARGIN (p : Nat) : Fld := ⟨PLK_MOD p, 0, 4⟩
def PLK_MOD_MAXMOD (p : Nat) : Fld := ⟨PLK_MOD p, 4, 2⟩
def PLK_MOD_MINMOD (p : Nat) : Fld := ⟨PLK_MOD p, 6, 2⟩
def PLK_ADDR (p : Nat) : Nat := 0x23010010 + 0x40 * p
def PLK_ADDR_ADDR (p : Nat) : Fld := ⟨PLK_ADDR p, 0, 16⟩
def PLK_ADDR_UPNET (p : Nat) : Fld := ⟨PLK_ADDR p, 16, 8⟩
def PLK_STAT (p : Nat) : Nat := 0x23010014 + 0x40 * p
def PLK_STAT_SWEEP (p : Nat) : Fld := ⟨PLK_STAT p, 0, 1⟩
def PLK_STAT_HOLD (p : Nat) : Fld := ⟨PLK_STAT p, 1, 1⟩
def PLK_STAT_JOINED (p : Nat) : Fld := ⟨PLK_STAT p, 2, 1⟩
def PLK_STAT_UPLOST (p : Nat) : Fld := ⟨PLK_STAT p, 3, 1⟩
def PLK_STAT_LEFT (p : Nat) : Fld := ⟨PLK_STAT p, 16, 16⟩
def PLK_CNT0 (p : Nat) : Nat := 0x23010018 + 0x40 * p
def PLK_CNT0_POLLED (p : Nat) : Fld := ⟨PLK_CNT0 p, 0, 16⟩
def PLK_CNT0_ANSWERED (p : Nat) : Fld := ⟨PLK_CNT0 p, 16, 16⟩
def PLK_CNT1 (p : Nat) : Nat := 0x2301001C + 0x40 * p
def PLK_CNT1_MISSED (p : Nat) : Fld := ⟨PLK_CNT1 p, 0, 8⟩
def PLK_CNT1_QREFUSED (p : Nat) : Fld := ⟨PLK_CNT1 p, 8, 8⟩
def PLK_CNT1_OVERSLOT (p : Nat) : Fld := ⟨PLK_CNT1 p, 16, 4⟩
def PLK_CNT1_UNSOL (p : Nat) : Fld := ⟨PLK_CNT1 p, 20, 4⟩
def PLK_CNT1_OVERRUN (p : Nat) : Fld := ⟨PLK_CNT1 p, 24, 8⟩
def PLK_SWEEP (p : Nat) : Nat := 0x23010020 + 0x40 * p
def PLK_SWEEP_LAST (p : Nat) : Fld := ⟨PLK_SWEEP p, 0, 16⟩
def PLK_SWEEP_COUNT (p : Nat) : Fld := ⟨PLK_SWEEP p, 16, 16⟩
def SER_BCTL (n : Nat) : Nat := 0x23020000 + 0x20 * n
def SER_BCTL_EN (n : Nat) : Fld := ⟨SER_BCTL n, 0, 1⟩
def SER_BCTL_QUEUE (n : Nat) : Fld := ⟨SER_BCTL n, 8, 5⟩
def SER_BCFG (n : Nat) : Nat := 0x23020004 + 0x20 * n
def SER_BCFG_BAUD (n : Nat) : Fld := ⟨SER_BCFG n, 0, 3⟩
def SER_BCFG_RTO (n : Nat) : Fld := ⟨SER_BCFG n, 8, 8⟩
def SER_BCFG_GAP (n : Nat) : Fld := ⟨SER_BCFG n, 16, 4⟩
def SER_BCFG_RETRY (n : Nat) : Fld := ⟨SER_BCFG n, 20, 4⟩
def SER_BSTAT (n : Nat) : Nat := 0x23020008 + 0x20 * n
def SER_BSTAT_JAM (n : Nat) : Fld := ⟨SER_BSTAT n, 0, 1⟩
def SER_BCNT (n : Nat) : Nat := 0x2302000C + 0x20 * n
def SER_BCNT_BADFRM (n : Nat) : Fld := ⟨SER_BCNT n, 0, 16⟩
def SER_BCNT_LATE (n : Nat) : Fld := ⟨SER_BCNT n, 16, 16⟩
def SER_UCTL (u : Nat) : Nat := 0x23020100 + 0x20 * u
def SER_UCTL_ROLE (u : Nat) : Fld := ⟨SER_UCTL u, 0, 4⟩
def SER_UCNT (u : Nat) : Nat := 0x23020104 + 0x20 * u
def SER_UCNT_BADLINE (u : Nat) : Fld := ⟨SER_UCNT u, 0, 16⟩
def MBS_CTL (b : Nat) : Nat := 0x23030000 + 0x10 * b
def MBS_CTL_EN (b : Nat) : Fld := ⟨MBS_CTL b, 0, 1⟩
def MBS_CTL_BAUD (b : Nat) : Fld := ⟨MBS_CTL b, 1, 2⟩
def MBS_CTL_QUEUE (b : Nat) : Fld := ⟨MBS_CTL b, 8, 5⟩
def MBS_CFG (b : Nat) : Nat := 0x23030004 + 0x10 * b
def MBS_CFG_RTO (b : Nat) : Fld := ⟨MBS_CFG b, 0, 12⟩
def MBS_STAT (b : Nat) : Nat := 0x23030008 + 0x10 * b
def MBS_STAT_OVL (b : Nat) : Fld := ⟨MBS_STAT b, 0, 1⟩
def MBS_CNT (b : Nat) : Nat := 0x2303000C + 0x10 * b
def MBS_CNT_BADFRM (b : Nat) : Fld := ⟨MBS_CNT b, 0, 16⟩
def RAD_CTL (r : Nat) : Nat := 0x23040000 + 0x10 * r
def RAD_CTL_EN (r : Nat) : Fld := ⟨RAD_CTL r, 0, 1⟩
def RAD_CTL_QUEUE (r : Nat) : Fld := ⟨RAD_CTL r, 8, 5⟩
def RAD_STAT (r : Nat) : Nat := 0x23040004 + 0x10 * r
def RAD_STAT_JAM (r : Nat) : Fld := ⟨RAD_STAT r, 0, 1⟩
def RAD_CNT (r : Nat) : Nat := 0x23040008 + 0x10 * r
def RAD_CNT_BADFRM (r : Nat) : Fld := ⟨RAD_CNT r, 0, 16⟩
def ETH_CTL (n : Nat) : Nat := 0x23050000 + 0x40 * n
def ETH_CTL_EN (n : Nat) : Fld := ⟨ETH_CTL n, 0, 1⟩
def ETH_CTL_SPEED (n : Nat) : Fld := ⟨ETH_CTL n, 1, 2⟩
def ETH_CTL_PAUSE (n : Nat) : Fld := ⟨ETH_CTL n, 3, 1⟩
def ETH_CTL_VLAN (n : Nat) : Fld := ⟨ETH_CTL n, 4, 1⟩
def ETH_CTL_VID (n : Nat) : Fld := ⟨ETH_CTL n, 6, 12⟩
def ETH_STAT (n : Nat) : Nat := 0x23050004 + 0x40 * n
def ETH_STAT_LINK (n : Nat) : Fld := ⟨ETH_STAT n, 0, 1⟩
def ETH_STAT_SPD (n : Nat) : Fld := ⟨ETH_STAT n, 1, 2⟩
def ETH_STAT_MODABS (n : Nat) : Fld := ⟨ETH_STAT n, 3, 1⟩
def ETH_STAT_LOS (n : Nat) : Fld := ⟨ETH_STAT n, 4, 1⟩
def ETH_MACLO (n : Nat) : Nat := 0x23050008 + 0x40 * n
def ETH_MACLO_MACLO (n : Nat) : Fld := ⟨ETH_MACLO n, 0, 32⟩
def ETH_MACHI (n : Nat) : Nat := 0x2305000C + 0x40 * n
def ETH_MACHI_MACHI (n : Nat) : Fld := ⟨ETH_MACHI n, 0, 16⟩
def ETH_LAT (n : Nat) : Nat := 0x23050010 + 0x40 * n
def ETH_LAT_TX (n : Nat) : Fld := ⟨ETH_LAT n, 0, 16⟩
def ETH_LAT_RX (n : Nat) : Fld := ⟨ETH_LAT n, 16, 16⟩
def ETH_RXCNT (n : Nat) : Nat := 0x23050014 + 0x40 * n
def ETH_RXCNT_FRAMES (n : Nat) : Fld := ⟨ETH_RXCNT n, 0, 32⟩
def ETH_TXCNT (n : Nat) : Nat := 0x23050018 + 0x40 * n
def ETH_TXCNT_FRAMES (n : Nat) : Fld := ⟨ETH_TXCNT n, 0, 32⟩
def ETH_DROP (n : Nat) : Nat := 0x2305001C + 0x40 * n
def ETH_DROP_FULL (n : Nat) : Fld := ⟨ETH_DROP n, 0, 16⟩
def ETH_DROP_LINK (n : Nat) : Fld := ⟨ETH_DROP n, 16, 16⟩
def ETH_ERR (n : Nat) : Nat := 0x23050020 + 0x40 * n
def ETH_ERR_ERR (n : Nat) : Fld := ⟨ETH_ERR n, 0, 32⟩
def TIM_CTL : Nat := 0x23060000
def TIM_CTL_SRC : Fld := ⟨TIM_CTL, 0, 2⟩
def TIM_CTL_PTPM : Fld := ⟨TIM_CTL, 2, 1⟩
def TIM_CTL_PORT : Fld := ⟨TIM_CTL, 4, 2⟩
def TIM_CTL_REARM : Fld := ⟨TIM_CTL, 8, 1⟩
def TIM_STAT : Nat := 0x23060004
def TIM_STAT_VALID : Fld := ⟨TIM_STAT, 0, 1⟩
def TIM_STAT_LOCK : Fld := ⟨TIM_STAT, 1, 1⟩
def TIM_STAT_STEPARM : Fld := ⟨TIM_STAT, 2, 1⟩
def TIM_STAT_HOLD : Fld := ⟨TIM_STAT, 3, 1⟩
def TIM_STAT_GEN : Fld := ⟨TIM_STAT, 4, 2⟩
def TIM_STAT_TSQOVF : Fld := ⟨TIM_STAT, 6, 1⟩
def TIM_SECHI : Nat := 0x23060008
def TIM_SECHI_SEC : Fld := ⟨TIM_SECHI, 0, 16⟩
def TIM_SECLO : Nat := 0x2306000C
def TIM_SECLO_SEC : Fld := ⟨TIM_SECLO, 0, 32⟩
def TIM_NS : Nat := 0x23060010
def TIM_NS_NS : Fld := ⟨TIM_NS, 0, 30⟩
def TIM_ADDLO : Nat := 0x23060014
def TIM_ADDLO_ADD : Fld := ⟨TIM_ADDLO, 0, 32⟩
def TIM_ADDHI : Nat := 0x23060018
def TIM_ADDHI_ADD : Fld := ⟨TIM_ADDHI, 0, 32⟩
def TIM_STEPS : Nat := 0x2306001C
def TIM_STEPS_S : Fld := ⟨TIM_STEPS, 0, 32⟩
def TIM_STEPNS : Nat := 0x23060020
def TIM_STEPNS_NS : Fld := ⟨TIM_STEPNS, 0, 31⟩
def TIM_SERVO : Nat := 0x23060024
def TIM_SERVO_STEPTHR : Fld := ⟨TIM_SERVO, 0, 16⟩
def TIM_SERVO_LOCKTHR : Fld := ⟨TIM_SERVO, 16, 12⟩
def TIM_SERVO_SLEW : Fld := ⟨TIM_SERVO, 28, 4⟩
def TIM_OFS : Nat := 0x23060028
def TIM_OFS_OFS : Fld := ⟨TIM_OFS, 0, 32⟩
def TIM_CNT : Nat := 0x2306002C
def TIM_CNT_STEPREF : Fld := ⟨TIM_CNT, 0, 8⟩
def TIM_CNT_SRCLOSS : Fld := ⟨TIM_CNT, 8, 8⟩
def TIM_CNT_PPSREJ : Fld := ⟨TIM_CNT, 16, 8⟩
def TIM_CNT_TSQLOST : Fld := ⟨TIM_CNT, 24, 8⟩
def TIM_UTC : Nat := 0x23060030
def TIM_UTC_OFS : Fld := ⟨TIM_UTC, 0, 16⟩
def TIM_UTC_UVALID : Fld := ⟨TIM_UTC, 16, 1⟩
def TIM_PMLO : Nat := 0x23060034
def TIM_PMLO_ID : Fld := ⟨TIM_PMLO, 0, 32⟩
def TIM_PMHI : Nat := 0x23060038
def TIM_PMHI_ID : Fld := ⟨TIM_PMHI, 0, 32⟩
def TIM_PTPCFG : Nat := 0x2306003C
def TIM_PTPCFG_DOMAIN : Fld := ⟨TIM_PTPCFG, 0, 7⟩
def TIM_PTPCFG_TRANS : Fld := ⟨TIM_PTPCFG, 8, 2⟩
def TIM_PTPCFG_LSYNC : Fld := ⟨TIM_PTPCFG, 12, 4⟩
def TIM_PTPCFG_LANN : Fld := ⟨TIM_PTPCFG, 16, 4⟩
def TIM_PTPCFG_LDREQ : Fld := ⟨TIM_PTPCFG, 20, 4⟩
def TIM_PPS : Nat := 0x23060040
def TIM_PPS_EN : Fld := ⟨TIM_PPS, 0, 1⟩
def TIM_PPS_ALWAYS : Fld := ⟨TIM_PPS, 1, 1⟩
def TIM_PPS_POL : Fld := ⟨TIM_PPS, 2, 1⟩
def TIM_PPS_WIDTH : Fld := ⟨TIM_PPS, 8, 8⟩
def TIM_TSQKEY : Nat := 0x23060050
def TIM_TSQKEY_SEQ : Fld := ⟨TIM_TSQKEY, 0, 16⟩
def TIM_TSQKEY_MTYPE : Fld := ⟨TIM_TSQKEY, 16, 4⟩
def TIM_TSQKEY_PORT : Fld := ⟨TIM_TSQKEY, 20, 2⟩
def TIM_TSQRES : Nat := 0x23060054
def TIM_TSQRES_FOUND : Fld := ⟨TIM_TSQRES, 0, 1⟩
def TIM_TSQRES_GEN : Fld := ⟨TIM_TSQRES, 4, 2⟩
def TIM_TSQRES_SECHI : Fld := ⟨TIM_TSQRES, 16, 16⟩
def TIM_TSQSEC : Nat := 0x23060058
def TIM_TSQSEC_SEC : Fld := ⟨TIM_TSQSEC, 0, 32⟩
def TIM_TSQNS : Nat := 0x2306005C
def TIM_TSQNS_NS : Fld := ⟨TIM_TSQNS, 0, 30⟩
def TIM_TSQSTAT : Nat := 0x23060060
def TIM_TSQSTAT_COUNT : Fld := ⟨TIM_TSQSTAT, 0, 5⟩
def TIM_ANCHT : Nat := 0x23060070
def TIM_ANCHT_TICK : Fld := ⟨TIM_ANCHT, 0, 32⟩
def TIM_ANCHS : Nat := 0x23060074
def TIM_ANCHS_SEC : Fld := ⟨TIM_ANCHS, 0, 32⟩
def TIM_ANCHNS : Nat := 0x23060078
def TIM_ANCHNS_NS : Fld := ⟨TIM_ANCHNS, 0, 30⟩
def TIM_ANCHRTC : Nat := 0x2306007C
def TIM_ANCHRTC_SEC : Fld := ⟨TIM_ANCHRTC, 0, 32⟩
def TIM_TRGCTL (k : Nat) : Nat := 0x23060100 + 0x10 * k
def TIM_TRGCTL_MODE (k : Nat) : Fld := ⟨TIM_TRGCTL k, 0, 2⟩
def TIM_TRGCTL_POL (k : Nat) : Fld := ⟨TIM_TRGCTL k, 2, 1⟩
def TIM_TRGCTL_WIDTH (k : Nat) : Fld := ⟨TIM_TRGCTL k, 8, 24⟩
def TIM_TRGS (k : Nat) : Nat := 0x23060104 + 0x10 * k
def TIM_TRGS_SEC (k : Nat) : Fld := ⟨TIM_TRGS k, 0, 32⟩
def TIM_TRGN (k : Nat) : Nat := 0x23060108 + 0x10 * k
def TIM_TRGN_NS (k : Nat) : Fld := ⟨TIM_TRGN k, 0, 30⟩
def TIM_TRGP (k : Nat) : Nat := 0x2306010C + 0x10 * k
def TIM_TRGP_PER (k : Nat) : Fld := ⟨TIM_TRGP k, 0, 32⟩
def TIM_CAPS (k : Nat) : Nat := 0x23060180 + 0x10 * k
def TIM_CAPS_SEC (k : Nat) : Fld := ⟨TIM_CAPS k, 0, 32⟩
def TIM_CAPN (k : Nat) : Nat := 0x23060184 + 0x10 * k
def TIM_CAPN_NS (k : Nat) : Fld := ⟨TIM_CAPN k, 0, 30⟩
def TIM_CAPST (k : Nat) : Nat := 0x23060188 + 0x10 * k
def TIM_CAPST_CAPV (k : Nat) : Fld := ⟨TIM_CAPST k, 0, 1⟩
def TIM_CAPST_MISSED (k : Nat) : Fld := ⟨TIM_CAPST k, 1, 1⟩
def TIM_CAPST_OVR (k : Nat) : Fld := ⟨TIM_CAPST k, 8, 8⟩
def TIM_CAPST_GEN (k : Nat) : Fld := ⟨TIM_CAPST k, 16, 2⟩
def SUP_CTL : Nat := 0x23070000
def SUP_CTL_UPEN : Fld := ⟨SUP_CTL, 0, 1⟩
def SUP_CTL_SRVEN : Fld := ⟨SUP_CTL, 1, 1⟩
def SUP_CTL_IF : Fld := ⟨SUP_CTL, 4, 2⟩
def SUP_CTL_IPV : Fld := ⟨SUP_CTL, 6, 1⟩
def SUP_CTL_DURABLE : Fld := ⟨SUP_CTL, 7, 1⟩
def SUP_CTL_FBANK : Fld := ⟨SUP_CTL, 8, 2⟩
def SUP_PORT : Nat := 0x23070004
def SUP_PORT_LPORT : Fld := ⟨SUP_PORT, 0, 16⟩
def SUP_PORT_HPORT : Fld := ⟨SUP_PORT, 16, 16⟩
def SUP_HADDR (i : Nat) : Nat := 0x23070008 + 4 * i
def SUP_HADDR_ADDR (i : Nat) : Fld := ⟨SUP_HADDR i, 0, 32⟩
def SUP_TIM0 : Nat := 0x23070018
def SUP_TIM0_BATCH : Fld := ⟨SUP_TIM0, 0, 10⟩
def SUP_TIM0_IDLE : Fld := ⟨SUP_TIM0, 16, 8⟩
def SUP_TIM1 : Nat := 0x2307001C
def SUP_TIM1_RTO : Fld := ⟨SUP_TIM1, 0, 8⟩
def SUP_TIM1_FWDWAIT : Fld := ⟨SUP_TIM1, 8, 8⟩
def SUP_TIM1_LIFE : Fld := ⟨SUP_TIM1, 16, 16⟩
def SUP_SCFG : Nat := 0x23070020
def SUP_SCFG_MAXSESS : Fld := ⟨SUP_SCFG, 0, 7⟩
def SUP_SCFG_WMAX : Fld := ⟨SUP_SCFG, 8, 16⟩
def SUP_SCFG_ACKDLY : Fld := ⟨SUP_SCFG, 24, 8⟩
def SUP_QMAP : Nat := 0x23070024
def SUP_QMAP_QUEUES : Fld := ⟨SUP_QMAP, 0, 32⟩
def SUP_STAT : Nat := 0x23070028
def SUP_STAT_UPSTATE : Fld := ⟨SUP_STAT, 0, 2⟩
def SUP_STAT_SRVCNT : Fld := ⟨SUP_STAT, 8, 7⟩
def SUP_STAT_FFREE : Fld := ⟨SUP_STAT, 16, 14⟩
def SUP_UNACK : Nat := 0x2307002C
def SUP_UNACK_RECS : Fld := ⟨SUP_UNACK, 0, 24⟩
def SUP_CNT0 : Nat := 0x23070030
def SUP_CNT0_HELLOFAIL : Fld := ⟨SUP_CNT0, 0, 8⟩
def SUP_CNT0_AUTHFAIL : Fld := ⟨SUP_CNT0, 8, 8⟩
def SUP_CNT0_REPLAY : Fld := ⟨SUP_CNT0, 16, 8⟩
def SUP_CNT0_MALF : Fld := ⟨SUP_CNT0, 24, 8⟩
def SUP_CNT1 : Nat := 0x23070034
def SUP_CNT1_QREF : Fld := ⟨SUP_CNT1, 0, 16⟩
def SUP_CNT1_RETX : Fld := ⟨SUP_CNT1, 16, 16⟩
def SUP_MGMT : Nat := 0x23070038
def SUP_MGMT_PATHREF : Fld := ⟨SUP_MGMT, 0, 16⟩
def SUP_MGMT_ITEMS : Fld := ⟨SUP_MGMT, 16, 16⟩
def SUP_DLS : Nat := 0x2307003C
def SUP_DLS_USED : Fld := ⟨SUP_DLS, 0, 12⟩
def SUP_DLS_DLFULL : Fld := ⟨SUP_DLS, 16, 1⟩
def SUP_RXCNT : Nat := 0x23070040
def SUP_RXCNT_DGRAMS : Fld := ⟨SUP_RXCNT, 0, 32⟩
def SUP_TXCNT : Nat := 0x23070044
def SUP_TXCNT_DGRAMS : Fld := ⟨SUP_TXCNT, 0, 32⟩
def CIP_CTL (p : Nat) : Nat := 0x24000000 + 0x100 * p
def CIP_CTL_MODE (p : Nat) : Fld := ⟨CIP_CTL p, 0, 3⟩
def CIP_CTL_KS (p : Nat) : Fld := ⟨CIP_CTL p, 3, 1⟩
def CIP_CTL_DIR (p : Nat) : Fld := ⟨CIP_CTL p, 4, 1⟩
def CIP_CTL_NSRC (p : Nat) : Fld := ⟨CIP_CTL p, 5, 2⟩
def CIP_CTL_SLOT (p : Nat) : Fld := ⟨CIP_CTL p, 8, 5⟩
def CIP_CTL_TAGLEN (p : Nat) : Fld := ⟨CIP_CTL p, 16, 5⟩
def CIP_CTL_DSTQ (p : Nat) : Fld := ⟨CIP_CTL p, 21, 1⟩
def CIP_CTL_QNUM (p : Nat) : Fld := ⟨CIP_CTL p, 24, 5⟩
def CIP_STAT (p : Nat) : Nat := 0x24000004 + 0x100 * p
def CIP_STAT_STATE (p : Nat) : Fld := ⟨CIP_STAT p, 0, 2⟩
def CIP_STAT_KEYV (p : Nat) : Fld := ⟨CIP_STAT p, 2, 1⟩
def CIP_STAT_RESULT (p : Nat) : Fld := ⟨CIP_STAT p, 4, 4⟩
def CIP_STAT_OWNER (p : Nat) : Fld := ⟨CIP_STAT p, 8, 5⟩
def CIP_LEN (p : Nat) : Nat := 0x24000008 + 0x100 * p
def CIP_LEN_LEN (p : Nat) : Fld := ⟨CIP_LEN p, 0, 17⟩
def CIP_AADL (p : Nat) : Nat := 0x2400000C + 0x100 * p
def CIP_AADL_AADLEN (p : Nat) : Fld := ⟨CIP_AADL p, 0, 17⟩
def CIP_SRC (p : Nat) : Nat := 0x24000010 + 0x100 * p
def CIP_SRC_SRC (p : Nat) : Fld := ⟨CIP_SRC p, 0, 25⟩
def CIP_DST (p : Nat) : Nat := 0x24000014 + 0x100 * p
def CIP_DST_DST (p : Nat) : Fld := ⟨CIP_DST p, 0, 25⟩
def CIP_SKIP (p : Nat) : Nat := 0x24000018 + 0x100 * p
def CIP_SKIP_SKIP (p : Nat) : Fld := ⟨CIP_SKIP p, 0, 5⟩
def CIP_CMD (p : Nat) : Nat := 0x2400001C + 0x100 * p
def CIP_CMD_OP (p : Nat) : Fld := ⟨CIP_CMD p, 0, 3⟩
def CIP_NLEN (p : Nat) : Nat := 0x24000020 + 0x100 * p
def CIP_NLEN_NLEN (p : Nat) : Fld := ⟨CIP_NLEN p, 0, 4⟩
def CIP_IV (w p : Nat) : Nat := 0x24000030 + 0x100 * p + 4 * w
def CIP_IV_IV (w p : Nat) : Fld := ⟨CIP_IV w p, 0, 32⟩
def CIP_TAG (w p : Nat) : Nat := 0x24000040 + 0x100 * p + 4 * w
def CIP_TAG_TAG (w p : Nat) : Fld := ⟨CIP_TAG w p, 0, 32⟩
def CIP_CTRLO (p : Nat) : Nat := 0x24000050 + 0x100 * p
def CIP_CTRLO_CTR (p : Nat) : Fld := ⟨CIP_CTRLO p, 0, 32⟩
def CIP_CTRHI (p : Nat) : Nat := 0x24000054 + 0x100 * p
def CIP_CTRHI_CTR (p : Nat) : Fld := ⟨CIP_CTRHI p, 0, 32⟩
def CIP_HOLD (w p : Nat) : Nat := 0x24000060 + 0x100 * p + 4 * w
def CIP_HOLD_HOLD (w p : Nat) : Fld := ⟨CIP_HOLD w p, 0, 32⟩
def CIP_JOBS (p : Nat) : Nat := 0x24000070 + 0x100 * p
def CIP_JOBS_JOBS (p : Nat) : Fld := ⟨CIP_JOBS p, 0, 32⟩
def CIP_OWN (p : Nat) : Nat := 0x24010000 + 4 * p
def CIP_OWN_OWNER (p : Nat) : Fld := ⟨CIP_OWN p, 0, 5⟩
def CIP_FAULT : Nat := 0x24010400
def CIP_FAULT_PAGE : Fld := ⟨CIP_FAULT, 0, 8⟩
def CIP_FAULT_AGENT : Fld := ⟨CIP_FAULT, 8, 5⟩
def CIP_FAULT_COUNT : Fld := ⟨CIP_FAULT, 16, 12⟩
def CIP_FAULT_VALID : Fld := ⟨CIP_FAULT, 31, 1⟩
def CIP_CNT : Nat := 0x24010404
def CIP_CNT_AUTHFAIL : Fld := ⟨CIP_CNT, 0, 16⟩
def CIP_CNT_BUSYERR : Fld := ⟨CIP_CNT, 16, 8⟩
def CIP_CNT_NOCTR : Fld := ⟨CIP_CNT, 24, 8⟩
def CIP_SLOTV : Nat := 0x24010408
def CIP_SLOTV_VALID : Fld := ⟨CIP_SLOTV, 0, 32⟩
def CIP_USE : Nat := 0x2401040C
def CIP_USE_BUSY : Fld := ⟨CIP_USE, 0, 9⟩
def CIP_USE_SPENT : Fld := ⟨CIP_USE, 16, 9⟩
def KEY_LC : Nat := 0x24020000
def KEY_LC_STATE : Fld := ⟨KEY_LC, 0, 3⟩
def KEY_LC_CYCLE : Fld := ⟨KEY_LC, 4, 3⟩
def KEY_LC_TCOUNT : Fld := ⟨KEY_LC, 8, 4⟩
def KEY_SERLO : Nat := 0x24020004
def KEY_SERLO_SER : Fld := ⟨KEY_SERLO, 0, 32⟩
def KEY_SERHI : Nat := 0x24020008
def KEY_SERHI_SER : Fld := ⟨KEY_SERHI, 0, 32⟩
def KEY_STAT : Nat := 0x2402000C
def KEY_STAT_PRES : Fld := ⟨KEY_STAT, 0, 5⟩
def KEY_STAT_ROOTOK : Fld := ⟨KEY_STAT, 5, 1⟩
def KEY_STAT_REDERIVE : Fld := ⟨KEY_STAT, 6, 1⟩
def KEY_STAT_NOTE : Fld := ⟨KEY_STAT, 7, 1⟩
def KEY_STAT_ERASED : Fld := ⟨KEY_STAT, 8, 1⟩
def KEY_STAT_LASTRES : Fld := ⟨KEY_STAT, 16, 4⟩
def KEY_UCTR : Nat := 0x24020010
def KEY_UCTR_UCTR : Fld := ⟨KEY_UCTR, 0, 32⟩
def KEY_AUTH : Nat := 0x24020014
def KEY_AUTH_AHM : Fld := ⟨KEY_AUTH, 0, 5⟩
def KEY_AUTH_AHF : Fld := ⟨KEY_AUTH, 8, 5⟩
def KEY_CNT : Nat := 0x24020018
def KEY_CNT_ACCEPTED : Fld := ⟨KEY_CNT, 0, 16⟩
def KEY_CNT_REFUSED : Fld := ⟨KEY_CNT, 16, 16⟩
def KEY_LDCMD : Nat := 0x24020020
def KEY_LDCMD_PAGE : Fld := ⟨KEY_LDCMD, 0, 8⟩
def KEY_LDCMD_PURPOSE : Fld := ⟨KEY_LDCMD, 8, 4⟩
def KEY_LDGEN : Nat := 0x24020024
def KEY_LDGEN_GEN : Fld := ⟨KEY_LDGEN, 0, 32⟩
def KEY_LDRES : Nat := 0x24020028
def KEY_LDRES_RESULT : Fld := ⟨KEY_LDRES, 0, 4⟩
def KEY_LDRES_SEQ : Fld := ⟨KEY_LDRES, 8, 8⟩
def KEY_IDPUB (w : Nat) : Nat := 0x24020040 + 4 * w
def KEY_IDPUB_Q (w : Nat) : Fld := ⟨KEY_IDPUB w, 0, 32⟩
def SIG_CNT : Nat := 0x24030000
def SIG_CNT_VERIFY : Fld := ⟨SIG_CNT, 0, 16⟩
def SIG_CNT_AGREE : Fld := ⟨SIG_CNT, 16, 16⟩
def RNG_STAT : Nat := 0x24040000
def RNG_STAT_OK : Fld := ⟨RNG_STAT, 0, 1⟩
def RNG_STAT_FAILS : Fld := ⟨RNG_STAT, 8, 8⟩
def NND_CTL : Nat := 0x25000000
def NND_CTL_CEMASK : Fld := ⟨NND_CTL, 0, 4⟩
def NND_CTL_RATE : Fld := ⟨NND_CTL, 4, 3⟩
def NND_GEOM : Nat := 0x25000004
def NND_GEOM_LUNS : Fld := ⟨NND_GEOM, 0, 4⟩
def NND_GEOM_PAGE : Fld := ⟨NND_GEOM, 4, 2⟩
def NND_GEOM_TPROG : Fld := ⟨NND_GEOM, 16, 16⟩
def NND_CNT : Nat := 0x25000008
def NND_CNT_PFAIL : Fld := ⟨NND_CNT, 0, 16⟩
def NND_CNT_EFAIL : Fld := ⟨NND_CNT, 16, 16⟩
def FTL_CTL : Nat := 0x25010000
def FTL_CTL_EN : Fld := ⟨FTL_CTL, 0, 1⟩
def FTL_CTL_FLUSHW : Fld := ⟨FTL_CTL, 8, 8⟩
def FTL_CTL_FLUSHB : Fld := ⟨FTL_CTL, 16, 16⟩
def FTL_CFG : Nat := 0x25010004
def FTL_CFG_SPREAD : Fld := ⟨FTL_CFG, 0, 10⟩
def FTL_CFG_REFRESH : Fld := ⟨FTL_CFG, 11, 5⟩
def FTL_CFG_SPAREPCT : Fld := ⟨FTL_CFG, 16, 5⟩
def FTL_HOLD : Nat := 0x25010008
def FTL_HOLD_HOLDU : Fld := ⟨FTL_HOLD, 0, 16⟩
def FTL_CKPT : Nat := 0x2501000C
def FTL_CKPT_SEC : Fld := ⟨FTL_CKPT, 0, 12⟩
def FTL_CKPT_REC : Fld := ⟨FTL_CKPT, 16, 8⟩
def FTL_STAT : Nat := 0x25010010
def FTL_STAT_STATE : Fld := ⟨FTL_STAT, 0, 3⟩
def FTL_STAT_LOWSPARE : Fld := ⟨FTL_STAT, 4, 1⟩
def FTL_STAT_HOLD : Fld := ⟨FTL_STAT, 5, 1⟩
def FTL_STAT_RESTORED : Fld := ⟨FTL_STAT, 6, 1⟩
def FTL_FENCE : Nat := 0x25010014
def FTL_FENCE_ISSUE : Fld := ⟨FTL_FENCE, 0, 1⟩
def FTL_FISS : Nat := 0x25010018
def FTL_FISS_NUM : Fld := ⟨FTL_FISS, 0, 32⟩
def FTL_FDONE : Nat := 0x2501001C
def FTL_FDONE_NUM : Fld := ⟨FTL_FDONE, 0, 32⟩
def FTL_LSNLO : Nat := 0x25010020
def FTL_LSNLO_LSN : Fld := ⟨FTL_LSNLO, 0, 32⟩
def FTL_LSNHI : Nat := 0x25010024
def FTL_LSNHI_LSN : Fld := ⟨FTL_LSNHI, 0, 32⟩
def FTL_ACKLO : Nat := 0x25010028
def FTL_ACKLO_LSN : Fld := ⟨FTL_ACKLO, 0, 32⟩
def FTL_ACKHI : Nat := 0x2501002C
def FTL_ACKHI_LSN : Fld := ⟨FTL_ACKHI, 0, 32⟩
def FTL_HLTH : Nat := 0x25010030
def FTL_HLTH_SPARE : Fld := ⟨FTL_HLTH, 0, 16⟩
def FTL_HLTH_RETIRED : Fld := ⟨FTL_HLTH, 16, 16⟩
def FTL_WEAR : Nat := 0x25010034
def FTL_WEAR_MAXERASE : Fld := ⟨FTL_WEAR, 0, 16⟩
def FTL_WEAR_USED : Fld := ⟨FTL_WEAR, 16, 16⟩
def FTL_ECC : Nat := 0x25010038
def FTL_ECC_CORR : Fld := ⟨FTL_ECC, 0, 24⟩
def FTL_ECC_UNCORR : Fld := ⟨FTL_ECC, 24, 8⟩
def FTL_CNT : Nat := 0x2501003C
def FTL_CNT_FFAIL : Fld := ⟨FTL_CNT, 0, 16⟩
def FTL_CNT_REFUSED : Fld := ⟨FTL_CNT, 16, 16⟩
def FTL_RATE : Nat := 0x25010040
def FTL_RATE_RATE : Fld := ⟨FTL_RATE, 0, 32⟩
def FTL_CMD : Nat := 0x25010044
def FTL_CMD_OP : Fld := ⟨FTL_CMD, 0, 4⟩
def FTL_THIST (k : Nat) : Nat := 0x25010080 + 4 * k
def FTL_THIST_MIN (k : Nat) : Fld := ⟨FTL_THIST k, 0, 32⟩
def EVR_CTL : Nat := 0x25020000
def EVR_CTL_MODE : Fld := ⟨EVR_CTL, 0, 1⟩
def EVR_CTL_CRC : Fld := ⟨EVR_CTL, 1, 1⟩
def EVR_CTL_MERGEWIN : Fld := ⟨EVR_CTL, 8, 8⟩
def EVR_CTL_ACKCLR : Fld := ⟨EVR_CTL, 16, 1⟩
def EVR_STAT : Nat := 0x25020004
def EVR_STAT_EFF : Fld := ⟨EVR_STAT, 0, 2⟩
def EVR_STAT_FULL : Fld := ⟨EVR_STAT, 2, 1⟩
def EVR_STAT_PEND : Fld := ⟨EVR_STAT, 4, 15⟩
def EVR_SEQ : Nat := 0x25020008
def EVR_SEQ_SEQ : Fld := ⟨EVR_SEQ, 0, 32⟩
def EVR_USED : Nat := 0x2502000C
def EVR_USED_COUNT : Fld := ⟨EVR_USED, 0, 20⟩
def EVR_OLDEST : Nat := 0x25020010
def EVR_OLDEST_SEQ : Fld := ⟨EVR_OLDEST, 0, 32⟩
def EVR_DISCARD : Nat := 0x25020014
def EVR_DISCARD_COUNT : Fld := ⟨EVR_DISCARD, 0, 32⟩
def EVR_UPSEQ : Nat := 0x25020018
def EVR_UPSEQ_SEQ : Fld := ⟨EVR_UPSEQ, 0, 32⟩
def EVR_CMD : Nat := 0x2502001C
def EVR_CMD_OP : Fld := ⟨EVR_CMD, 0, 3⟩
def EVR_CMD_BUSY : Fld := ⟨EVR_CMD, 31, 1⟩
def EVR_ARG : Nat := 0x25020020
def EVR_ARG_SEQ : Fld := ⟨EVR_ARG, 0, 32⟩
def EVR_RDSTAT : Nat := 0x25020024
def EVR_RDSTAT_DONE : Fld := ⟨EVR_RDSTAT, 0, 1⟩
def EVR_RDSTAT_FOUND : Fld := ⟨EVR_RDSTAT, 1, 1⟩
def EVR_RDSTAT_SEQ : Fld := ⟨EVR_RDSTAT, 8, 8⟩
def EVR_RDAT (w : Nat) : Nat := 0x25020040 + 4 * w
def EVR_RDAT_DATA (w : Nat) : Fld := ⟨EVR_RDAT w, 0, 32⟩
def CFG_STAT : Nat := 0x25030000
def CFG_STAT_STEP : Fld := ⟨CFG_STAT, 0, 4⟩
def CFG_STAT_SAFE : Fld := ⟨CFG_STAT, 4, 1⟩
def CFG_STAT_FIX : Fld := ⟨CFG_STAT, 5, 2⟩
def CFG_STAT_CAUSE : Fld := ⟨CFG_STAT, 8, 3⟩
def CFG_ERR : Nat := 0x25030004
def CFG_ERR_STEP : Fld := ⟨CFG_ERR, 0, 4⟩
def CFG_ERR_CODE : Fld := ⟨CFG_ERR, 8, 8⟩
def CFG_ERRARG : Nat := 0x25030008
def CFG_ERRARG_ARG : Fld := ⟨CFG_ERRARG, 0, 32⟩
def CFG_AID : Nat := 0x2503000C
def CFG_AID_ID : Fld := ⟨CFG_AID, 0, 32⟩
def CFG_AVER : Nat := 0x25030010
def CFG_AVER_VER : Fld := ⟨CFG_AVER, 0, 32⟩
def CFG_FID : Nat := 0x25030014
def CFG_FID_ID : Fld := ⟨CFG_FID, 0, 32⟩
def CFG_FIXSEQ : Nat := 0x25030018
def CFG_FIXSEQ_SEQ : Fld := ⟨CFG_FIXSEQ, 0, 32⟩
def CFG_RECOV : Nat := 0x2503001C
def CFG_RECOV_HOUR : Fld := ⟨CFG_RECOV, 0, 8⟩
def CFG_RECOV_TOTAL : Fld := ⟨CFG_RECOV, 8, 16⟩
def CFG_MARK (k : Nat) : Nat := 0x25030040 + 4 * k
def CFG_MARK_TICK (k : Nat) : Fld := ⟨CFG_MARK k, 0, 32⟩
def UPD_CTL : Nat := 0x25040000
def UPD_CTL_TRIALS : Fld := ⟨UPD_CTL, 0, 12⟩
def UPD_STAT : Nat := 0x25040004
def UPD_STAT_FSTG : Fld := ⟨UPD_STAT, 0, 2⟩
def UPD_STAT_CSTG : Fld := ⟨UPD_STAT, 2, 2⟩
def UPD_STAT_HRES : Fld := ⟨UPD_STAT, 4, 4⟩
def UPD_STAT_LASTRES : Fld := ⟨UPD_STAT, 8, 3⟩
def UPD_STAT_TRIAL : Fld := ⟨UPD_STAT, 11, 1⟩
def UPD_RECV : Nat := 0x25040008
def UPD_RECV_BYTES : Fld := ⟨UPD_RECV, 0, 32⟩
def UPD_IMG : Nat := 0x2504000C
def UPD_IMG_ID : Fld := ⟨UPD_IMG, 0, 32⟩
def UPD_FVER : Nat := 0x25040010
def UPD_FVER_VER : Fld := ⟨UPD_FVER, 0, 32⟩
def UPD_CVER : Nat := 0x25040014
def UPD_CVER_VER : Fld := ⟨UPD_CVER, 0, 32⟩
def UPD_FLOOR (i : Nat) : Nat := 0x25040018 + 4 * i
def UPD_FLOOR_VER (i : Nat) : Fld := ⟨UPD_FLOOR i, 0, 32⟩
def UPD_CNT : Nat := 0x25040020
def UPD_CNT_ACTIV : Fld := ⟨UPD_CNT, 0, 8⟩
def UPD_CNT_REFUSED : Fld := ⟨UPD_CNT, 8, 8⟩
def UPD_CNT_REVERT : Fld := ⟨UPD_CNT, 16, 8⟩
def UPD_PAUSE : Nat := 0x25040024
def UPD_PAUSE_TICKS : Fld := ⟨UPD_PAUSE, 0, 16⟩
def UPD_CONFIRM : Nat := 0x25040028
def UPD_CONFIRM_CONFIRM : Fld := ⟨UPD_CONFIRM, 0, 1⟩
def ISL_ID : Nat := 0x2F000000
def ISL_ID_ID : Fld := ⟨ISL_ID, 0, 32⟩
def ISL_STAT : Nat := 0x2F000004
def ISL_STAT_PFW : Fld := ⟨ISL_STAT, 0, 1⟩
def ISL_LOSS : Nat := 0x2F000008
def ISL_LOSS_KIND : Fld := ⟨ISL_LOSS, 0, 2⟩
def ISL_OUTAGE : Nat := 0x2F00000C
def ISL_OUTAGE_SEC : Fld := ⟨ISL_OUTAGE, 0, 32⟩
def ISL_OPSEC : Nat := 0x2F000010
def ISL_OPSEC_SEC : Fld := ⟨ISL_OPSEC, 0, 32⟩
def ISL_PCYC : Nat := 0x2F000014
def ISL_PCYC_PCYC : Fld := ⟨ISL_PCYC, 0, 16⟩
def ISL_EVLOST : Nat := 0x2F000018
def ISL_EVLOST_COUNT : Fld := ⟨ISL_EVLOST, 0, 32⟩
def ISL_EVHELD : Nat := 0x2F00001C
def ISL_EVHELD_COUNT : Fld := ⟨ISL_EVHELD, 0, 7⟩
def ISL_WDCFG : Nat := 0x2F000020
def ISL_WDCFG_TIMEOUT : Fld := ⟨ISL_WDCFG, 0, 3⟩
def ISL_WDKICK : Nat := 0x2F000024
def ISL_WDKICK_KEY : Fld := ⟨ISL_WDKICK, 0, 8⟩
def ISL_WDSTAT : Nat := 0x2F000028
def ISL_WDSTAT_COUNT : Fld := ⟨ISL_WDSTAT, 0, 16⟩
def ISL_TRIAL : Nat := 0x2F00002C
def ISL_TRIAL_LEFT : Fld := ⟨ISL_TRIAL, 0, 12⟩
def ISL_TRIAL_RUN : Fld := ⟨ISL_TRIAL, 12, 1⟩
def RTC_SECLO : Nat := 0x2F010000
def RTC_SECLO_SEC : Fld := ⟨RTC_SECLO, 0, 32⟩
def RTC_SECHI : Nat := 0x2F010004
def RTC_SECHI_SEC : Fld := ⟨RTC_SECHI, 0, 16⟩
def RTC_FRAC : Nat := 0x2F010008
def RTC_FRAC_FRAC : Fld := ⟨RTC_FRAC, 0, 15⟩
def RTC_STAT : Nat := 0x2F01000C
def RTC_STAT_VALID : Fld := ⟨RTC_STAT, 0, 1⟩
def RTC_STAT_XSTOP : Fld := ⟨RTC_STAT, 1, 1⟩
def RTC_CAL : Nat := 0x2F010010
def RTC_CAL_CAL : Fld := ⟨RTC_CAL, 0, 9⟩
def RTC_SETHI : Nat := 0x2F010014
def RTC_SETHI_SEC : Fld := ⟨RTC_SETHI, 0, 16⟩
def RTC_SETLO : Nat := 0x2F010018
def RTC_SETLO_SEC : Fld := ⟨RTC_SETLO, 0, 32⟩
def TMP_CFG (i : Nat) : Nat := 0x2F020000 + 4 * i
def TMP_CFG_EN (i : Nat) : Fld := ⟨TMP_CFG i, 0, 1⟩
def TMP_CFG_POL (i : Nat) : Fld := ⟨TMP_CFG i, 1, 1⟩
def TMP_CFG_ERASE (i : Nat) : Fld := ⟨TMP_CFG i, 2, 1⟩
def TMP_CFG_FILT (i : Nat) : Fld := ⟨TMP_CFG i, 8, 8⟩
def TMP_INT : Nat := 0x2F020020
def TMP_INT_EN : Fld := ⟨TMP_INT, 0, 3⟩
def TMP_STAT : Nat := 0x2F020024
def TMP_STAT_PIN : Fld := ⟨TMP_STAT, 0, 8⟩
def TMP_STAT_INT : Fld := ⟨TMP_STAT, 8, 3⟩
def TMP_ERCNT : Nat := 0x2F020028
def TMP_ERCNT_COUNT : Fld := ⟨TMP_ERCNT, 0, 16⟩
def TMP_ERTIME : Nat := 0x2F02002C
def TMP_ERTIME_SEC : Fld := ⟨TMP_ERTIME, 0, 32⟩
def BAT_STAT : Nat := 0x2F030000
def BAT_STAT_VBAT : Fld := ⟨BAT_STAT, 0, 12⟩
def BAT_STAT_SRC : Fld := ⟨BAT_STAT, 12, 1⟩
def BAT_STAT_LOW : Fld := ⟨BAT_STAT, 13, 1⟩
def BAT_STAT_ABSENT : Fld := ⟨BAT_STAT, 14, 1⟩
def BAT_TIME : Nat := 0x2F030004
def BAT_TIME_SEC : Fld := ⟨BAT_TIME, 0, 32⟩
def BAT_CNT : Nat := 0x2F030008
def BAT_CNT_PERIODS : Fld := ⟨BAT_CNT, 0, 16⟩
def DRY_CFG : Nat := 0x2F040000
def DRY_CFG_ICH : Fld := ⟨DRY_CFG, 0, 2⟩
def DRY_CFG_PDD : Fld := ⟨DRY_CFG, 4, 12⟩
def DRY_CFG_CHGTO : Fld := ⟨DRY_CFG, 16, 8⟩
def DRY_STAT : Nat := 0x2F040004
def DRY_STAT_PASS : Fld := ⟨DRY_STAT, 0, 1⟩
def DRY_STAT_DONE : Fld := ⟨DRY_STAT, 1, 1⟩
def DRY_STAT_PFAIL : Fld := ⟨DRY_STAT, 2, 1⟩
def DRY_STAT_SHORT : Fld := ⟨DRY_STAT, 3, 1⟩
def DRY_CAP : Nat := 0x2F040008
def DRY_CAP_C : Fld := ⟨DRY_CAP, 0, 16⟩
def DRY_CAP_ESR : Fld := ⟨DRY_CAP, 16, 16⟩
def DRY_ENERGY : Nat := 0x2F04000C
def DRY_ENERGY_EU : Fld := ⟨DRY_ENERGY, 0, 16⟩
def DRY_ENERGY_EREQ : Fld := ⟨DRY_ENERGY, 16, 16⟩
def DRY_LAST : Nat := 0x2F040010
def DRY_LAST_US : Fld := ⟨DRY_LAST, 0, 16⟩
def DRY_LAST_UNITS : Fld := ⟨DRY_LAST, 16, 5⟩
def SIL_CTL : Nat := 0x2F050000
def SIL_CTL_EN : Fld := ⟨SIL_CTL, 0, 1⟩
def SIL_CTL_THR : Fld := ⟨SIL_CTL, 4, 8⟩
def SIL_CTL_CONF : Fld := ⟨SIL_CTL, 12, 4⟩
def SIL_STAT : Nat := 0x2F050004
def SIL_STAT_ACTIVE : Fld := ⟨SIL_STAT, 0, 1⟩
def SIL_STAT_LFWV : Fld := ⟨SIL_STAT, 1, 1⟩
def SIL_STAT_SUSP : Fld := ⟨SIL_STAT, 2, 1⟩
def SIL_STAT_BLOCKS : Fld := ⟨SIL_STAT, 16, 16⟩
def SIL_AH (p : Nat) : Nat := 0x2F050010 + 4 * p
def SIL_AH_AH (p : Nat) : Fld := ⟨SIL_AH p, 0, 32⟩
def SIL_TOTAL : Nat := 0x2F05001C
def SIL_TOTAL_TOTAL : Fld := ⟨SIL_TOTAL, 0, 32⟩
def SIL_CLR : Nat := 0x2F050020
def SIL_CLR_CLR : Fld := ⟨SIL_CLR, 0, 1⟩

end Sys2Proof.Machine.R
end

