-- ==== Sys2Proof/Machine/RegTable.lean ====
section
/-!
DEFINITION. The register table of R528-R530 and of every chapter's register tables: one row per register name, with its
base address, the index counts and strides of R530, and its fields as the chapter lists them (bits, access code of R11,
reset value of R10, paths of R13, and the encodings that are not reserved, R12).  A field's `legal` list is empty when
every encoding is legal.  Rows whose reset value depends on the index carry it in `ovr`.
-/
namespace Sys2Proof.Machine

/-- Registers TSQ_TICK to TSQ_PROOFc (02_tick_and_ordering.md; R61). -/
def regsTSQ0 : List RegRow := [
  ⟨"TSQ_TICK", 0x20000000, [],
    [⟨"TICK", 0, 32, .ro, 0, 14, []⟩],
    []⟩,
  ⟨"TSQ_TICKHI", 0x20000004, [],
    [⟨"TICKHI", 0, 32, .ro, 0, 14, []⟩],
    []⟩,
  ⟨"TSQ_CTL", 0x20000008, [],
    [⟨"OVRLIM", 0, 8, .rwl, 8, 1, [(1, 0xFF)]⟩, ⟨"REALIGN", 8, 1, .rwl, 1, 1, []⟩],
    []⟩,
  ⟨"TSQ_STAT", 0x2000000C, [],
    [⟨"PLAN_OK", 0, 1, .ro, 0, 14, []⟩, ⟨"ALIGNING", 1, 1, .ro, 0, 14, []⟩, ⟨"STEPPED", 2, 1, .w1c, 0, 14, []⟩, ⟨"SLOTS", 8, 6, .ro, 0, 14, []⟩],
    []⟩,
  ⟨"TSQ_LEN", 0x20000010, [],
    [⟨"CYCLES", 0, 16, .ro, 0x7A12, 14, []⟩],
    []⟩,
  ⟨"TSQ_STEPOFS", 0x20000014, [],
    [⟨"OFS", 0, 32, .ro, 0, 14, []⟩],
    []⟩,
  ⟨"TSQ_SLOTAn", 0x20000100, [(48, 8)],
    [⟨"EXEC", 0, 8, .ro, 0, 14, []⟩, ⟨"TASK", 8, 8, .ro, 0, 14, []⟩, ⟨"PEXP", 16, 4, .ro, 0, 14, []⟩],
    []⟩,
  ⟨"TSQ_SLOTBn", 0x20000104, [(48, 8)],
    [⟨"PHASE", 0, 10, .ro, 0, 14, []⟩, ⟨"BUDGET", 16, 16, .ro, 0, 14, []⟩],
    []⟩,
  ⟨"TSQ_OVRn", 0x20000300, [(48, 4)],
    [⟨"CUTS", 0, 16, .w1cField, 0, 14, []⟩, ⟨"PEAK", 16, 16, .ro, 0, 14, []⟩],
    []⟩,
  ⟨"TSQ_PROOFc", 0x20000400, [(32, 4)],
    [⟨"WORST", 0, 16, .ro, 0, 14, []⟩, ⟨"RES", 16, 10, .ro, 0, 14, []⟩],
    []⟩]

/-- Registers BNK_CTLn to BNK_FAULT (01_architecture.md; R35). -/
def regsBNK0 : List RegRow := [
  ⟨"BNK_CTLn", 0x20010000, [(48, 4)],
    [⟨"OWNER", 0, 5, .rw, 0, 9, [(0, 0xE)]⟩, ⟨"PWR", 8, 2, .rw, 0, 9, [(0, 2)]⟩],
    [(0x20010000, 1), (0x20010004, 1), (0x20010008, 2), (0x2001000C, 2), (0x20010010, 3), (0x20010014, 3), (0x20010018, 4), (0x2001001C, 4), (0x20010020, 5), (0x20010024, 5), (0x20010028, 5), (0x2001002C, 5), (0x20010030, 5), (0x20010034, 5), (0x20010038, 5), (0x2001003C, 5), (0x20010040, 5), (0x20010044, 5), (0x20010048, 5), (0x2001004C, 5), (0x20010050, 5), (0x20010054, 5), (0x20010058, 5), (0x2001005C, 5), (0x20010060, 5), (0x20010064, 5), (0x20010068, 5), (0x2001006C, 5), (0x20010070, 5), (0x20010074, 5), (0x20010078, 5), (0x2001007C, 5), (0x20010080, 6), (0x20010084, 6), (0x20010088, 6), (0x2001008C, 6), (0x20010090, 6), (0x20010094, 6), (0x20010098, 6), (0x2001009C, 6), (0x200100A0, 8), (0x200100A4, 8), (0x200100A8, 8), (0x200100AC, 8), (0x200100B0, 9), (0x200100B4, 0xA), (0x200100B8, 0xA), (0x200100BC, 0xA)]⟩,
  ⟨"BNK_STATn", 0x20010100, [(48, 4)],
    [⟨"READY", 0, 1, .ro, 0, 14, []⟩, ⟨"CORR", 4, 8, .w1cField, 0, 14, []⟩, ⟨"UNCORR", 12, 4, .w1cField, 0, 14, []⟩, ⟨"WCOLL", 16, 8, .w1cField, 0, 12, []⟩, ⟨"PASSES", 24, 8, .ro, 0, 14, []⟩],
    []⟩,
  ⟨"BNK_SCRUB", 0x20010200, [],
    [⟨"LINES", 0, 4, .rwl, 1, 1, [(1, 0xF)]⟩],
    []⟩,
  ⟨"BNK_ERRADDR", 0x20010204, [],
    [⟨"LINE", 5, 20, .ro, 0, 14, []⟩, ⟨"VALID", 31, 1, .w1c, 0, 14, []⟩],
    []⟩,
  ⟨"BNK_FAULT", 0x20010208, [],
    [⟨"BANK", 0, 6, .ro, 0, 14, []⟩, ⟨"AGENT", 8, 5, .ro, 0, 14, []⟩, ⟨"COUNT", 16, 12, .ro, 0, 14, []⟩, ⟨"VALID", 31, 1, .w1c, 0, 14, []⟩],
    []⟩]

/-- Registers PROC_LOCKV to PROC_STATn (21_register_map.md; R535). -/
def regsPROC0 : List RegRow := [
  ⟨"PROC_LOCKV", 0x20020000, [],
    [⟨"COUNT", 0, 16, .ro, 0, 14, []⟩, ⟨"AGENT", 16, 3, .ro, 0, 14, []⟩, ⟨"VALID", 31, 1, .w1c, 0, 14, []⟩],
    []⟩,
  ⟨"PROC_LOCKA", 0x20020004, [],
    [⟨"ADDR", 0, 32, .ro, 0, 14, []⟩],
    []⟩,
  ⟨"PROC_PATHREF", 0x20020008, [],
    [⟨"COUNT", 0, 16, .ro, 0, 14, []⟩, ⟨"AGENT", 16, 3, .ro, 0, 14, []⟩, ⟨"VALID", 31, 1, .w1c, 0, 14, []⟩],
    []⟩,
  ⟨"PROC_PATHA", 0x2002000C, [],
    [⟨"ADDR", 0, 32, .ro, 0, 14, []⟩],
    []⟩,
  ⟨"PROC_UNMAP", 0x20020010, [],
    [⟨"COUNT", 0, 16, .ro, 0, 14, []⟩, ⟨"AGENT", 16, 3, .ro, 0, 14, []⟩, ⟨"VALID", 31, 1, .w1c, 0, 14, []⟩],
    []⟩,
  ⟨"PROC_UNMAPA", 0x20020014, [],
    [⟨"ADDR", 0, 32, .ro, 0, 14, []⟩],
    []⟩,
  ⟨"PROC_STATn", 0x20020040, [(4, 4)],
    [⟨"RUN", 0, 1, .ro, 0, 14, []⟩, ⟨"HELD", 1, 1, .ro, 1, 14, []⟩, ⟨"TRAPS", 8, 8, .w1cField, 0, 14, []⟩, ⟨"TASK", 16, 8, .ro, 0, 14, []⟩],
    []⟩]

/-- Registers PRT_CTL to PRT_STEPNS (20_test_and_perturbation.md; R526). -/
def regsPRT0 : List RegRow := [
  ⟨"PRT_CTL", 0x20800000, [],
    [⟨"OPEN", 0, 1, .ro, 0, 14, []⟩, ⟨"DIRHOLD", 1, 1, .rw, 0, 8, []⟩],
    []⟩,
  ⟨"PRT_WIN", 0x20800004, [],
    [⟨"LEFT", 0, 32, .ro, 0, 14, []⟩],
    []⟩,
  ⟨"PRT_MASK", 0x20800008, [],
    [⟨"MASK", 0, 10, .ro, 0, 14, []⟩],
    []⟩,
  ⟨"PRT_QDLYn", 0x20800010, [(8, 4)],
    [⟨"DLY0", 0, 8, .rw, 0, 8, []⟩, ⟨"DLY1", 8, 8, .rw, 0, 8, []⟩, ⟨"DLY2", 16, 8, .rw, 0, 8, []⟩, ⟨"DLY3", 24, 8, .rw, 0, 8, []⟩],
    []⟩,
  ⟨"PRT_BP0", 0x20800030, [],
    [⟨"QUEUES", 0, 32, .rw, 0, 8, []⟩],
    []⟩,
  ⟨"PRT_BP1", 0x20800034, [],
    [⟨"ETH", 0, 3, .rw, 0, 8, []⟩],
    []⟩,
  ⟨"PRT_SKEW", 0x20800038, [],
    [⟨"AMOUNT", 0, 16, .rw, 0, 8, []⟩, ⟨"STEP", 16, 4, .rw, 1, 8, [(1, 0xF)]⟩],
    []⟩,
  ⟨"PRT_PLCDROP", 0x2080003C, [],
    [⟨"PORT", 0, 2, .rw, 0, 8, []⟩, ⟨"DIR", 2, 1, .rw, 0, 8, []⟩, ⟨"FRAMES", 4, 4, .rw, 0, 8, []⟩, ⟨"MASK", 16, 16, .rw, 0, 8, []⟩],
    []⟩,
  ⟨"PRT_NAND", 0x20800040, [],
    [⟨"ARM", 0, 1, .wo, 0, 8, []⟩, ⟨"KIND", 1, 2, .rw, 0, 8, [(0, 2)]⟩, ⟨"ARMED", 8, 1, .ro, 0, 14, []⟩],
    []⟩,
  ⟨"PRT_TAG", 0x20800044, [],
    [⟨"ARM", 0, 1, .wo, 0, 8, []⟩, ⟨"TGT", 1, 1, .rw, 0, 8, []⟩, ⟨"PAGE", 8, 8, .rw, 0, 8, []⟩, ⟨"QNUM", 16, 5, .rw, 0, 8, []⟩, ⟨"ARMED", 24, 1, .ro, 0, 14, []⟩],
    []⟩,
  ⟨"PRT_STEPS", 0x20800048, [],
    [⟨"S", 0, 32, .wo, 0, 8, []⟩],
    []⟩,
  ⟨"PRT_STEPNS", 0x2080004C, [],
    [⟨"NS", 0, 31, .wo, 0, 8, [(0, 999999999), (0x44653601, 0x7FFFFFFF)]⟩],
    []⟩]

/-- Registers PRT_PJIT to PRT_LOOP (20_test_and_perturbation.md; R526). -/
def regsPRT1 : List RegRow := [
  ⟨"PRT_PJIT", 0x20800050, [],
    [⟨"J0", 0, 4, .rw, 0, 8, []⟩, ⟨"J1", 4, 4, .rw, 0, 8, []⟩, ⟨"J2", 8, 4, .rw, 0, 8, []⟩, ⟨"J3", 12, 4, .rw, 0, 8, []⟩],
    []⟩,
  ⟨"PRT_LOOP", 0x20800054, [],
    [⟨"PLCPAIR", 0, 2, .rw, 0, 8, []⟩, ⟨"ETH", 4, 3, .rw, 0, 8, []⟩, ⟨"SER", 8, 8, .rw, 0, 8, []⟩],
    []⟩]

/-- Registers QUE_CTLn to QUE_XSTAT (03_records_and_queues.md; R92). -/
def regsQUE0 : List RegRow := [
  ⟨"QUE_CTLn", 0x21000000, [(32, 0x20)],
    [⟨"EN", 0, 1, .rw, 0, 9, []⟩, ⟨"MODE", 1, 1, .rw, 1, 9, []⟩, ⟨"FENCE", 2, 1, .rw, 0, 11, []⟩, ⟨"XMAP", 8, 8, .rwl, 0, 1, []⟩],
    []⟩,
  ⟨"QUE_CFGn", 0x21000004, [(32, 0x20)],
    [⟨"SPBASE", 0, 8, .rwl, 0, 1, []⟩, ⟨"SPCNT", 8, 9, .rwl, 8, 1, [(0, 0x100)]⟩, ⟨"FRTO", 24, 8, .rwl, 8, 1, [(1, 0xFF)]⟩],
    [(0x21000004, 0x8000800), (0x21000024, 0x8000808), (0x21000044, 0x8000810), (0x21000064, 0x8000818), (0x21000084, 0x8000820), (0x210000A4, 0x8000828), (0x210000C4, 0x8000830), (0x210000E4, 0x8000838), (0x21000104, 0x8000840), (0x21000124, 0x8000848), (0x21000144, 0x8000850), (0x21000164, 0x8000858), (0x21000184, 0x8000860), (0x210001A4, 0x8000868), (0x210001C4, 0x8000870), (0x210001E4, 0x8000878), (0x21000204, 0x8000880), (0x21000224, 0x8000888), (0x21000244, 0x8000890), (0x21000264, 0x8000898), (0x21000284, 0x80008A0), (0x210002A4, 0x80008A8), (0x210002C4, 0x80008B0), (0x210002E4, 0x80008B8), (0x21000304, 0x80008C0), (0x21000324, 0x80008C8), (0x21000344, 0x80008D0), (0x21000364, 0x80008D8), (0x21000384, 0x80008E0), (0x210003A4, 0x80008E8), (0x210003C4, 0x80008F0), (0x210003E4, 0x80008F8)]⟩,
  ⟨"QUE_WMHn", 0x21000008, [(32, 0x20)],
    [⟨"HIGH", 0, 17, .rwl, 0x618, 1, []⟩],
    []⟩,
  ⟨"QUE_WMLn", 0x2100000C, [(32, 0x20)],
    [⟨"LOW", 0, 17, .rwl, 0x410, 1, []⟩],
    []⟩,
  ⟨"QUE_STATn", 0x21000010, [(32, 0x20)],
    [⟨"ABOVE", 0, 1, .ro, 0, 14, []⟩, ⟨"OPEN", 1, 1, .ro, 0, 14, []⟩, ⟨"FULL", 2, 1, .ro, 0, 14, []⟩, ⟨"FWAIT", 3, 1, .ro, 0, 14, []⟩, ⟨"MODE", 4, 1, .ro, 1, 14, []⟩],
    []⟩,
  ⟨"QUE_CNTn", 0x21000014, [(32, 0x20)],
    [⟨"REJECT", 0, 12, .w1cField, 0, 14, []⟩, ⟨"REWIND", 12, 12, .w1cField, 0, 14, []⟩, ⟨"PTRERR", 24, 8, .w1cField, 0, 14, []⟩],
    []⟩,
  ⟨"QUE_RINGn", 0x21000018, [(32, 0x20)],
    [⟨"RPTR", 0, 11, .rw, 0, 8, []⟩, ⟨"WPTR", 16, 11, .ro, 0, 12, []⟩],
    []⟩,
  ⟨"QUE_OCCn", 0x2100001C, [(32, 0x20)],
    [⟨"OCC", 0, 17, .ro, 0, 14, []⟩],
    []⟩,
  ⟨"QUE_XCTL", 0x21000400, [],
    [⟨"POL", 0, 8, .rwl, 0xFF, 1, []⟩, ⟨"FORCE", 8, 8, .rw, 0, 12, []⟩],
    []⟩,
  ⟨"QUE_XSTAT", 0x21000404, [],
    [⟨"XOFF", 0, 8, .ro, 0xFF, 14, []⟩, ⟨"HOLD", 8, 1, .ro, 1, 14, []⟩],
    []⟩]

/-- Registers VAL_CTL to VAL_WINCk (04_validation.md; R130). -/
def regsVAL0 : List RegRow := [
  ⟨"VAL_CTL", 0x21010000, [],
    [⟨"LANEEN", 0, 4, .rw, 0, 9, []⟩, ⟨"FRESH", 4, 1, .rw, 0, 10, []⟩, ⟨"QTHR", 8, 8, .rwl, 0, 1, []⟩],
    []⟩,
  ⟨"VAL_STAT", 0x21010004, [],
    [⟨"LANEFLT", 0, 4, .w1c, 0, 14, []⟩, ⟨"HUSED", 8, 9, .ro, 0, 14, []⟩, ⟨"HFULL", 17, 1, .ro, 0, 14, []⟩],
    []⟩,
  ⟨"VAL_QMAP0", 0x21010008, [],
    [⟨"LANE0", 0, 2, .rwl, 0, 1, []⟩, ⟨"LANE1", 2, 2, .rwl, 1, 1, []⟩, ⟨"LANE2", 4, 2, .rwl, 2, 1, []⟩, ⟨"LANE3", 6, 2, .rwl, 3, 1, []⟩, ⟨"LANE4", 8, 2, .rwl, 0, 1, []⟩, ⟨"LANE5", 10, 2, .rwl, 1, 1, []⟩, ⟨"LANE6", 12, 2, .rwl, 2, 1, []⟩, ⟨"LANE7", 14, 2, .rwl, 3, 1, []⟩, ⟨"LANE8", 16, 2, .rwl, 0, 1, []⟩, ⟨"LANE9", 18, 2, .rwl, 1, 1, []⟩, ⟨"LANE10", 20, 2, .rwl, 2, 1, []⟩, ⟨"LANE11", 22, 2, .rwl, 3, 1, []⟩, ⟨"LANE12", 24, 2, .rwl, 0, 1, []⟩, ⟨"LANE13", 26, 2, .rwl, 1, 1, []⟩, ⟨"LANE14", 28, 2, .rwl, 2, 1, []⟩, ⟨"LANE15", 30, 2, .rwl, 3, 1, []⟩],
    []⟩,
  ⟨"VAL_QMAP1", 0x2101000C, [],
    [⟨"LANE0", 0, 2, .rwl, 0, 1, []⟩, ⟨"LANE1", 2, 2, .rwl, 1, 1, []⟩, ⟨"LANE2", 4, 2, .rwl, 2, 1, []⟩, ⟨"LANE3", 6, 2, .rwl, 3, 1, []⟩, ⟨"LANE4", 8, 2, .rwl, 0, 1, []⟩, ⟨"LANE5", 10, 2, .rwl, 1, 1, []⟩, ⟨"LANE6", 12, 2, .rwl, 2, 1, []⟩, ⟨"LANE7", 14, 2, .rwl, 3, 1, []⟩, ⟨"LANE8", 16, 2, .rwl, 0, 1, []⟩, ⟨"LANE9", 18, 2, .rwl, 1, 1, []⟩, ⟨"LANE10", 20, 2, .rwl, 2, 1, []⟩, ⟨"LANE11", 22, 2, .rwl, 3, 1, []⟩, ⟨"LANE12", 24, 2, .rwl, 0, 1, []⟩, ⟨"LANE13", 26, 2, .rwl, 1, 1, []⟩, ⟨"LANE14", 28, 2, .rwl, 2, 1, []⟩, ⟨"LANE15", 30, 2, .rwl, 3, 1, []⟩],
    []⟩,
  ⟨"VAL_QDISP0", 0x21010010, [],
    [⟨"DISP0", 0, 2, .rwl, 0, 1, [(0, 2)]⟩, ⟨"DISP1", 2, 2, .rwl, 0, 1, [(0, 2)]⟩, ⟨"DISP2", 4, 2, .rwl, 0, 1, [(0, 2)]⟩, ⟨"DISP3", 6, 2, .rwl, 0, 1, [(0, 2)]⟩, ⟨"DISP4", 8, 2, .rwl, 0, 1, [(0, 2)]⟩, ⟨"DISP5", 10, 2, .rwl, 0, 1, [(0, 2)]⟩, ⟨"DISP6", 12, 2, .rwl, 0, 1, [(0, 2)]⟩, ⟨"DISP7", 14, 2, .rwl, 0, 1, [(0, 2)]⟩, ⟨"DISP8", 16, 2, .rwl, 0, 1, [(0, 2)]⟩, ⟨"DISP9", 18, 2, .rwl, 0, 1, [(0, 2)]⟩, ⟨"DISP10", 20, 2, .rwl, 0, 1, [(0, 2)]⟩, ⟨"DISP11", 22, 2, .rwl, 0, 1, [(0, 2)]⟩, ⟨"DISP12", 24, 2, .rwl, 0, 1, [(0, 2)]⟩, ⟨"DISP13", 26, 2, .rwl, 0, 1, [(0, 2)]⟩, ⟨"DISP14", 28, 2, .rwl, 0, 1, [(0, 2)]⟩, ⟨"DISP15", 30, 2, .rwl, 0, 1, [(0, 2)]⟩],
    []⟩,
  ⟨"VAL_QDISP1", 0x21010014, [],
    [⟨"DISP0", 0, 2, .rwl, 0, 1, [(0, 2)]⟩, ⟨"DISP1", 2, 2, .rwl, 0, 1, [(0, 2)]⟩, ⟨"DISP2", 4, 2, .rwl, 0, 1, [(0, 2)]⟩, ⟨"DISP3", 6, 2, .rwl, 0, 1, [(0, 2)]⟩, ⟨"DISP4", 8, 2, .rwl, 0, 1, [(0, 2)]⟩, ⟨"DISP5", 10, 2, .rwl, 0, 1, [(0, 2)]⟩, ⟨"DISP6", 12, 2, .rwl, 0, 1, [(0, 2)]⟩, ⟨"DISP7", 14, 2, .rwl, 0, 1, [(0, 2)]⟩, ⟨"DISP8", 16, 2, .rwl, 0, 1, [(0, 2)]⟩, ⟨"DISP9", 18, 2, .rwl, 0, 1, [(0, 2)]⟩, ⟨"DISP10", 20, 2, .rwl, 0, 1, [(0, 2)]⟩, ⟨"DISP11", 22, 2, .rwl, 0, 1, [(0, 2)]⟩, ⟨"DISP12", 24, 2, .rwl, 0, 1, [(0, 2)]⟩, ⟨"DISP13", 26, 2, .rwl, 0, 1, [(0, 2)]⟩, ⟨"DISP14", 28, 2, .rwl, 0, 1, [(0, 2)]⟩, ⟨"DISP15", 30, 2, .rwl, 0, 1, [(0, 2)]⟩],
    []⟩,
  ⟨"VAL_CNTv", 0x21010020, [(8, 4)],
    [⟨"COUNT", 0, 32, .ro, 0, 14, []⟩],
    []⟩,
  ⟨"VAL_LATl", 0x21010040, [(4, 4)],
    [⟨"MAX", 0, 9, .ro, 0, 14, []⟩, ⟨"CLR", 31, 1, .wo, 0, 12, []⟩],
    []⟩,
  ⟨"VAL_ADMl", 0x21010050, [(4, 4)],
    [⟨"LAST", 0, 8, .ro, 0, 14, []⟩, ⟨"SKIP", 8, 16, .w1cField, 0, 14, []⟩, ⟨"IDLE", 24, 8, .ro, 0, 14, []⟩],
    []⟩,
  ⟨"VAL_WINAk", 0x21010100, [(16, 0x10)],
    [⟨"DOMAIN", 0, 12, .rwl, 0, 1, []⟩, ⟨"EPOCH", 16, 16, .rwl, 0, 1, []⟩],
    []⟩,
  ⟨"VAL_WINBk", 0x21010104, [(16, 0x10)],
    [⟨"FIRST", 0, 20, .rwl, 0, 1, []⟩],
    []⟩,
  ⟨"VAL_WINCk", 0x21010108, [(16, 0x10)],
    [⟨"COUNT", 0, 21, .rwl, 0, 1, [(0, 0x100000)]⟩],
    []⟩]

/-- Registers VAL_WINDk to VAL_WINDk (04_validation.md; R130). -/
def regsVAL1 : List RegRow := [
  ⟨"VAL_WINDk", 0x2101010C, [(16, 0x10)],
    [⟨"BASE", 0, 20, .rwl, 0, 1, []⟩],
    []⟩]

/-- Registers DIR_CMD to DIR_DATw (04_validation.md; R131). -/
def regsDIR0 : List RegRow := [
  ⟨"DIR_CMD", 0x21020000, [],
    [⟨"OP", 0, 8, .wo, 0, 8, [(1, 0xF)]⟩, ⟨"BUSY", 31, 1, .ro, 0, 12, []⟩],
    []⟩,
  ⟨"DIR_ARGn", 0x21020004, [(4, 4)],
    [⟨"ARG", 0, 32, .rw, 0, 8, []⟩],
    []⟩,
  ⟨"DIR_RES", 0x21020014, [],
    [⟨"RESULT", 0, 8, .ro, 0, 14, []⟩, ⟨"INDEX", 8, 16, .ro, 0, 14, []⟩, ⟨"SEQ", 24, 8, .ro, 0, 14, []⟩],
    []⟩,
  ⟨"DIR_USED", 0x21020018, [],
    [⟨"COUNT", 0, 17, .ro, 0, 14, []⟩],
    []⟩,
  ⟨"DIR_DATw", 0x21020040, [(32, 4)],
    [⟨"DATA", 0, 32, .rw, 0, 8, []⟩],
    []⟩]

/-- Registers RPL_STAT to RPL_FINAL (04_validation.md; R132). -/
def regsRPL0 : List RegRow := [
  ⟨"RPL_STAT", 0x21030000, [],
    [⟨"ZEROING", 0, 1, .ro, 0, 14, []⟩, ⟨"WIN", 4, 4, .ro, 0, 14, []⟩, ⟨"LEFT", 8, 18, .ro, 0, 14, []⟩],
    []⟩,
  ⟨"RPL_ERR", 0x21030004, [],
    [⟨"SLOT", 0, 20, .ro, 0, 14, []⟩, ⟨"VALID", 31, 1, .w1c, 0, 14, []⟩],
    []⟩,
  ⟨"RPL_FINAL", 0x21030008, [],
    [⟨"COUNT", 0, 32, .ro, 0, 14, []⟩],
    []⟩]

/-- Registers BAL_CTL to BAL_EXPg (05_balance.md; R155). -/
def regsBAL0 : List RegRow := [
  ⟨"BAL_CTL", 0x21040000, [],
    [⟨"GEN", 0, 4, .rwl, 0, 1, []⟩, ⟨"INTLEN", 8, 6, .rwl, 0xF, 1, [(1, 0x3C)]⟩, ⟨"SETTLE", 16, 3, .rwl, 4, 1, [(0, 6)]⟩],
    []⟩,
  ⟨"BAL_ORGLO", 0x21040004, [],
    [⟨"ORGLO", 0, 32, .rwl, 0, 1, []⟩],
    []⟩,
  ⟨"BAL_ORGHI", 0x21040008, [],
    [⟨"ORGHI", 0, 16, .rwl, 0, 1, []⟩],
    []⟩,
  ⟨"BAL_CUR", 0x2104000C, [],
    [⟨"CUR", 0, 32, .ro, 0, 14, []⟩],
    []⟩,
  ⟨"BAL_STAT", 0x21040010, [],
    [⟨"RUN", 0, 1, .ro, 0, 14, []⟩, ⟨"STEPPED", 1, 1, .w1c, 0, 14, []⟩, ⟨"DROP", 16, 16, .w1cField, 0, 14, []⟩],
    []⟩,
  ⟨"BAL_RPTSTAT", 0x21040014, [],
    [⟨"COUNT", 0, 5, .ro, 0, 14, []⟩, ⟨"LOST", 16, 8, .w1cField, 0, 14, []⟩],
    []⟩,
  ⟨"BAL_RPTPOP", 0x21040018, [],
    [⟨"POP", 0, 1, .wo, 0, 12, []⟩],
    []⟩,
  ⟨"BAL_OUTo", 0x21040020, [(2, 4)],
    [⟨"EN", 0, 1, .rwl, 0, 1, []⟩, ⟨"GROUP", 4, 2, .rwl, 0, 1, []⟩],
    []⟩,
  ⟨"BAL_GCTLg", 0x21040100, [(4, 0x40)],
    [⟨"COVMIN", 0, 10, .rw, 0x384, 3, [(0, 0x3E8)]⟩, ⟨"RELIMP", 16, 10, .rw, 0x32, 3, [(0, 0x3E8)]⟩],
    []⟩,
  ⟨"BAL_ABSIg", 0x21040104, [(4, 0x40)],
    [⟨"ABSI", 0, 32, .rw, 0x4E20, 3, []⟩],
    []⟩,
  ⟨"BAL_ABSEg", 0x21040108, [(4, 0x40)],
    [⟨"ABSE", 0, 32, .rw, 0x2710, 3, []⟩],
    []⟩,
  ⟨"BAL_EXPg", 0x2104010C, [(4, 0x40)],
    [⟨"EXPMIN", 0, 16, .rw, 0xA, 3, []⟩, ⟨"RELEXP", 16, 10, .rw, 0x32, 3, [(0, 0x3E8)]⟩],
    []⟩]

/-- Registers BAL_KCUgp to BAL_RPTw (05_balance.md; R155). -/
def regsBAL1 : List RegRow := [
  ⟨"BAL_KCUgp", 0x21040110, [(4, 0x40), (3, 4)],
    [⟨"KCU", 0, 32, .rwl, 0, 1, []⟩],
    []⟩,
  ⟨"BAL_KFIXgp", 0x2104011C, [(4, 0x40), (3, 4)],
    [⟨"KFIX", 0, 32, .rwl, 0, 1, []⟩],
    []⟩,
  ⟨"BAL_CNTg", 0x21040128, [(4, 0x40)],
    [⟨"LATE", 0, 16, .w1cField, 0, 14, []⟩, ⟨"EARLY", 16, 16, .w1cField, 0, 14, []⟩],
    []⟩,
  ⟨"BAL_ASGgc", 0x21040130, [(4, 0x40), (4, 4)],
    [⟨"COUNT", 0, 17, .ro, 0, 14, []⟩],
    []⟩,
  ⟨"BAL_RPTw", 0x21040400, [(52, 4)],
    [⟨"DATA", 0, 32, .ro, 0, 14, []⟩],
    []⟩]

/-- Registers MTR_CTL to MTR_GAINc (06_metering.md; R188). -/
def regsMTR0 : List RegRow := [
  ⟨"MTR_CTL", 0x22000000, [],
    [⟨"GEN", 0, 4, .rwl, 0, 1, []⟩, ⟨"VEN", 4, 8, .rwl, 0, 1, []⟩],
    []⟩,
  ⟨"MTR_STAT", 0x22000004, [],
    [⟨"VALID", 0, 1, .ro, 0, 14, []⟩, ⟨"EXCFLT", 1, 4, .ro, 0, 14, []⟩, ⟨"TFALL", 5, 1, .ro, 0, 14, []⟩],
    []⟩,
  ⟨"MTR_CLIP", 0x22000008, [],
    [⟨"CLIP", 0, 24, .w1c, 0, 14, []⟩],
    []⟩,
  ⟨"MTR_TEMP", 0x2200000C, [],
    [⟨"TEMP", 0, 16, .ro, 0, 14, []⟩, ⟨"SRC", 16, 1, .ro, 0, 14, []⟩],
    []⟩,
  ⟨"MTR_CALID", 0x22000010, [],
    [⟨"CALID", 0, 32, .ro, 0, 14, []⟩],
    []⟩,
  ⟨"MTR_EVSTAT", 0x22000014, [],
    [⟨"SEQERR", 0, 4, .ro, 0, 14, []⟩, ⟨"NEUTMISS", 4, 4, .ro, 0, 14, []⟩],
    []⟩,
  ⟨"MTR_EVCFG", 0x22000018, [],
    [⟨"SEQN", 0, 8, .rwl, 0x32, 1, [(1, 0xFF)]⟩, ⟨"NEUTN", 8, 8, .rwl, 3, 1, [(1, 0xFF)]⟩],
    []⟩,
  ⟨"MTR_NTHR", 0x2200001C, [],
    [⟨"VNEMIN", 0, 12, .rwl, 0xC8, 1, []⟩, ⟨"ASYMMIN", 16, 12, .rwl, 0x64, 1, [(1, 0x3E8)]⟩],
    []⟩,
  ⟨"MTR_NTHR2", 0x22000020, [],
    [⟨"ISUMMIN", 0, 16, .rwl, 0x32, 1, []⟩, ⟨"INRATIO", 16, 8, .rwl, 0x19, 1, [(1, 0x64)]⟩],
    []⟩,
  ⟨"MTR_GCFGg", 0x22000040, [(4, 0x10)],
    [⟨"VREF1", 0, 3, .rwl, 0, 1, []⟩, ⟨"VREF2", 4, 3, .rwl, 1, 1, []⟩, ⟨"VREF3", 8, 3, .rwl, 2, 1, []⟩, ⟨"NEN", 12, 1, .rwl, 1, 1, []⟩, ⟨"INV", 13, 3, .rwl, 0, 1, []⟩, ⟨"TSRC", 16, 1, .rw, 0, 9, []⟩, ⟨"EXCLVL", 17, 1, .rwl, 0, 1, []⟩],
    []⟩,
  ⟨"MTR_OFSc", 0x22000100, [(24, 0x10)],
    [⟨"OFS", 0, 24, .rw, 0, 9, []⟩],
    []⟩,
  ⟨"MTR_GAINc", 0x22000104, [(24, 0x10)],
    [⟨"GAIN", 0, 32, .rw, 0x40000000, 9, []⟩],
    []⟩]

/-- Registers MTR_PHCc to MTR_Pgp (06_metering.md; R188). -/
def regsMTR1 : List RegRow := [
  ⟨"MTR_PHCc", 0x22000108, [(24, 0x10)],
    [⟨"PHC", 0, 10, .rw, 0, 9, [(0, 0xFF), (0x300, 0x3FF)]⟩],
    []⟩,
  ⟨"MTR_XTgrs", 0x22000300, [(4, 0x40), (4, 0x10), (4, 4)],
    [⟨"XT", 0, 32, .rw, 0, 9, []⟩],
    [(0x22000300, 0x10000000), (0x22000314, 0x10000000), (0x22000328, 0x10000000), (0x2200033C, 0x10000000), (0x22000340, 0x10000000), (0x22000354, 0x10000000), (0x22000368, 0x10000000), (0x2200037C, 0x10000000), (0x22000380, 0x10000000), (0x22000394, 0x10000000), (0x220003A8, 0x10000000), (0x220003BC, 0x10000000), (0x220003C0, 0x10000000), (0x220003D4, 0x10000000), (0x220003E8, 0x10000000), (0x220003FC, 0x10000000)]⟩,
  ⟨"MTR_TPAg", 0x22000400, [(4, 8)],
    [⟨"T0", 0, 16, .rw, 0xFA, 9, []⟩, ⟨"A1", 16, 16, .rw, 0, 9, []⟩],
    []⟩,
  ⟨"MTR_TPBg", 0x22000404, [(4, 8)],
    [⟨"A2", 0, 16, .rw, 0, 9, []⟩],
    []⟩,
  ⟨"MTR_IRMSgr", 0x22000500, [(4, 0x10), (4, 4)],
    [⟨"IRMS", 0, 24, .ro, 0, 14, []⟩],
    []⟩,
  ⟨"MTR_VRMSv", 0x22000580, [(8, 4)],
    [⟨"VRMS", 0, 20, .ro, 0, 14, []⟩],
    []⟩,
  ⟨"MTR_Pgp", 0x220005C0, [(4, 0x10), (3, 4)],
    [⟨"P", 0, 32, .ro, 0, 14, []⟩],
    []⟩]

/-- Registers NRG_CTL to NRG_AEgpHI (06_metering.md; R189). -/
def regsNRG0 : List RegRow := [
  ⟨"NRG_CTL", 0x22010000, [],
    [⟨"SAVEP", 0, 12, .rwl, 0x3C, 1, [(1, 0xE10)]⟩, ⟨"ADD", 16, 1, .wo, 0, 8, []⟩],
    []⟩,
  ⟨"NRG_STAT", 0x22010004, [],
    [⟨"BASED", 0, 1, .ro, 0, 14, []⟩, ⟨"GAP", 1, 1, .w1c, 0, 14, []⟩, ⟨"PARTLOST", 2, 1, .w1c, 0, 14, []⟩],
    []⟩,
  ⟨"NRG_UNMET", 0x22010008, [],
    [⟨"MS", 0, 32, .ro, 0, 14, []⟩],
    []⟩,
  ⟨"NRG_LASTINT", 0x2201000C, [],
    [⟨"INT", 0, 32, .ro, 0, 14, []⟩],
    []⟩,
  ⟨"NRG_CIgpLO", 0x22010100, [(4, 0x40), (3, 0x10)],
    [⟨"LO", 0, 32, .ro, 0, 14, []⟩],
    []⟩,
  ⟨"NRG_CIgpHI", 0x22010104, [(4, 0x40), (3, 0x10)],
    [⟨"HI", 0, 32, .ro, 0, 14, []⟩],
    []⟩,
  ⟨"NRG_CEgpLO", 0x22010108, [(4, 0x40), (3, 0x10)],
    [⟨"LO", 0, 32, .ro, 0, 14, []⟩],
    []⟩,
  ⟨"NRG_CEgpHI", 0x2201010C, [(4, 0x40), (3, 0x10)],
    [⟨"HI", 0, 32, .ro, 0, 14, []⟩],
    []⟩,
  ⟨"NRG_AIgpLO", 0x22010200, [(4, 0x40), (3, 0x10)],
    [⟨"ADDV", 0, 32, .rw, 0, 8, []⟩],
    []⟩,
  ⟨"NRG_AIgpHI", 0x22010204, [(4, 0x40), (3, 0x10)],
    [⟨"ADDV", 0, 32, .rw, 0, 8, []⟩],
    []⟩,
  ⟨"NRG_AEgpLO", 0x22010208, [(4, 0x40), (3, 0x10)],
    [⟨"ADDV", 0, 32, .rw, 0, 8, []⟩],
    []⟩,
  ⟨"NRG_AEgpHI", 0x2201020C, [(4, 0x40), (3, 0x10)],
    [⟨"ADDV", 0, 32, .rw, 0, 8, []⟩],
    []⟩]

/-- Registers NRG_FIgp to NRG_PSTATk (06_metering.md; R189). -/
def regsNRG1 : List RegRow := [
  ⟨"NRG_FIgp", 0x22010300, [(4, 0x40), (3, 0x10)],
    [⟨"F", 0, 32, .ro, 0, 14, []⟩],
    []⟩,
  ⟨"NRG_FEgp", 0x22010304, [(4, 0x40), (3, 0x10)],
    [⟨"F", 0, 32, .ro, 0, 14, []⟩],
    []⟩,
  ⟨"NRG_I2Tgp", 0x22010308, [(4, 0x40), (3, 0x10)],
    [⟨"I2T", 0, 32, .ro, 0, 14, []⟩],
    []⟩,
  ⟨"NRG_PCFGk", 0x22010400, [(4, 0x10)],
    [⟨"EN", 0, 1, .rwl, 0, 1, []⟩, ⟨"GROUP", 1, 2, .rwl, 0, 1, []⟩, ⟨"PHASE", 3, 2, .rwl, 0, 1, []⟩, ⟨"DIR", 5, 1, .rwl, 0, 1, []⟩, ⟨"POL", 6, 1, .rwl, 1, 1, []⟩, ⟨"WIDTH", 8, 8, .rwl, 0x10, 1, [(1, 0xFF)]⟩],
    []⟩,
  ⟨"NRG_PKk", 0x22010404, [(4, 0x10)],
    [⟨"K", 0, 32, .rwl, 0x64, 1, [(1, 0xFFFFFFFF)]⟩],
    []⟩,
  ⟨"NRG_PSTATk", 0x22010408, [(4, 0x10)],
    [⟨"BACKLOG", 0, 8, .ro, 0, 14, []⟩, ⟨"OVER", 8, 16, .w1cField, 0, 14, []⟩],
    []⟩]

/-- Registers ZCX_CFG to ZCX_CNTv (07_plc_phy.md; R224). -/
def regsZCX0 : List RegRow := [
  ⟨"ZCX_CFG", 0x22020000, [],
    [⟨"HYST", 0, 16, .rwl, 0x2710, 1, [(1, 0xFFFF)]⟩, ⟨"ACQN", 16, 4, .rwl, 4, 1, [(2, 0xF)]⟩],
    []⟩,
  ⟨"ZCX_STATv", 0x22020010, [(7, 0x10)],
    [⟨"LOCK", 0, 1, .ro, 0, 14, []⟩, ⟨"FLY", 1, 5, .ro, 0, 14, []⟩, ⟨"POL", 6, 1, .ro, 0, 14, []⟩, ⟨"FCLASS", 8, 2, .ro, 0, 14, []⟩],
    []⟩,
  ⟨"ZCX_HPv", 0x22020014, [(7, 0x10)],
    [⟨"HP", 0, 24, .ro, 0, 14, []⟩],
    []⟩,
  ⟨"ZCX_LASTv", 0x22020018, [(7, 0x10)],
    [⟨"TIME", 0, 32, .ro, 0, 14, []⟩],
    []⟩,
  ⟨"ZCX_CNTv", 0x2202001C, [(7, 0x10)],
    [⟨"REJECT", 0, 16, .w1cField, 0, 14, []⟩, ⟨"LOSS", 16, 8, .w1cField, 0, 14, []⟩, ⟨"ACQ", 24, 8, .w1cField, 0, 14, []⟩],
    []⟩]

/-- Registers CHG_CTLo to CHG_SE0o (14_charging.md; R410). -/
def regsCHG0 : List RegRow := [
  ⟨"CHG_CTLo", 0x22030000, [(2, 0x40)],
    [⟨"EN", 0, 1, .rwl, 0, 1, []⟩, ⟨"TETHER", 1, 1, .rwl, 0, 1, []⟩, ⟨"VENT", 2, 1, .rwl, 0, 1, []⟩, ⟨"LOCKEN", 3, 1, .rwl, 0, 1, []⟩, ⟨"SHUNT", 4, 1, .rwl, 0, 1, []⟩, ⟨"PHASES", 5, 3, .rwl, 7, 1, []⟩, ⟨"MGRP", 8, 2, .rwl, 0, 1, []⟩, ⟨"RDR", 12, 3, .rwl, 4, 1, [(0, 4)]⟩, ⟨"CABLE", 16, 3, .rwl, 0, 1, []⟩],
    []⟩,
  ⟨"CHG_LIMo", 0x22030004, [(2, 0x40)],
    [⟨"IMAX", 0, 10, .rw, 0x140, 3, [(0x3C, 0x276)]⟩, ⟨"AUTHTO", 16, 8, .rw, 0x3C, 3, [(1, 0xFF)]⟩],
    []⟩,
  ⟨"CHG_STATo", 0x22030008, [(2, 0x40)],
    [⟨"STATE", 0, 4, .ro, 0, 14, []⟩, ⟨"CP", 4, 3, .ro, 7, 14, []⟩, ⟨"PP", 8, 3, .ro, 0, 14, []⟩, ⟨"K", 12, 1, .ro, 0, 14, []⟩, ⟨"MIR", 13, 1, .ro, 0, 14, []⟩, ⟨"VP", 14, 1, .ro, 0, 14, []⟩, ⟨"LOCKED", 15, 1, .ro, 0, 14, []⟩, ⟨"SAFE", 16, 1, .ro, 0, 14, []⟩, ⟨"WELD", 17, 1, .ro, 0, 14, []⟩, ⟨"PEND", 18, 1, .ro, 0, 14, []⟩, ⟨"ARES", 24, 4, .ro, 0, 14, []⟩],
    []⟩,
  ⟨"CHG_OFFERo", 0x2203000C, [(2, 0x40)],
    [⟨"OFFER", 0, 10, .ro, 0, 14, []⟩, ⟨"DUTY", 16, 10, .ro, 0, 14, []⟩],
    []⟩,
  ⟨"CHG_RCo", 0x22030010, [(2, 0x40)],
    [⟨"DC", 0, 16, .ro, 0, 14, []⟩, ⟨"AC", 16, 16, .ro, 0, 14, []⟩],
    []⟩,
  ⟨"CHG_TRIPo", 0x22030014, [(2, 0x40)],
    [⟨"LEVEL", 0, 3, .ro, 0, 14, []⟩, ⟨"HOUR", 8, 4, .ro, 0, 14, []⟩, ⟨"TOTAL", 16, 16, .ro, 0, 14, []⟩],
    []⟩,
  ⟨"CHG_AUTHo", 0x22030018, [(2, 0x40)],
    [⟨"ACCT", 0, 12, .wo, 0, 6, []⟩, ⟨"OP", 12, 4, .wo, 0, 6, [(1, 5)]⟩],
    []⟩,
  ⟨"CHG_SLIMo", 0x2203001C, [(2, 0x40)],
    [⟨"LIM", 0, 32, .rw, 0xFFFFFFFF, 8, []⟩],
    []⟩,
  ⟨"CHG_SIDo", 0x22030020, [(2, 0x40)],
    [⟨"SID", 0, 32, .ro, 0, 14, []⟩],
    []⟩,
  ⟨"CHG_SACCo", 0x22030024, [(2, 0x40)],
    [⟨"ACCT", 0, 12, .ro, 0, 14, []⟩, ⟨"TARIFF", 16, 4, .ro, 0, 14, []⟩, ⟨"REASON", 24, 8, .ro, 0, 14, []⟩],
    []⟩,
  ⟨"CHG_SSTARTo", 0x22030028, [(2, 0x40)],
    [⟨"RTC", 0, 32, .ro, 0, 14, []⟩],
    []⟩,
  ⟨"CHG_SE0o", 0x2203002C, [(2, 0x40)],
    [⟨"E0", 0, 32, .ro, 0, 14, []⟩],
    []⟩]

/-- Registers CHG_SENGo to CHG_ARES (14_charging.md; R410, R411). -/
def regsCHG1 : List RegRow := [
  ⟨"CHG_SENGo", 0x22030030, [(2, 0x40)],
    [⟨"E", 0, 32, .ro, 0, 14, []⟩],
    []⟩,
  ⟨"CHG_SMAXo", 0x22030034, [(2, 0x40)],
    [⟨"OFFMAX", 0, 10, .ro, 0, 14, []⟩, ⟨"DCMAX", 16, 16, .ro, 0, 14, []⟩],
    []⟩,
  ⟨"CHG_LM", 0x22030100, [],
    [⟨"IRATED", 0, 16, .rwl, 0, 1, []⟩, ⟨"RESERVE", 16, 16, .rw, 0xC8, 3, []⟩],
    []⟩,
  ⟨"CHG_LM2", 0x22030104, [],
    [⟨"STEP", 0, 8, .rw, 0xA, 3, []⟩, ⟨"TRIPMAX", 8, 4, .rwl, 3, 1, [(1, 0xF)]⟩],
    []⟩,
  ⟨"CHG_HEADp", 0x22030108, [(3, 4)],
    [⟨"A", 0, 16, .ro, 0, 14, []⟩],
    []⟩,
  ⟨"CHG_MTR", 0x22030114, [],
    [⟨"METER", 0, 32, .rwl, 0, 1, []⟩],
    []⟩,
  ⟨"CHG_CTR", 0x22030118, [],
    [⟨"CTR", 0, 32, .ro, 0, 14, []⟩],
    []⟩,
  ⟨"CHG_CFG", 0x2203011C, [],
    [⟨"QUEUE", 0, 5, .rwl, 0, 1, []⟩],
    []⟩,
  ⟨"CHG_SEQ", 0x22030120, [],
    [⟨"SEQ", 0, 32, .ro, 0, 14, []⟩],
    []⟩,
  ⟨"CHG_ACMD", 0x22030140, [],
    [⟨"OP", 0, 8, .wo, 0, 6, [(1, 6)]⟩, ⟨"BUSY", 31, 1, .ro, 0, 14, []⟩],
    []⟩,
  ⟨"CHG_AARGn", 0x22030144, [(4, 4)],
    [⟨"ARG", 0, 32, .rw, 0, 6, []⟩],
    []⟩,
  ⟨"CHG_ARES", 0x22030154, [],
    [⟨"RESULT", 0, 8, .ro, 0, 14, []⟩, ⟨"SEQ", 8, 8, .ro, 0, 14, []⟩],
    []⟩]

/-- Registers CHG_ADATw to CHG_CNT (14_charging.md; R411). -/
def regsCHG2 : List RegRow := [
  ⟨"CHG_ADATw", 0x22030160, [(4, 4)],
    [⟨"DATA", 0, 32, .ro, 0, 14, []⟩],
    []⟩,
  ⟨"CHG_CNT", 0x22030170, [],
    [⟨"SESS", 0, 16, .ro, 0, 14, []⟩, ⟨"REFUSED", 16, 16, .w1cField, 0, 14, []⟩],
    []⟩]

/-- Registers PLC_CTLp to PLC_CNT1p (07_plc_phy.md; R225). -/
def regsPLC0 : List RegRow := [
  ⟨"PLC_CTLp", 0x23000000, [(4, 0x40)],
    [⟨"EN", 0, 1, .rwl, 0, 1, []⟩, ⟨"ZSRC", 1, 3, .rwl, 0, 1, [(0, 6)]⟩, ⟨"OFFS", 4, 9, .rwl, 0xC8, 1, [(0x64, 0x12C)]⟩, ⟨"TXATT", 16, 4, .rw, 0, 3, []⟩],
    []⟩,
  ⟨"PLC_CFGp", 0x23000004, [(4, 0x40)],
    [⟨"IMPTHR", 0, 5, .rwl, 0xA, 1, [(6, 0x14)]⟩, ⟨"ERAMAX", 8, 7, .rwl, 0x28, 1, [(0, 0x64)]⟩],
    []⟩,
  ⟨"PLC_STATp", 0x23000008, [(4, 0x40)],
    [⟨"READY", 0, 1, .ro, 0, 14, []⟩, ⟨"TXBUSY", 1, 1, .ro, 0, 14, []⟩, ⟨"RXBUSY", 2, 1, .ro, 0, 14, []⟩, ⟨"GAIN", 4, 3, .ro, 0, 14, []⟩],
    []⟩,
  ⟨"PLC_RXQp", 0x2300000C, [(4, 0x40)],
    [⟨"MOD", 0, 2, .ro, 0, 14, []⟩, ⟨"LEN", 2, 9, .ro, 0, 14, []⟩, ⟨"ERASED", 11, 7, .ro, 0, 14, []⟩, ⟨"SNR", 18, 6, .ro, 0, 14, []⟩, ⟨"RSCORR", 24, 8, .ro, 0, 14, []⟩],
    []⟩,
  ⟨"PLC_CNT0p", 0x23000010, [(4, 0x40)],
    [⟨"RXOK", 0, 16, .ro, 0, 14, []⟩, ⟨"TXOK", 16, 16, .ro, 0, 14, []⟩],
    []⟩,
  ⟨"PLC_CNT1p", 0x23000014, [(4, 0x40)],
    [⟨"HDRERR", 0, 8, .w1cField, 0, 14, []⟩, ⟨"RSFAIL", 8, 8, .w1cField, 0, 14, []⟩, ⟨"ERADROP", 16, 8, .w1cField, 0, 14, []⟩, ⟨"ABORT", 24, 8, .w1cField, 0, 14, []⟩],
    []⟩]

/-- Registers PLK_CTLp to PLK_SWEEPp (08_plc_link.md; R253). -/
def regsPLK0 : List RegRow := [
  ⟨"PLK_CTLp", 0x23010000, [(4, 0x40)],
    [⟨"ROLE", 0, 2, .rwl, 0, 1, [(0, 2)]⟩, ⟨"NET", 8, 8, .rwl, 0, 1, []⟩, ⟨"QUEUE", 16, 5, .rwl, 0, 1, []⟩, ⟨"DISC", 24, 1, .rw, 1, 3, []⟩],
    []⟩,
  ⟨"PLK_SCHp", 0x23010004, [(4, 0x40)],
    [⟨"RND", 0, 6, .rw, 0xA, 3, [(1, 0x3C)]⟩, ⟨"RETRY", 8, 4, .rw, 3, 3, [(1, 0xF)]⟩, ⟨"TRAIN", 12, 3, .rw, 4, 3, [(1, 4)]⟩, ⟨"DNGAP", 16, 4, .rw, 4, 3, [(1, 0xF)]⟩, ⟨"RMAX", 20, 2, .rw, 0, 3, []⟩, ⟨"BLKMOD", 22, 2, .rw, 2, 3, [(1, 3)]⟩],
    []⟩,
  ⟨"PLK_BCNp", 0x23010008, [(4, 0x40)],
    [⟨"PER", 0, 10, .rw, 0x3C, 3, [(0xA, 0x258)]⟩, ⟨"JSLOTS", 12, 4, .rw, 7, 3, []⟩, ⟨"DEVERY", 16, 8, .rw, 5, 3, [(1, 0xFF)]⟩],
    []⟩,
  ⟨"PLK_MODp", 0x2301000C, [(4, 0x40)],
    [⟨"MARGIN", 0, 4, .rw, 3, 3, []⟩, ⟨"MAXMOD", 4, 2, .rw, 3, 3, [(1, 3)]⟩, ⟨"MINMOD", 6, 2, .rw, 1, 3, [(1, 3)]⟩],
    []⟩,
  ⟨"PLK_ADDRp", 0x23010010, [(4, 0x40)],
    [⟨"ADDR", 0, 16, .ro, 0, 14, []⟩, ⟨"UPNET", 16, 8, .ro, 0, 14, []⟩],
    []⟩,
  ⟨"PLK_STATp", 0x23010014, [(4, 0x40)],
    [⟨"SWEEP", 0, 1, .ro, 0, 14, []⟩, ⟨"HOLD", 1, 1, .ro, 0, 14, []⟩, ⟨"JOINED", 2, 1, .ro, 0, 14, []⟩, ⟨"UPLOST", 3, 1, .w1c, 0, 14, []⟩, ⟨"LEFT", 16, 16, .ro, 0, 14, []⟩],
    []⟩,
  ⟨"PLK_CNT0p", 0x23010018, [(4, 0x40)],
    [⟨"POLLED", 0, 16, .ro, 0, 14, []⟩, ⟨"ANSWERED", 16, 16, .ro, 0, 14, []⟩],
    []⟩,
  ⟨"PLK_CNT1p", 0x2301001C, [(4, 0x40)],
    [⟨"MISSED", 0, 8, .w1cField, 0, 14, []⟩, ⟨"QREFUSED", 8, 8, .w1cField, 0, 14, []⟩, ⟨"OVERSLOT", 16, 4, .w1cField, 0, 14, []⟩, ⟨"UNSOL", 20, 4, .w1cField, 0, 14, []⟩, ⟨"OVERRUN", 24, 8, .w1cField, 0, 14, []⟩],
    []⟩,
  ⟨"PLK_SWEEPp", 0x23010020, [(4, 0x40)],
    [⟨"LAST", 0, 16, .ro, 0, 14, []⟩, ⟨"COUNT", 16, 16, .ro, 0, 14, []⟩],
    []⟩]

/-- Registers SER_BCTLn to SER_UCNTu (09_wired_and_radio.md; R268). -/
def regsSER0 : List RegRow := [
  ⟨"SER_BCTLn", 0x23020000, [(8, 0x20)],
    [⟨"EN", 0, 1, .rwl, 0, 1, []⟩, ⟨"QUEUE", 8, 5, .rwl, 0, 1, []⟩],
    []⟩,
  ⟨"SER_BCFGn", 0x23020004, [(8, 0x20)],
    [⟨"BAUD", 0, 3, .rwl, 0, 1, [(0, 4)]⟩, ⟨"RTO", 8, 8, .rw, 0x28, 3, [(1, 0xFF)]⟩, ⟨"GAP", 16, 4, .rwl, 8, 1, [(1, 0xF)]⟩, ⟨"RETRY", 20, 4, .rw, 3, 3, [(1, 0xF)]⟩],
    []⟩,
  ⟨"SER_BSTATn", 0x23020008, [(8, 0x20)],
    [⟨"JAM", 0, 1, .w1c, 0, 14, []⟩],
    []⟩,
  ⟨"SER_BCNTn", 0x2302000C, [(8, 0x20)],
    [⟨"BADFRM", 0, 16, .w1cField, 0, 14, []⟩, ⟨"LATE", 16, 16, .w1cField, 0, 14, []⟩],
    []⟩,
  ⟨"SER_UCTLu", 0x23020100, [(4, 0x20)],
    [⟨"ROLE", 0, 4, .rwl, 0, 1, [(0, 3)]⟩],
    []⟩,
  ⟨"SER_UCNTu", 0x23020104, [(4, 0x20)],
    [⟨"BADLINE", 0, 16, .w1cField, 0, 14, []⟩],
    []⟩]

/-- Registers MBS_CTLb to MBS_CNTb (09_wired_and_radio.md; R268). -/
def regsMBS0 : List RegRow := [
  ⟨"MBS_CTLb", 0x23030000, [(2, 0x10)],
    [⟨"EN", 0, 1, .rwl, 0, 1, []⟩, ⟨"BAUD", 1, 2, .rwl, 1, 1, [(0, 2)]⟩, ⟨"QUEUE", 8, 5, .rwl, 0, 1, []⟩],
    []⟩,
  ⟨"MBS_CFGb", 0x23030004, [(2, 0x10)],
    [⟨"RTO", 0, 12, .rw, 0x190, 3, [(1, 0xFFF)]⟩],
    []⟩,
  ⟨"MBS_STATb", 0x23030008, [(2, 0x10)],
    [⟨"OVL", 0, 1, .w1c, 0, 14, []⟩],
    []⟩,
  ⟨"MBS_CNTb", 0x2303000C, [(2, 0x10)],
    [⟨"BADFRM", 0, 16, .w1cField, 0, 14, []⟩],
    []⟩]

/-- Registers RAD_CTLr to RAD_CNTr (09_wired_and_radio.md; R268). -/
def regsRAD0 : List RegRow := [
  ⟨"RAD_CTLr", 0x23040000, [(4, 0x10)],
    [⟨"EN", 0, 1, .rwl, 0, 1, []⟩, ⟨"QUEUE", 8, 5, .rwl, 0, 1, []⟩],
    []⟩,
  ⟨"RAD_STATr", 0x23040004, [(4, 0x10)],
    [⟨"JAM", 0, 1, .w1c, 0, 14, []⟩],
    []⟩,
  ⟨"RAD_CNTr", 0x23040008, [(4, 0x10)],
    [⟨"BADFRM", 0, 16, .w1cField, 0, 14, []⟩],
    []⟩]

/-- Registers ETH_CTLn to ETH_ERRn (10_ethernet_and_time.md; R296). -/
def regsETH0 : List RegRow := [
  ⟨"ETH_CTLn", 0x23050000, [(3, 0x40)],
    [⟨"EN", 0, 1, .rwl, 0, 1, []⟩, ⟨"SPEED", 1, 2, .rwl, 0, 1, []⟩, ⟨"PAUSE", 3, 1, .rwl, 0, 1, []⟩, ⟨"VLAN", 4, 1, .rwl, 0, 1, []⟩, ⟨"VID", 6, 12, .rwl, 0, 1, [(1, 0xFFE)]⟩],
    []⟩,
  ⟨"ETH_STATn", 0x23050004, [(3, 0x40)],
    [⟨"LINK", 0, 1, .ro, 0, 14, []⟩, ⟨"SPD", 1, 2, .ro, 0, 14, []⟩, ⟨"MODABS", 3, 1, .ro, 0, 14, []⟩, ⟨"LOS", 4, 1, .ro, 0, 14, []⟩],
    []⟩,
  ⟨"ETH_MACLOn", 0x23050008, [(3, 0x40)],
    [⟨"MACLO", 0, 32, .rwl, 0, 1, []⟩],
    []⟩,
  ⟨"ETH_MACHIn", 0x2305000C, [(3, 0x40)],
    [⟨"MACHI", 0, 16, .rwl, 0, 1, []⟩],
    []⟩,
  ⟨"ETH_LATn", 0x23050010, [(3, 0x40)],
    [⟨"TX", 0, 16, .rwl, 0, 1, []⟩, ⟨"RX", 16, 16, .rwl, 0, 1, []⟩],
    []⟩,
  ⟨"ETH_RXCNTn", 0x23050014, [(3, 0x40)],
    [⟨"FRAMES", 0, 32, .ro, 0, 14, []⟩],
    []⟩,
  ⟨"ETH_TXCNTn", 0x23050018, [(3, 0x40)],
    [⟨"FRAMES", 0, 32, .ro, 0, 14, []⟩],
    []⟩,
  ⟨"ETH_DROPn", 0x2305001C, [(3, 0x40)],
    [⟨"FULL", 0, 16, .w1cField, 0, 14, []⟩, ⟨"LINK", 16, 16, .w1cField, 0, 14, []⟩],
    []⟩,
  ⟨"ETH_ERRn", 0x23050020, [(3, 0x40)],
    [⟨"ERR", 0, 32, .w1cField, 0, 14, []⟩],
    []⟩]

/-- Registers TIM_CTL to TIM_CNT (10_ethernet_and_time.md; R297). -/
def regsTIM0 : List RegRow := [
  ⟨"TIM_CTL", 0x23060000, [],
    [⟨"SRC", 0, 2, .rwl, 0, 1, [(0, 2)]⟩, ⟨"PTPM", 2, 1, .rwl, 0, 1, []⟩, ⟨"PORT", 4, 2, .rwl, 0, 1, [(0, 2)]⟩, ⟨"REARM", 8, 1, .wo, 0, 2, []⟩],
    []⟩,
  ⟨"TIM_STAT", 0x23060004, [],
    [⟨"VALID", 0, 1, .ro, 0, 14, []⟩, ⟨"LOCK", 1, 1, .ro, 0, 14, []⟩, ⟨"STEPARM", 2, 1, .ro, 1, 14, []⟩, ⟨"HOLD", 3, 1, .ro, 0, 14, []⟩, ⟨"GEN", 4, 2, .ro, 0, 14, []⟩, ⟨"TSQOVF", 6, 1, .w1c, 0, 14, []⟩],
    []⟩,
  ⟨"TIM_SECHI", 0x23060008, [],
    [⟨"SEC", 0, 16, .ro, 0, 14, []⟩],
    []⟩,
  ⟨"TIM_SECLO", 0x2306000C, [],
    [⟨"SEC", 0, 32, .ro, 0, 14, []⟩],
    []⟩,
  ⟨"TIM_NS", 0x23060010, [],
    [⟨"NS", 0, 30, .ro, 0, 14, []⟩],
    []⟩,
  ⟨"TIM_ADDLO", 0x23060014, [],
    [⟨"ADD", 0, 32, .rw, 0, 8, []⟩],
    []⟩,
  ⟨"TIM_ADDHI", 0x23060018, [],
    [⟨"ADD", 0, 32, .rw, 0x80000, 8, []⟩],
    []⟩,
  ⟨"TIM_STEPS", 0x2306001C, [],
    [⟨"S", 0, 32, .wo, 0, 10, []⟩],
    []⟩,
  ⟨"TIM_STEPNS", 0x23060020, [],
    [⟨"NS", 0, 31, .wo, 0, 10, [(0, 999999999), (0x44653601, 0x7FFFFFFF)]⟩],
    []⟩,
  ⟨"TIM_SERVO", 0x23060024, [],
    [⟨"STEPTHR", 0, 16, .rwl, 0x3E8, 1, [(1, 0xFFFF)]⟩, ⟨"LOCKTHR", 16, 12, .rwl, 0x3E8, 1, [(1, 0xFFF)]⟩, ⟨"SLEW", 28, 4, .rwl, 0xA, 1, [(1, 0xA)]⟩],
    []⟩,
  ⟨"TIM_OFS", 0x23060028, [],
    [⟨"OFS", 0, 32, .ro, 0, 14, []⟩],
    []⟩,
  ⟨"TIM_CNT", 0x2306002C, [],
    [⟨"STEPREF", 0, 8, .w1cField, 0, 14, []⟩, ⟨"SRCLOSS", 8, 8, .w1cField, 0, 14, []⟩, ⟨"PPSREJ", 16, 8, .w1cField, 0, 14, []⟩, ⟨"TSQLOST", 24, 8, .w1cField, 0, 14, []⟩],
    []⟩]

/-- Registers TIM_UTC to TIM_ANCHS (10_ethernet_and_time.md; R297). -/
def regsTIM1 : List RegRow := [
  ⟨"TIM_UTC", 0x23060030, [],
    [⟨"OFS", 0, 16, .rw, 0x25, 2, []⟩, ⟨"UVALID", 16, 1, .rw, 0, 2, []⟩],
    []⟩,
  ⟨"TIM_PMLO", 0x23060034, [],
    [⟨"ID", 0, 32, .rwl, 0, 1, []⟩],
    []⟩,
  ⟨"TIM_PMHI", 0x23060038, [],
    [⟨"ID", 0, 32, .rwl, 0, 1, []⟩],
    []⟩,
  ⟨"TIM_PTPCFG", 0x2306003C, [],
    [⟨"DOMAIN", 0, 7, .rwl, 0, 1, []⟩, ⟨"TRANS", 8, 2, .rwl, 0, 1, [(0, 2)]⟩, ⟨"LSYNC", 12, 4, .rwl, 0, 1, [(0, 1), (0xC, 0xF)]⟩, ⟨"LANN", 16, 4, .rwl, 1, 1, [(0, 3)]⟩, ⟨"LDREQ", 20, 4, .rwl, 0, 1, [(0, 5), (0xC, 0xF)]⟩],
    []⟩,
  ⟨"TIM_PPS", 0x23060040, [],
    [⟨"EN", 0, 1, .rwl, 0, 1, []⟩, ⟨"ALWAYS", 1, 1, .rwl, 0, 1, []⟩, ⟨"POL", 2, 1, .rwl, 1, 1, []⟩, ⟨"WIDTH", 8, 8, .rwl, 0x64, 1, [(1, 0xFF)]⟩],
    []⟩,
  ⟨"TIM_TSQKEY", 0x23060050, [],
    [⟨"SEQ", 0, 16, .wo, 0, 8, []⟩, ⟨"MTYPE", 16, 4, .wo, 0, 8, []⟩, ⟨"PORT", 20, 2, .wo, 0, 8, []⟩],
    []⟩,
  ⟨"TIM_TSQRES", 0x23060054, [],
    [⟨"FOUND", 0, 1, .ro, 0, 14, []⟩, ⟨"GEN", 4, 2, .ro, 0, 14, []⟩, ⟨"SECHI", 16, 16, .ro, 0, 14, []⟩],
    []⟩,
  ⟨"TIM_TSQSEC", 0x23060058, [],
    [⟨"SEC", 0, 32, .ro, 0, 14, []⟩],
    []⟩,
  ⟨"TIM_TSQNS", 0x2306005C, [],
    [⟨"NS", 0, 30, .ro, 0, 14, []⟩],
    []⟩,
  ⟨"TIM_TSQSTAT", 0x23060060, [],
    [⟨"COUNT", 0, 5, .ro, 0, 14, []⟩],
    []⟩,
  ⟨"TIM_ANCHT", 0x23060070, [],
    [⟨"TICK", 0, 32, .ro, 0, 14, []⟩],
    []⟩,
  ⟨"TIM_ANCHS", 0x23060074, [],
    [⟨"SEC", 0, 32, .ro, 0, 14, []⟩],
    []⟩]

/-- Registers TIM_ANCHNS to TIM_CAPSTk (10_ethernet_and_time.md; R297). -/
def regsTIM2 : List RegRow := [
  ⟨"TIM_ANCHNS", 0x23060078, [],
    [⟨"NS", 0, 30, .ro, 0, 14, []⟩],
    []⟩,
  ⟨"TIM_ANCHRTC", 0x2306007C, [],
    [⟨"SEC", 0, 32, .ro, 0, 14, []⟩],
    []⟩,
  ⟨"TIM_TRGCTLk", 0x23060100, [(4, 0x10)],
    [⟨"MODE", 0, 2, .rw, 0, 9, []⟩, ⟨"POL", 2, 1, .rw, 1, 9, []⟩, ⟨"WIDTH", 8, 24, .rw, 0, 9, [(1, 0xFFFFFF)]⟩],
    []⟩,
  ⟨"TIM_TRGSk", 0x23060104, [(4, 0x10)],
    [⟨"SEC", 0, 32, .rw, 0, 9, []⟩],
    []⟩,
  ⟨"TIM_TRGNk", 0x23060108, [(4, 0x10)],
    [⟨"NS", 0, 30, .rw, 0, 9, [(0, 999999999)]⟩],
    []⟩,
  ⟨"TIM_TRGPk", 0x2306010C, [(4, 0x10)],
    [⟨"PER", 0, 32, .rw, 0, 9, [(1000, 4294967288)]⟩],
    []⟩,
  ⟨"TIM_CAPSk", 0x23060180, [(5, 0x10)],
    [⟨"SEC", 0, 32, .ro, 0, 14, []⟩],
    []⟩,
  ⟨"TIM_CAPNk", 0x23060184, [(5, 0x10)],
    [⟨"NS", 0, 30, .ro, 0, 14, []⟩],
    []⟩,
  ⟨"TIM_CAPSTk", 0x23060188, [(5, 0x10)],
    [⟨"CAPV", 0, 1, .w1c, 0, 14, []⟩, ⟨"MISSED", 1, 1, .w1c, 0, 14, []⟩, ⟨"OVR", 8, 8, .w1cField, 0, 14, []⟩, ⟨"GEN", 16, 2, .ro, 0, 14, []⟩],
    []⟩]

/-- Registers SUP_CTL to SUP_MGMT (11_head_end_protocol.md; R332). -/
def regsSUP0 : List RegRow := [
  ⟨"SUP_CTL", 0x23070000, [],
    [⟨"UPEN", 0, 1, .rwl, 0, 1, []⟩, ⟨"SRVEN", 1, 1, .rwl, 0, 1, []⟩, ⟨"IF", 4, 2, .rwl, 0, 1, []⟩, ⟨"IPV", 6, 1, .rwl, 0, 1, []⟩, ⟨"DURABLE", 7, 1, .rwl, 0, 1, []⟩, ⟨"FBANK", 8, 2, .rwl, 0, 1, []⟩],
    []⟩,
  ⟨"SUP_PORT", 0x23070004, [],
    [⟨"LPORT", 0, 16, .rwl, 0x12D1, 1, []⟩, ⟨"HPORT", 16, 16, .rwl, 0x12D1, 1, []⟩],
    []⟩,
  ⟨"SUP_HADDRi", 0x23070008, [(4, 4)],
    [⟨"ADDR", 0, 32, .rwl, 0, 1, []⟩],
    []⟩,
  ⟨"SUP_TIM0", 0x23070018, [],
    [⟨"BATCH", 0, 10, .rw, 0x3C, 3, [(1, 0x384)]⟩, ⟨"IDLE", 16, 8, .rw, 0x78, 3, [(0xA, 0xFF)]⟩],
    []⟩,
  ⟨"SUP_TIM1", 0x2307001C, [],
    [⟨"RTO", 0, 8, .rw, 0xA, 3, [(1, 0xFF)]⟩, ⟨"FWDWAIT", 8, 8, .rwl, 8, 1, [(1, 0xFF)]⟩, ⟨"LIFE", 16, 16, .rw, 0x5A0, 3, [(1, 0xFFFF)]⟩],
    []⟩,
  ⟨"SUP_SCFG", 0x23070020, [],
    [⟨"MAXSESS", 0, 7, .rwl, 0x10, 1, [(1, 0x60)]⟩, ⟨"WMAX", 8, 16, .rwl, 0x900, 1, [(0x12, 0xFFFF)]⟩, ⟨"ACKDLY", 24, 8, .rwl, 4, 1, [(1, 0xFF)]⟩],
    []⟩,
  ⟨"SUP_QMAP", 0x23070024, [],
    [⟨"QUEUES", 0, 32, .rwl, 0, 1, []⟩],
    []⟩,
  ⟨"SUP_STAT", 0x23070028, [],
    [⟨"UPSTATE", 0, 2, .ro, 0, 14, []⟩, ⟨"SRVCNT", 8, 7, .ro, 0, 14, []⟩, ⟨"FFREE", 16, 14, .ro, 0, 14, []⟩],
    []⟩,
  ⟨"SUP_UNACK", 0x2307002C, [],
    [⟨"RECS", 0, 24, .ro, 0, 14, []⟩],
    []⟩,
  ⟨"SUP_CNT0", 0x23070030, [],
    [⟨"HELLOFAIL", 0, 8, .w1cField, 0, 14, []⟩, ⟨"AUTHFAIL", 8, 8, .w1cField, 0, 14, []⟩, ⟨"REPLAY", 16, 8, .w1cField, 0, 14, []⟩, ⟨"MALF", 24, 8, .w1cField, 0, 14, []⟩],
    []⟩,
  ⟨"SUP_CNT1", 0x23070034, [],
    [⟨"QREF", 0, 16, .w1cField, 0, 14, []⟩, ⟨"RETX", 16, 16, .ro, 0, 14, []⟩],
    []⟩,
  ⟨"SUP_MGMT", 0x23070038, [],
    [⟨"PATHREF", 0, 16, .w1cField, 0, 14, []⟩, ⟨"ITEMS", 16, 16, .ro, 0, 14, []⟩],
    []⟩]

/-- Registers SUP_DLS to SUP_TXCNT (11_head_end_protocol.md; R332). -/
def regsSUP1 : List RegRow := [
  ⟨"SUP_DLS", 0x2307003C, [],
    [⟨"USED", 0, 12, .ro, 0, 14, []⟩, ⟨"DLFULL", 16, 1, .w1c, 0, 14, []⟩],
    []⟩,
  ⟨"SUP_RXCNT", 0x23070040, [],
    [⟨"DGRAMS", 0, 32, .ro, 0, 14, []⟩],
    []⟩,
  ⟨"SUP_TXCNT", 0x23070044, [],
    [⟨"DGRAMS", 0, 32, .ro, 0, 14, []⟩],
    []⟩]

/-- Registers CIP_CTLp to CIP_CTRLOp (12_cipher_engine.md; R352). -/
def regsCIP0 : List RegRow := [
  ⟨"CIP_CTLp", 0x24000000, [(256, 0x100)],
    [⟨"MODE", 0, 3, .rw, 0, 8, [(0, 4)]⟩, ⟨"KS", 3, 1, .rw, 0, 8, []⟩, ⟨"DIR", 4, 1, .rw, 0, 8, []⟩, ⟨"NSRC", 5, 2, .rw, 0, 8, [(0, 2)]⟩, ⟨"SLOT", 8, 5, .rw, 0, 8, []⟩, ⟨"TAGLEN", 16, 5, .rw, 0x10, 8, [(1, 0x10)]⟩, ⟨"DSTQ", 21, 1, .rw, 0, 8, []⟩, ⟨"QNUM", 24, 5, .rw, 0, 8, []⟩],
    []⟩,
  ⟨"CIP_STATp", 0x24000004, [(256, 0x100)],
    [⟨"STATE", 0, 2, .ro, 0, 8, []⟩, ⟨"KEYV", 2, 1, .ro, 0, 8, []⟩, ⟨"RESULT", 4, 4, .ro, 0, 8, []⟩, ⟨"OWNER", 8, 5, .ro, 0, 8, []⟩],
    []⟩,
  ⟨"CIP_LENp", 0x24000008, [(256, 0x100)],
    [⟨"LEN", 0, 17, .rw, 0, 8, []⟩],
    []⟩,
  ⟨"CIP_AADLp", 0x2400000C, [(256, 0x100)],
    [⟨"AADLEN", 0, 17, .rw, 0, 8, []⟩],
    []⟩,
  ⟨"CIP_SRCp", 0x24000010, [(256, 0x100)],
    [⟨"SRC", 0, 25, .rw, 0, 8, []⟩],
    []⟩,
  ⟨"CIP_DSTp", 0x24000014, [(256, 0x100)],
    [⟨"DST", 0, 25, .rw, 0, 8, []⟩],
    []⟩,
  ⟨"CIP_SKIPp", 0x24000018, [(256, 0x100)],
    [⟨"SKIP", 0, 5, .rw, 0, 8, [(0, 0x10)]⟩],
    []⟩,
  ⟨"CIP_CMDp", 0x2400001C, [(256, 0x100)],
    [⟨"OP", 0, 3, .wo, 0, 8, [(1, 4)]⟩],
    []⟩,
  ⟨"CIP_NLENp", 0x24000020, [(256, 0x100)],
    [⟨"NLEN", 0, 4, .rw, 0xC, 8, []⟩],
    []⟩,
  ⟨"CIP_IVwp", 0x24000030, [(256, 0x100), (4, 4)],
    [⟨"IV", 0, 32, .rw, 0, 8, []⟩],
    []⟩,
  ⟨"CIP_TAGwp", 0x24000040, [(256, 0x100), (4, 4)],
    [⟨"TAG", 0, 32, .ro, 0, 8, []⟩],
    []⟩,
  ⟨"CIP_CTRLOp", 0x24000050, [(256, 0x100)],
    [⟨"CTR", 0, 32, .ro, 0, 8, []⟩],
    []⟩]

/-- Registers CIP_CTRHIp to CIP_USE (12_cipher_engine.md; R352, R353). -/
def regsCIP1 : List RegRow := [
  ⟨"CIP_CTRHIp", 0x24000054, [(256, 0x100)],
    [⟨"CTR", 0, 32, .ro, 0, 8, []⟩],
    []⟩,
  ⟨"CIP_HOLDwp", 0x24000060, [(256, 0x100), (4, 4)],
    [⟨"HOLD", 0, 32, .ro, 0, 8, []⟩],
    []⟩,
  ⟨"CIP_JOBSp", 0x24000070, [(256, 0x100)],
    [⟨"JOBS", 0, 32, .ro, 0, 8, []⟩],
    []⟩,
  ⟨"CIP_OWNp", 0x24010000, [(256, 4)],
    [⟨"OWNER", 0, 5, .rwl, 0, 1, [(0, 5), (8, 8), (0xC, 0xE)]⟩],
    []⟩,
  ⟨"CIP_FAULT", 0x24010400, [],
    [⟨"PAGE", 0, 8, .ro, 0, 14, []⟩, ⟨"AGENT", 8, 5, .ro, 0, 14, []⟩, ⟨"COUNT", 16, 12, .ro, 0, 14, []⟩, ⟨"VALID", 31, 1, .w1c, 0, 14, []⟩],
    []⟩,
  ⟨"CIP_CNT", 0x24010404, [],
    [⟨"AUTHFAIL", 0, 16, .w1cField, 0, 14, []⟩, ⟨"BUSYERR", 16, 8, .w1cField, 0, 14, []⟩, ⟨"NOCTR", 24, 8, .w1cField, 0, 14, []⟩],
    []⟩,
  ⟨"CIP_SLOTV", 0x24010408, [],
    [⟨"VALID", 0, 32, .ro, 0, 14, []⟩],
    []⟩,
  ⟨"CIP_USE", 0x2401040C, [],
    [⟨"BUSY", 0, 9, .ro, 0, 14, []⟩, ⟨"SPENT", 16, 9, .ro, 0, 14, []⟩],
    []⟩]

/-- Registers KEY_LC to KEY_IDPUBw (13_keys.md; R378). -/
def regsKEY0 : List RegRow := [
  ⟨"KEY_LC", 0x24020000, [],
    [⟨"STATE", 0, 3, .ro, 0, 14, []⟩, ⟨"CYCLE", 4, 3, .ro, 0, 14, []⟩, ⟨"TCOUNT", 8, 4, .ro, 0, 14, []⟩],
    []⟩,
  ⟨"KEY_SERLO", 0x24020004, [],
    [⟨"SER", 0, 32, .ro, 0, 14, []⟩],
    []⟩,
  ⟨"KEY_SERHI", 0x24020008, [],
    [⟨"SER", 0, 32, .ro, 0, 14, []⟩],
    []⟩,
  ⟨"KEY_STAT", 0x2402000C, [],
    [⟨"PRES", 0, 5, .ro, 0, 14, []⟩, ⟨"ROOTOK", 5, 1, .ro, 0, 14, []⟩, ⟨"REDERIVE", 6, 1, .ro, 0, 14, []⟩, ⟨"NOTE", 7, 1, .ro, 0, 14, []⟩, ⟨"ERASED", 8, 1, .w1c, 0, 14, []⟩, ⟨"LASTRES", 16, 4, .ro, 0, 14, []⟩],
    []⟩,
  ⟨"KEY_UCTR", 0x24020010, [],
    [⟨"UCTR", 0, 32, .ro, 0, 14, []⟩],
    []⟩,
  ⟨"KEY_AUTH", 0x24020014, [],
    [⟨"AHM", 0, 5, .ro, 0, 14, []⟩, ⟨"AHF", 8, 5, .ro, 0, 14, []⟩],
    []⟩,
  ⟨"KEY_CNT", 0x24020018, [],
    [⟨"ACCEPTED", 0, 16, .ro, 0, 14, []⟩, ⟨"REFUSED", 16, 16, .w1cField, 0, 14, []⟩],
    []⟩,
  ⟨"KEY_LDCMD", 0x24020020, [],
    [⟨"PAGE", 0, 8, .wo, 0, 8, []⟩, ⟨"PURPOSE", 8, 4, .wo, 0, 8, [(1, 3)]⟩],
    []⟩,
  ⟨"KEY_LDGEN", 0x24020024, [],
    [⟨"GEN", 0, 32, .rw, 0, 8, []⟩],
    []⟩,
  ⟨"KEY_LDRES", 0x24020028, [],
    [⟨"RESULT", 0, 4, .ro, 0, 12, []⟩, ⟨"SEQ", 8, 8, .ro, 0, 12, []⟩],
    []⟩,
  ⟨"KEY_IDPUBw", 0x24020040, [(16, 4)],
    [⟨"Q", 0, 32, .ro, 0, 14, []⟩],
    []⟩]

/-- Registers SIG_CNT to SIG_CNT (13_keys.md; R380). -/
def regsSIG0 : List RegRow := [
  ⟨"SIG_CNT", 0x24030000, [],
    [⟨"VERIFY", 0, 16, .ro, 0, 14, []⟩, ⟨"AGREE", 16, 16, .ro, 0, 14, []⟩],
    []⟩]

/-- Registers RNG_STAT to RNG_STAT (13_keys.md; R380). -/
def regsRNG0 : List RegRow := [
  ⟨"RNG_STAT", 0x24040000, [],
    [⟨"OK", 0, 1, .ro, 0, 14, []⟩, ⟨"FAILS", 8, 8, .w1cField, 0, 14, []⟩],
    []⟩]

/-- Registers NND_CTL to NND_CNT (15_storage.md; R441). -/
def regsNND0 : List RegRow := [
  ⟨"NND_CTL", 0x25000000, [],
    [⟨"CEMASK", 0, 4, .rwl, 1, 1, []⟩, ⟨"RATE", 4, 3, .rwl, 0, 1, [(0, 4)]⟩],
    []⟩,
  ⟨"NND_GEOM", 0x25000004, [],
    [⟨"LUNS", 0, 4, .ro, 0, 14, []⟩, ⟨"PAGE", 4, 2, .ro, 0, 14, []⟩, ⟨"TPROG", 16, 16, .ro, 0, 14, []⟩],
    []⟩,
  ⟨"NND_CNT", 0x25000008, [],
    [⟨"PFAIL", 0, 16, .w1cField, 0, 14, []⟩, ⟨"EFAIL", 16, 16, .w1cField, 0, 14, []⟩],
    []⟩]

/-- Registers FTL_CTL to FTL_ACKHI (15_storage.md; R441). -/
def regsFTL0 : List RegRow := [
  ⟨"FTL_CTL", 0x25010000, [],
    [⟨"EN", 0, 1, .rwl, 0, 1, []⟩, ⟨"FLUSHW", 8, 8, .rwl, 0x64, 1, [(1, 0xFF)]⟩, ⟨"FLUSHB", 16, 16, .rwl, 0x1F40, 1, [(1, 0xFFFF)]⟩],
    []⟩,
  ⟨"FTL_CFG", 0x25010004, [],
    [⟨"SPREAD", 0, 10, .rwl, 0xC8, 1, [(0xA, 0x3FF)]⟩, ⟨"REFRESH", 11, 5, .rwl, 0x10, 1, [(4, 0x18)]⟩, ⟨"SPAREPCT", 16, 5, .rwl, 3, 1, [(1, 0x14)]⟩],
    []⟩,
  ⟨"FTL_HOLD", 0x25010008, [],
    [⟨"HOLDU", 0, 16, .rwl, 0x40, 1, [(8, 0xFFFF)]⟩],
    []⟩,
  ⟨"FTL_CKPT", 0x2501000C, [],
    [⟨"SEC", 0, 12, .rwl, 0x3C, 1, [(0xA, 0xFFF)]⟩, ⟨"REC", 16, 8, .rwl, 0x10, 1, [(1, 0xFF)]⟩],
    []⟩,
  ⟨"FTL_STAT", 0x25010010, [],
    [⟨"STATE", 0, 3, .ro, 0, 14, []⟩, ⟨"LOWSPARE", 4, 1, .ro, 0, 14, []⟩, ⟨"HOLD", 5, 1, .ro, 0, 14, []⟩, ⟨"RESTORED", 6, 1, .ro, 0, 14, []⟩],
    []⟩,
  ⟨"FTL_FENCE", 0x25010014, [],
    [⟨"ISSUE", 0, 1, .wo, 0, 14, []⟩],
    []⟩,
  ⟨"FTL_FISS", 0x25010018, [],
    [⟨"NUM", 0, 32, .ro, 0, 14, []⟩],
    []⟩,
  ⟨"FTL_FDONE", 0x2501001C, [],
    [⟨"NUM", 0, 32, .ro, 0, 14, []⟩],
    []⟩,
  ⟨"FTL_LSNLO", 0x25010020, [],
    [⟨"LSN", 0, 32, .ro, 0, 14, []⟩],
    []⟩,
  ⟨"FTL_LSNHI", 0x25010024, [],
    [⟨"LSN", 0, 32, .ro, 0, 14, []⟩],
    []⟩,
  ⟨"FTL_ACKLO", 0x25010028, [],
    [⟨"LSN", 0, 32, .ro, 0, 14, []⟩],
    []⟩,
  ⟨"FTL_ACKHI", 0x2501002C, [],
    [⟨"LSN", 0, 32, .ro, 0, 14, []⟩],
    []⟩]

/-- Registers FTL_HLTH to FTL_THISTk (15_storage.md; R441). -/
def regsFTL1 : List RegRow := [
  ⟨"FTL_HLTH", 0x25010030, [],
    [⟨"SPARE", 0, 16, .ro, 0, 14, []⟩, ⟨"RETIRED", 16, 16, .ro, 0, 14, []⟩],
    []⟩,
  ⟨"FTL_WEAR", 0x25010034, [],
    [⟨"MAXERASE", 0, 16, .ro, 0, 14, []⟩, ⟨"USED", 16, 16, .ro, 0, 14, []⟩],
    []⟩,
  ⟨"FTL_ECC", 0x25010038, [],
    [⟨"CORR", 0, 24, .ro, 0, 14, []⟩, ⟨"UNCORR", 24, 8, .w1cField, 0, 14, []⟩],
    []⟩,
  ⟨"FTL_CNT", 0x2501003C, [],
    [⟨"FFAIL", 0, 16, .w1cField, 0, 14, []⟩, ⟨"REFUSED", 16, 16, .ro, 0, 14, []⟩],
    []⟩,
  ⟨"FTL_RATE", 0x25010040, [],
    [⟨"RATE", 0, 32, .ro, 0, 14, []⟩],
    []⟩,
  ⟨"FTL_CMD", 0x25010044, [],
    [⟨"OP", 0, 4, .wo, 0, 4, [(1, 1)]⟩],
    []⟩,
  ⟨"FTL_THISTk", 0x25010080, [(16, 4)],
    [⟨"MIN", 0, 32, .ro, 0, 14, []⟩],
    []⟩]

/-- Registers EVR_CTL to EVR_RDATw (16_event_recorder.md; R462). -/
def regsEVR0 : List RegRow := [
  ⟨"EVR_CTL", 0x25020000, [],
    [⟨"MODE", 0, 1, .rwl, 0, 1, []⟩, ⟨"CRC", 1, 1, .rwl, 1, 1, []⟩, ⟨"MERGEWIN", 8, 8, .rwl, 0x3C, 1, [(1, 0xFF)]⟩, ⟨"ACKCLR", 16, 1, .rwl, 1, 1, []⟩],
    []⟩,
  ⟨"EVR_STAT", 0x25020004, [],
    [⟨"EFF", 0, 2, .ro, 0, 14, []⟩, ⟨"FULL", 2, 1, .ro, 0, 14, []⟩, ⟨"PEND", 4, 15, .ro, 0, 14, []⟩],
    []⟩,
  ⟨"EVR_SEQ", 0x25020008, [],
    [⟨"SEQ", 0, 32, .ro, 0, 14, []⟩],
    []⟩,
  ⟨"EVR_USED", 0x2502000C, [],
    [⟨"COUNT", 0, 20, .ro, 0, 14, []⟩],
    []⟩,
  ⟨"EVR_OLDEST", 0x25020010, [],
    [⟨"SEQ", 0, 32, .ro, 0, 14, []⟩],
    []⟩,
  ⟨"EVR_DISCARD", 0x25020014, [],
    [⟨"COUNT", 0, 32, .w1cField, 0, 14, []⟩],
    []⟩,
  ⟨"EVR_UPSEQ", 0x25020018, [],
    [⟨"SEQ", 0, 32, .ro, 0, 14, []⟩],
    []⟩,
  ⟨"EVR_CMD", 0x2502001C, [],
    [⟨"OP", 0, 3, .wo, 0, 14, [(1, 4)]⟩, ⟨"BUSY", 31, 1, .ro, 0, 14, []⟩],
    []⟩,
  ⟨"EVR_ARG", 0x25020020, [],
    [⟨"SEQ", 0, 32, .rw, 0, 14, []⟩],
    []⟩,
  ⟨"EVR_RDSTAT", 0x25020024, [],
    [⟨"DONE", 0, 1, .ro, 0, 14, []⟩, ⟨"FOUND", 1, 1, .ro, 0, 14, []⟩, ⟨"SEQ", 8, 8, .ro, 0, 14, []⟩],
    []⟩,
  ⟨"EVR_RDATw", 0x25020040, [(8, 4)],
    [⟨"DATA", 0, 32, .ro, 0, 14, []⟩],
    []⟩]

/-- Registers CFG_STAT to CFG_MARKk (18_startup.md; R497). -/
def regsCFG0 : List RegRow := [
  ⟨"CFG_STAT", 0x25030000, [],
    [⟨"STEP", 0, 4, .ro, 0, 14, []⟩, ⟨"SAFE", 4, 1, .ro, 0, 14, []⟩, ⟨"FIX", 5, 2, .ro, 0, 14, []⟩, ⟨"CAUSE", 8, 3, .ro, 0, 14, []⟩],
    []⟩,
  ⟨"CFG_ERR", 0x25030004, [],
    [⟨"STEP", 0, 4, .ro, 0, 14, []⟩, ⟨"CODE", 8, 8, .ro, 0, 14, []⟩],
    []⟩,
  ⟨"CFG_ERRARG", 0x25030008, [],
    [⟨"ARG", 0, 32, .ro, 0, 14, []⟩],
    []⟩,
  ⟨"CFG_AID", 0x2503000C, [],
    [⟨"ID", 0, 32, .ro, 0, 14, []⟩],
    []⟩,
  ⟨"CFG_AVER", 0x25030010, [],
    [⟨"VER", 0, 32, .ro, 0, 14, []⟩],
    []⟩,
  ⟨"CFG_FID", 0x25030014, [],
    [⟨"ID", 0, 32, .ro, 0, 14, []⟩],
    []⟩,
  ⟨"CFG_FIXSEQ", 0x25030018, [],
    [⟨"SEQ", 0, 32, .ro, 0, 14, []⟩],
    []⟩,
  ⟨"CFG_RECOV", 0x2503001C, [],
    [⟨"HOUR", 0, 8, .ro, 0, 14, []⟩, ⟨"TOTAL", 8, 16, .ro, 0, 14, []⟩],
    []⟩,
  ⟨"CFG_MARKk", 0x25030044, [(11, 4)],
    [⟨"TICK", 0, 32, .ro, 0, 14, []⟩],
    []⟩]

/-- Registers UPD_CTL to UPD_CONFIRM (17_update.md; R474). -/
def regsUPD0 : List RegRow := [
  ⟨"UPD_CTL", 0x25040000, [],
    [⟨"TRIALS", 0, 12, .rwl, 0x258, 1, [(0x3C, 0xFFF)]⟩],
    []⟩,
  ⟨"UPD_STAT", 0x25040004, [],
    [⟨"FSTG", 0, 2, .ro, 0, 14, []⟩, ⟨"CSTG", 2, 2, .ro, 0, 14, []⟩, ⟨"HRES", 4, 4, .ro, 0, 14, []⟩, ⟨"LASTRES", 8, 3, .ro, 0, 14, []⟩, ⟨"TRIAL", 11, 1, .ro, 0, 14, []⟩],
    []⟩,
  ⟨"UPD_RECV", 0x25040008, [],
    [⟨"BYTES", 0, 32, .ro, 0, 14, []⟩],
    []⟩,
  ⟨"UPD_IMG", 0x2504000C, [],
    [⟨"ID", 0, 32, .ro, 0, 14, []⟩],
    []⟩,
  ⟨"UPD_FVER", 0x25040010, [],
    [⟨"VER", 0, 32, .ro, 0, 14, []⟩],
    []⟩,
  ⟨"UPD_CVER", 0x25040014, [],
    [⟨"VER", 0, 32, .ro, 0, 14, []⟩],
    []⟩,
  ⟨"UPD_FLOOR", 0x25040018, [(2, 4)],
    [⟨"VER", 0, 32, .ro, 0, 14, []⟩],
    []⟩,
  ⟨"UPD_CNT", 0x25040020, [],
    [⟨"ACTIV", 0, 8, .ro, 0, 14, []⟩, ⟨"REFUSED", 8, 8, .w1cField, 0, 14, []⟩, ⟨"REVERT", 16, 8, .ro, 0, 14, []⟩],
    []⟩,
  ⟨"UPD_PAUSE", 0x25040024, [],
    [⟨"TICKS", 0, 16, .ro, 0, 14, []⟩],
    []⟩,
  ⟨"UPD_CONFIRM", 0x25040028, [],
    [⟨"CONFIRM", 0, 1, .wo, 0, 8, []⟩],
    []⟩]

/-- Registers ISL_ID to ISL_TRIAL (19_island.md; R515). -/
def regsISL0 : List RegRow := [
  ⟨"ISL_ID", 0x2F000000, [],
    [⟨"ID", 0, 32, .ro, 0x96400A01, 14, []⟩],
    []⟩,
  ⟨"ISL_STAT", 0x2F000004, [],
    [⟨"PFW", 0, 1, .ro, 0, 14, []⟩],
    []⟩,
  ⟨"ISL_LOSS", 0x2F000008, [],
    [⟨"KIND", 0, 2, .ro, 0, 14, []⟩],
    []⟩,
  ⟨"ISL_OUTAGE", 0x2F00000C, [],
    [⟨"SEC", 0, 32, .ro, 0, 14, []⟩],
    []⟩,
  ⟨"ISL_OPSEC", 0x2F000010, [],
    [⟨"SEC", 0, 32, .ro, 0, 14, []⟩],
    []⟩,
  ⟨"ISL_PCYC", 0x2F000014, [],
    [⟨"PCYC", 0, 16, .ro, 0, 14, []⟩],
    []⟩,
  ⟨"ISL_EVLOST", 0x2F000018, [],
    [⟨"COUNT", 0, 32, .ro, 0, 14, []⟩],
    []⟩,
  ⟨"ISL_EVHELD", 0x2F00001C, [],
    [⟨"COUNT", 0, 7, .ro, 0, 14, []⟩],
    []⟩,
  ⟨"ISL_WDCFG", 0x2F000020, [],
    [⟨"TIMEOUT", 0, 3, .rwl, 4, 1, [(0, 6)]⟩],
    []⟩,
  ⟨"ISL_WDKICK", 0x2F000024, [],
    [⟨"KEY", 0, 8, .wo, 0, 8, []⟩],
    []⟩,
  ⟨"ISL_WDSTAT", 0x2F000028, [],
    [⟨"COUNT", 0, 16, .w1cField, 0, 14, []⟩],
    []⟩,
  ⟨"ISL_TRIAL", 0x2F00002C, [],
    [⟨"LEFT", 0, 12, .ro, 0, 14, []⟩, ⟨"RUN", 12, 1, .ro, 0, 14, []⟩],
    []⟩]

/-- Registers RTC_SECLO to RTC_SETLO (19_island.md; R516). -/
def regsRTC0 : List RegRow := [
  ⟨"RTC_SECLO", 0x2F010000, [],
    [⟨"SEC", 0, 32, .ro, 0, 14, []⟩],
    []⟩,
  ⟨"RTC_SECHI", 0x2F010004, [],
    [⟨"SEC", 0, 16, .ro, 0, 14, []⟩],
    []⟩,
  ⟨"RTC_FRAC", 0x2F010008, [],
    [⟨"FRAC", 0, 15, .ro, 0, 14, []⟩],
    []⟩,
  ⟨"RTC_STAT", 0x2F01000C, [],
    [⟨"VALID", 0, 1, .ro, 0, 14, []⟩, ⟨"XSTOP", 1, 1, .ro, 0, 14, []⟩],
    []⟩,
  ⟨"RTC_CAL", 0x2F010010, [],
    [⟨"CAL", 0, 9, .rw, 0, 8, [(0, 0xFF), (0x101, 0x1FF)]⟩],
    []⟩,
  ⟨"RTC_SETHI", 0x2F010014, [],
    [⟨"SEC", 0, 16, .wo, 0, 8, []⟩],
    []⟩,
  ⟨"RTC_SETLO", 0x2F010018, [],
    [⟨"SEC", 0, 32, .wo, 0, 8, []⟩],
    []⟩]

/-- Registers TMP_CFGi to TMP_ERTIME (13_keys.md; R379). -/
def regsTMP0 : List RegRow := [
  ⟨"TMP_CFGi", 0x2F020000, [(8, 4)],
    [⟨"EN", 0, 1, .rw, 0, 1, []⟩, ⟨"POL", 1, 1, .rw, 1, 1, []⟩, ⟨"ERASE", 2, 1, .rw, 0, 1, []⟩, ⟨"FILT", 8, 8, .rw, 4, 1, [(1, 0xFF)]⟩],
    []⟩,
  ⟨"TMP_INT", 0x2F020020, [],
    [⟨"EN", 0, 3, .rw, 0, 1, []⟩],
    []⟩,
  ⟨"TMP_STAT", 0x2F020024, [],
    [⟨"PIN", 0, 8, .w1c, 0, 14, []⟩, ⟨"INT", 8, 3, .w1c, 0, 14, []⟩],
    []⟩,
  ⟨"TMP_ERCNT", 0x2F020028, [],
    [⟨"COUNT", 0, 16, .ro, 0, 14, []⟩],
    []⟩,
  ⟨"TMP_ERTIME", 0x2F02002C, [],
    [⟨"SEC", 0, 32, .ro, 0, 14, []⟩],
    []⟩]

/-- Registers BAT_STAT to BAT_CNT (19_island.md; R516). -/
def regsBAT0 : List RegRow := [
  ⟨"BAT_STAT", 0x2F030000, [],
    [⟨"VBAT", 0, 12, .ro, 0, 14, []⟩, ⟨"SRC", 12, 1, .ro, 0, 14, []⟩, ⟨"LOW", 13, 1, .ro, 0, 14, []⟩, ⟨"ABSENT", 14, 1, .ro, 0, 14, []⟩],
    []⟩,
  ⟨"BAT_TIME", 0x2F030004, [],
    [⟨"SEC", 0, 32, .ro, 0, 14, []⟩],
    []⟩,
  ⟨"BAT_CNT", 0x2F030008, [],
    [⟨"PERIODS", 0, 16, .ro, 0, 14, []⟩],
    []⟩]

/-- Registers DRY_CFG to DRY_LAST (15_storage.md; R442). -/
def regsDRY0 : List RegRow := [
  ⟨"DRY_CFG", 0x2F040000, [],
    [⟨"ICH", 0, 2, .rwl, 1, 1, [(0, 2)]⟩, ⟨"PDD", 4, 12, .rwl, 0x64, 1, [(0xA, 0xFFF)]⟩, ⟨"CHGTO", 16, 8, .rwl, 0xA, 1, [(1, 0xFF)]⟩],
    []⟩,
  ⟨"DRY_STAT", 0x2F040004, [],
    [⟨"PASS", 0, 1, .ro, 0, 14, []⟩, ⟨"DONE", 1, 1, .ro, 0, 14, []⟩, ⟨"PFAIL", 2, 1, .w1c, 0, 14, []⟩, ⟨"SHORT", 3, 1, .w1c, 0, 14, []⟩],
    []⟩,
  ⟨"DRY_CAP", 0x2F040008, [],
    [⟨"C", 0, 16, .ro, 0, 14, []⟩, ⟨"ESR", 16, 16, .ro, 0, 14, []⟩],
    []⟩,
  ⟨"DRY_ENERGY", 0x2F04000C, [],
    [⟨"EU", 0, 16, .ro, 0, 14, []⟩, ⟨"EREQ", 16, 16, .ro, 0, 14, []⟩],
    []⟩,
  ⟨"DRY_LAST", 0x2F040010, [],
    [⟨"US", 0, 16, .ro, 0, 14, []⟩, ⟨"UNITS", 16, 5, .ro, 0, 14, []⟩],
    []⟩]

/-- Registers SIL_CTL to SIL_CLR (06_metering.md; R190). -/
def regsSIL0 : List RegRow := [
  ⟨"SIL_CTL", 0x2F050000, [],
    [⟨"EN", 0, 1, .rwl, 0, 1, []⟩, ⟨"THR", 4, 8, .rwl, 0x14, 1, [(1, 0xFF)]⟩, ⟨"CONF", 12, 4, .rwl, 3, 1, [(1, 0xF)]⟩],
    []⟩,
  ⟨"SIL_STAT", 0x2F050004, [],
    [⟨"ACTIVE", 0, 1, .ro, 0, 14, []⟩, ⟨"LFWV", 1, 1, .ro, 0, 14, []⟩, ⟨"SUSP", 2, 1, .ro, 0, 14, []⟩, ⟨"BLOCKS", 16, 16, .ro, 0, 14, []⟩],
    []⟩,
  ⟨"SIL_AHp", 0x2F050010, [(3, 4)],
    [⟨"AH", 0, 32, .ro, 0, 14, []⟩],
    []⟩,
  ⟨"SIL_TOTAL", 0x2F05001C, [],
    [⟨"TOTAL", 0, 32, .ro, 0, 14, []⟩],
    []⟩,
  ⟨"SIL_CLR", 0x2F050020, [],
    [⟨"CLR", 0, 1, .wo, 0, 2, []⟩],
    []⟩]

/-- Every register of the address map (R530). -/
def regTable : List RegRow :=
  regsTSQ0 ++
  regsBNK0 ++
  regsPROC0 ++
  regsPRT0 ++ regsPRT1 ++
  regsQUE0 ++
  regsVAL0 ++ regsVAL1 ++
  regsDIR0 ++
  regsRPL0 ++
  regsBAL0 ++ regsBAL1 ++
  regsMTR0 ++ regsMTR1 ++
  regsNRG0 ++ regsNRG1 ++
  regsZCX0 ++
  regsCHG0 ++ regsCHG1 ++ regsCHG2 ++
  regsPLC0 ++
  regsPLK0 ++
  regsSER0 ++
  regsMBS0 ++
  regsRAD0 ++
  regsETH0 ++
  regsTIM0 ++ regsTIM1 ++ regsTIM2 ++
  regsSUP0 ++ regsSUP1 ++
  regsCIP0 ++ regsCIP1 ++
  regsKEY0 ++
  regsSIG0 ++
  regsRNG0 ++
  regsNND0 ++
  regsFTL0 ++ regsFTL1 ++
  regsEVR0 ++
  regsCFG0 ++
  regsUPD0 ++
  regsISL0 ++
  regsRTC0 ++
  regsTMP0 ++
  regsBAT0 ++
  regsDRY0 ++
  regsSIL0

/-- The rows that can answer in the 64 KiB window number `w` = address / 65,536 (R529). -/
def rowsOfWindow (w : Nat) : List RegRow :=
  if w = 0x2000 then regsTSQ0
  else if w = 0x2001 then regsBNK0
  else if w = 0x2002 then regsPROC0
  else if w = 0x2080 then regsPRT0 ++ regsPRT1
  else if w = 0x2100 then regsQUE0
  else if w = 0x2101 then regsVAL0 ++ regsVAL1
  else if w = 0x2102 then regsDIR0
  else if w = 0x2103 then regsRPL0
  else if w = 0x2104 then regsBAL0 ++ regsBAL1
  else if w = 0x2200 then regsMTR0 ++ regsMTR1
  else if w = 0x2201 then regsNRG0 ++ regsNRG1
  else if w = 0x2202 then regsZCX0
  else if w = 0x2203 then regsCHG0 ++ regsCHG1 ++ regsCHG2
  else if w = 0x2300 then regsPLC0
  else if w = 0x2301 then regsPLK0
  else if w = 0x2302 then regsSER0
  else if w = 0x2303 then regsMBS0
  else if w = 0x2304 then regsRAD0
  else if w = 0x2305 then regsETH0
  else if w = 0x2306 then regsTIM0 ++ regsTIM1 ++ regsTIM2
  else if w = 0x2307 then regsSUP0 ++ regsSUP1
  else if w = 0x2400 then regsCIP0 ++ regsCIP1
  else if w = 0x2401 then regsCIP0 ++ regsCIP1
  else if w = 0x2402 then regsKEY0
  else if w = 0x2403 then regsSIG0
  else if w = 0x2404 then regsRNG0
  else if w = 0x2500 then regsNND0
  else if w = 0x2501 then regsFTL0 ++ regsFTL1
  else if w = 0x2502 then regsEVR0
  else if w = 0x2503 then regsCFG0
  else if w = 0x2504 then regsUPD0
  else if w = 0x2F00 then regsISL0
  else if w = 0x2F01 then regsRTC0
  else if w = 0x2F02 then regsTMP0
  else if w = 0x2F03 then regsBAT0
  else if w = 0x2F04 then regsDRY0
  else if w = 0x2F05 then regsSIL0
  else []

end Sys2Proof.Machine
end

