-- ==== Sys2Proof/Machine/State.lean ====
section
/-!
DEFINITION. The machine's state: every register, memory, queue, buffer, counter, mode and pin that the manual gives the
SRX9640, and the queue of commands that wait.  Registers are kept by address in one file; what a unit keeps beside its
registers is a structure of its own, chapter by chapter.  Defaults of a structure are its values after a die reset or, for
the island, after an island power-on reset.
-/
namespace Sys2Proof.Machine

/-- Reasons for a fault.  No command of the manual stops the device, so no meaning raises one. -/
inductive Fault where
  /-- kept for the closed interface; raised by nothing (safe) -/
  | none
  deriving DecidableEq, Repr

/-- Reasons for a refusal. -/
inductive Refusal where
  /-- a command whose meaning is not modelled; raised by an arm of `exec` only (safe) -/
  | notModelled (mnemonic : String)
  deriving DecidableEq, Repr

/-! ### Ports and events -/

/-- Where bytes or levels leave the device. -/
inductive Port where
  | plc (p : Nat) | rs485 (n : Nat) | mbus (b : Nat) | radio (r : Nat) | uart (u : Nat)
  | eth (n : Nat) | udp (session : Nat) | svc | i2c | nand | nor | otp | pin (name : String)
  deriving DecidableEq, Repr

/-- An event as raised (R444-R449): code, raising subsystem, severity, the 12 data bytes, OPSEC and PCYC of its tick, and the
tick. -/
structure Ev where
  code  : Nat
  src   : Nat
  sev   : Nat
  data  : Nat
  opsec : Nat
  pcyc  : Nat
  tick  : Nat
  deriving DecidableEq, Repr

/-- An event record kept (R444): the event, its SEQ, further occurrences, the CRC when present, its place in the circle of the
EVENT region, whether a program has carried it (R454), whether a merge has changed it since (R455), and whether the head end
has been sent it as it now stands (R458). -/
structure EvRec where
  ev     : Ev
  seq    : Nat
  rep    : Nat := 0
  crc    : Option Nat := none
  place  : Nat := 0
  stored : Bool := false
  stale  : Bool := false
  sent   : Bool := false
  deriving DecidableEq, Repr

/-! ### Control cluster: tick sequencer, register bus, banks -/

/-- Where the tick stands (R37): held in die reset, or in one of its three phases.  The capture phase is over when its command has
been carried out. -/
inductive Phase where
  | held | capture | compute | commit
  deriving DecidableEq, Repr

/-- A register write that has been judged and waits for cycle 0 of the next tick (R14, R38, R532): the path it came by, the
owner code of the agent (R25), the register, the bits it writes and their values. -/
structure Staged where
  path  : Path
  agent : Nat
  addr  : Nat
  mask  : Word
  value : Word
  deriving DecidableEq, Repr

/-- An occurrence of the current tick that a W1C clear of the same tick must not remove (R534): a count by `n`, or the
capture of `vals` with the VALID flag `fld`. -/
inductive Occ where
  | count (fld : Fld) (n : Nat)
  | capture (fld : Fld) (vals : List (Fld × Nat))
  deriving DecidableEq, Repr

/-- A slot of a tick plan (R43). -/
structure Slot where
  exec   : Nat
  task   : Nat
  pexp   : Nat
  phase  : Nat
  budget : Nat
  deriving DecidableEq, Repr

/-- What the sequencer keeps for a slot of the running plan (R47, R49): work cut and not resumed, consecutive cut
activations, whether the persistent-overrun event has been raised since the last completed activation, the tick after
the last activation, and the cycles of an activation under way that will not finish within its budget. -/
structure SlotRun where
  cutWork : Nat := 0
  cuts    : Nat := 0
  raised  : Bool := false
  lastAct : Nat := 0
  overrun : Option Nat := none
  deriving DecidableEq, Repr

/-- The tick sequencer (R36-R49). -/
structure Tsq where
  /-- the tick number (R39) -/
  tick    : Nat := 0
  /-- control-clock cycles of the current tick (R36) -/
  len     : Nat := 31250
  /-- device time left over from the whole cycles of past ticks, in 2^-49 ns (R36, R276) -/
  rem     : Nat := 0
  /-- where the divider of the control clock that gives the PLC samples stands at cycle 0 of the current tick (R192) -/
  div     : Nat := 0
  /-- plan in force, and the next one once proven (R46) -/
  plan    : List Slot := []
  newPlan : Option (List Slot) := none
  /-- the tick in which the next plan was proven -/
  proven  : Nat := 0
  runs    : SMap SlotRun := []
  /-- first free cycle of each executor in this tick (R44) -/
  busy    : SMap Nat := []
  /-- the tick in which each processor last completed one of its slots (R496) -/
  alive   : SMap Nat := []
  deriving DecidableEq, Repr

/-- The bank fabric (R24-R34) beside the BNK_ registers. -/
structure Bnk where
  /-- banks whose handover drain runs, with the old owner (R28) -/
  drain   : SMap Nat := []
  /-- banks waking: the tick from which READY reads 1, and whether the wake-up zero-fills (R29) -/
  wake    : SMap (Nat × Bool) := []
  /-- byte symbols in error of the lines known to be damaged, by line number (R30) -/
  damage  : SMap Nat := []
  /-- corrected lines that the port has still to write back (R30) -/
  wback   : List Nat := []
  /-- next line of each bank that the scrubber reads, and the lines not scrubbed in their tick (R33) -/
  scrubAt : SMap (Nat × Nat) := []
  /-- the tick after the last one in which the scrubber ran -/
  scrubbed : Nat := 0
  /-- the data last returned on port 0 and port 1 (R34) -/
  rd0     : List Byte := []
  rd1     : List Byte := []
  deriving DecidableEq, Repr

/-! ### Record cluster: queues -/

/-- A record in a queue: its bytes and the tick in which its frame committed (R51, R81). -/
structure QRec where
  data : Rec
  tick : Nat
  deriving DecidableEq, Repr

/-- An open frame (R79-R83): FCNT, the words written so far, the deadline tick, whether a cipher job is to commit it (R349). -/
structure Frame where
  fcnt     : Nat
  words    : List Rec
  deadline : Nat
  byJob    : Bool := false
  /-- its number among the frames of the queue, by which a cipher job knows the frame it opened on (R349, R350) -/
  num      : Nat := 0
  deriving DecidableEq, Repr

/-- One record queue (R76-R91).  In RING mode the records lie in SRAM and only the frame and the marks are used. -/
structure Queue where
  head    : List QRec := []
  /-- commit ticks of the records in the spill area, oldest first, and the place of the oldest (R77, R78) -/
  spill   : List Nat := []
  spillAt : Nat := 0
  tail    : List QRec := []
  frame   : Option Frame := none
  /-- records at the queue head that the snapshot of this tick lets admission take (R96) -/
  snap    : Nat := 0
  /-- commit ticks of the records of a ring, oldest first (R85, R51) -/
  ring    : List Nat := []
  /-- a word has been discarded since the last frame was opened: the error reported to the source (R83) -/
  late    : Bool := false
  /-- frames opened so far -/
  opened  : Nat := 0
  /-- a FENCE record at the head waits (R55) -/
  fenced  : Bool := false
  deriving DecidableEq, Repr

/-! ### Record cluster: validation -/

/-- A (domain, epoch) pair of the heart-note table and its Heart note once derived (R109, R111). -/
structure Heart where
  dom   : Nat
  epoch : Nat
  note  : Option (List Byte)
  deriving DecidableEq, Repr

/-- A validator lane (R94, R97, R121): the METER it holds and the validation cycle at which its verdict leaves, the queue served
last, the first tick in which it admits again after a fault, the next slot of this tick, this tick's taken records and unused
slots. -/
structure Lane where
  held   : Option (Nat × Nat) := none
  last   : Nat := 31
  resume : Nat := 0
  next   : Nat := 0
  taken  : Nat := 0
  idle   : Nat := 0
  deriving DecidableEq, Repr

/-- Who waits for the verdicts of a frame it delivered (R116): a PLC port or bus with the meter's address and DSEQ, a radio
with those of an unprompted reply, or a SUP session with the record number. -/
inductive Waiter where
  | plc (port addr dseq : Nat) | radio (port addr dseq : Nat) | sup (session recno : Nat)
  deriving DecidableEq, Repr

/-- The records of a delivered frame with the verdict words issued for them so far. -/
structure Waiting where
  who   : Waiter
  queue : Nat
  recs  : List (Rec × Option Nat)
  deriving DecidableEq, Repr

/-- The validation pipeline beside the VAL_, DIR_ and RPL_ registers. -/
structure Val where
  lanes    : SMap Lane := []
  hearts   : List Heart := []
  /-- next directory entry of a fill under way (R111) -/
  fill     : Option Nat := none
  /-- notes still to be derived again after a write of the selected root (R364) -/
  rederive : Bool := false
  /-- the first ticks whose command windows have still to scan entries and to derive notes (R111, R364) -/
  scanFrom   : Nat := 0
  deriveFrom : Nat := 0
  /-- records to be forwarded that the head-end protocol engine has not accepted yet: queue, record, verdict word (R116) -/
  fwd      : List (Nat × Rec × Nat) := []
  /-- delivered frames whose source waits for verdicts (R116) -/
  waits    : List Waiting := []
  /-- directory command latched by DIR_CMD (R125): OP, the four arguments, the tick of its window -/
  dirCmd   : Option (Nat × Nat × Nat × Nat × Nat × Nat) := none
  /-- next replay line that a window zeroing writes (R128) -/
  zeroAt   : Nat := 0
  deriving DecidableEq, Repr


/-! ### Balance engine -/

/-- Sums of one column of an open interval (R137, R143), in 0.1 Wh and counts. -/
structure BCol where
  fImp : Nat := 0
  fExp : Nat := 0
  i2t  : Nat := 0
  mImp : Nat := 0
  mExp : Nat := 0
  cov  : Nat := 0
  tamper   : Nat := 0
  consexp  : Nat := 0
  rept     : Nat := 0
  mismatch : Nat := 0
  sat  : Bool := false
  deriving DecidableEq, Repr

/-- An open interval (R144): number, flags, the tick its feeder values start, the tick they end, its columns at 4g + c. -/
structure Intv where
  n       : Nat
  broken  : Bool := false
  stepped : Bool := false
  charge  : Bool := false
  t0      : Nat
  t1      : Option Nat := none
  cols    : SMap BCol := []
  deriving DecidableEq, Repr

/-- The balance engine beside the BAL_ registers (R134-R154). -/
structure Bal where
  /-- intervals open, oldest first; the last one opened -/
  ivs     : List Intv := []
  last    : Option Nat := none
  /-- coverage bits at 65,536 × place + entry index (R142) -/
  cover   : SMap Bool := []
  reports : List (List Byte) := []
  /-- the last boundary tick (R135) -/
  bound   : Option Nat := none
  /-- intervals that a step has flagged and that are not open yet (R135) -/
  marks   : List Nat := []
  /-- the numbering was kept by the last restart (R146) -/
  kept    : Bool := false
  /-- the Sillage estimate that the first report of group 0 is to carry (R152) -/
  sil     : Option Nat := none
  deriving DecidableEq, Repr


/-! ### Grid cluster: metering and zero crossings -/

/-- A cycle under way (R169, R171): energy in units of 125 pJ, sum of squared current in mA^2 ticks, its ticks so far. -/
structure Cycle where
  e     : Int := 0
  i2    : Nat := 0
  ticks : Nat := 0
  deriving DecidableEq, Repr

/-- Sums over a device second (R168): samples, squares of channel c at c, power of phase p of group g at 4g + p, squares of
the phase-current sum of group g. -/
structure SecSums where
  n    : Nat := 0
  sq   : SMap Nat := []
  pwr  : SMap Int := []
  isum : SMap Nat := []
  deriving DecidableEq, Repr

/-- A pulse output (R181): its accumulator, whether a pulse starts at the next tick, the tick of the last start, its level. -/
structure Pulse where
  acc    : Int := 0
  ready  : Bool := false
  start  : Option Nat := none
  active : Bool := false
  /-- the tick before which PRT_PJIT holds the next pulse back (R522) -/
  hold   : Nat := 0
  deriving DecidableEq, Repr

/-- A zero-crossing instance (R213-R215).  Instants are in 2^-16 ns of elapsed device time.  `prev` is the last sample with its
input instant, `cand` a candidate under confirmation with the samples seen since the sign change, `conf` the confirmed
candidates (instant, positive-going), `lock` the prediction, its polarity and H, `prior` the prediction before it, `acq` the candidates of an
acquisition. -/
structure Zc where
  prev : Option (Int × Int) := none
  cand : Option (Int × Bool × Nat) := none
  conf : List (Int × Bool) := []
  lock : Option (Int × Bool × Int) := none
  prior : Int := 0
  acq  : List (Int × Bool) := []
  /-- number of the predicted half-cycle -/
  n    : Nat := 0
  /-- last reported positive-going crossing and the one before it, for R182 -/
  pos  : Option Int := none
  pos2 : Option Int := none
  deriving DecidableEq, Repr

/-- The metering front end (R157-R187) beside the MTR_ and NRG_ registers.  Phase p of group g has the key 4g + p. -/
structure Mtr where
  started : Bool := false
  seen    : Nat := 0
  /-- offset-corrected samples of the last two ticks, newest first, by channel -/
  x1      : SMap Int := []
  x1b     : SMap Int := []
  /-- corrected samples of the current tick (R163) -/
  xs      : SMap Int := []
  /-- input instants: starts of this tick and the three before it, newest first, 2^-16 ns -/
  inst    : List Int := []
  /-- temperature factor of each group times 10^10, less 10^10 (R164) -/
  fac     : SMap Int := []
  boardAt : Option Nat := none
  board   : Int := 0
  /-- device second, plus 1, of the last clip event by channel (R162) -/
  clipSec : SMap Nat := []
  cycles  : SMap Cycle := []
  /-- interval-start values of the cumulative registers, import at 2k and export at 2k + 1 (R173) -/
  base    : SMap Nat := []
  /-- the interval that the interval-start values belong to, and the tick they were taken in (R146) -/
  baseN   : Nat := 0
  baseT   : Nat := 0
  /-- cycles that closed in this tick, which enter their registers in its commit phase (R173): group, phase, energy, I2T -/
  due     : List (Nat × Nat × Int × Nat) := []
  /-- I2T of the current interval with its carried remainder, mA^2 ticks -/
  i2acc   : SMap Nat := []
  sec     : SecSums := {}
  done    : Option SecSums := none
  /-- phase sequence: class of the last L1 cycles and how many in a row (0 correct, 1 reversed, 2 absent; R182) -/
  seqRun  : SMap (Nat × Nat) := []
  /-- seconds in a row that meet, or do not meet, the neutral condition (R183) -/
  neutRun : SMap (Bool × Nat) := []
  pulses  : SMap Pulse := []
  zc      : SMap Zc := []
  saveAt  : Nat := 0
  deriving DecidableEq, Repr

/-- Sillage watch (R184-R187): windows of the current block, the sums of |i| by phase in mA, the sums of the counting blocks
in a row, and the remainders of the mAh registers. -/
structure Sil where
  window : Nat := 0
  sums   : List Nat := [0, 0, 0]
  run    : List (List Nat) := []
  rem    : List Nat := [0, 0, 0]
  remT   : Nat := 0
  deriving DecidableEq, Repr

/-! ### Power-line ports -/

/-- A frame being transmitted (R197, R209): MOD and PSDU, the bursts still to start, each a list of symbols, the half-cycle of
the next one and its number, the symbols of the running burst still to be sent with the instant of the next, the instant at which the
last one that started ends, the bursts of this frame that are dropped, bit b for burst b (R522).  A symbol is its 45 phase steps in units of π/4; [8] is the
preamble symbol P and [9] the sync symbol S. -/
structure PlcTx where
  mod    : Nat
  psdu   : List Byte
  bursts : List (List (List Nat))
  hc     : Nat
  idx    : Nat := 0
  cur    : List (List Nat) := []
  next   : Int := 0
  ends   : Int := 0
  drop   : Nat := 0
  deriving DecidableEq, Repr

/-- A frame being received (R211, R212, R217): the half-cycle of burst 0, the tick in which the frame is seen, the deviation of burst 0
from its expected start, the reference power and the 6 dB steps it has followed since, the header once decoded, the payload symbols
erased in burst 1, the bursts of this frame that are dropped (R522), the frame that a loopback feeds in (R523), and whether the link layer
drops it for its length (R232). -/
structure PlcRx where
  hc   : Nat
  seen : Nat
  dev  : Int := 0
  ref  : Nat := 0
  step : Int := 0
  era  : Nat := 0
  air  : Option (Nat × List Byte) := none
  long : Bool := false
  head : Option (Nat × Nat) := none
  drop : Nat := 0
  deriving DecidableEq, Repr

/-- A passed frame (R219): PSDU, MOD, SNR and erased symbols, the half-cycle of burst 0, its burst count, the tick it was seen. -/
structure PlcFrame where
  psdu   : List Byte
  mod    : Nat
  snr    : Nat
  erased : Nat
  hc     : Nat
  bursts : Nat
  seen   : Nat
  deriving DecidableEq, Repr

/-- A PLC port: transmission, reception, frames whose last burst has ended and that wait for their decoding, the frame that waits for
the link layer, whether the last request was refused, the frames that PRT_PLCDROP still affects, the frame that a loopback feeds to this
port (R523), and the instant until which TXEN stays asserted (R221). -/
structure PlcPort where
  tx      : Option PlcTx := none
  rx      : Option PlcRx := none
  done    : List PlcRx := []
  inbox   : Option PlcFrame := none
  refused : Bool := false
  drops   : Nat := 0
  air     : Option (Nat × List Byte) := none
  txen    : Option Int := none
  deriving DecidableEq, Repr


/-! ### Palx link -/

/-- What a slot awaits (R230, R232): DATA or ACK of a poll, the map of a campaign, the answer to a DOWN fragment (message slot). -/
inductive SlotKind where
  | poll | map | down (slot : Nat)
  deriving DecidableEq, Repr

/-- A reply slot that a master awaits (R232, R235, R244): the meter and the address whose reply it takes, its first half-cycle and
its length in bursts, whether it is relayed, and whether a sync was seen in time. -/
structure Await where
  meter : Nat
  addr  : Nat
  start : Nat
  len   : Nat
  kind  : SlotKind
  rly   : Bool := false
  seen  : Bool := false
  deriving DecidableEq, Repr

/-- A firmware campaign (R249): image, block count, blocks still to broadcast in this pass, meters still to ask for a map, and
the blocks that their maps report missing. -/
structure Camp where
  img  : Nat
  cnt  : Nat
  next : List Nat
  ask  : List Nat := []
  miss : List Nat := []
  deriving DecidableEq, Repr

/-- What the last BEACON of the upstream master gave (R245): M, ORIGIN, device time in seconds and milliseconds, interval number,
beacon period, time valid. -/
structure Beacon where
  m      : Nat
  origin : Nat
  sec    : Nat
  ms     : Nat
  cur    : Nat
  per    : Nat
  valid  : Bool
  deriving DecidableEq, Repr

/-- Where a record that goes upstream stands: a ledger entry by its LSN, or the forwarding buffer by its number (R318, R320). -/
inductive RecSrc where
  | led (lsn : Nat) | fwd (k : Nat)
  deriving DecidableEq, Repr

/-- The link layer of a port beside its PLK_ registers (R227-R250). -/
structure Plk where
  /-- next directory index of the sweep, its first tick, a sweep that waits for its end, the last boundary counted -/
  cursor  : Nat := 0
  sweepAt : Nat := 0
  again   : Bool := false
  counted : Nat := 0
  /-- meters to poll again in this round, and those missed in it; the round's first tick -/
  retry   : List Nat := []
  missed  : List Nat := []
  roundAt : Nat := 0
  seq     : Nat := 0
  slots   : List Await := []
  /-- acknowledgements waiting: address and DSEQ -/
  acks    : List (Nat × Nat) := []
  /-- meters sent a NACK in this round -/
  nacked  : List Nat := []
  /-- frames that wait for their transmission: MOD, first half-cycle, PSDU -/
  sendq   : List (Nat × Nat × List Byte) := []
  /-- trains since the last DOWN exchange -/
  trains  : Nat := 0
  /-- first half-cycle in which the master may start a frame (R231) -/
  free    : Nat := 0
  bcnAt   : Option Nat := none
  bcnN    : Nat := 0
  /-- the BEACON due since the port became READY has been sent -/
  greeted : Bool := false
  /-- the join slots of the last DISCOVER: first half-cycle, number, length -/
  joins   : Option (Nat × Nat × Nat) := none
  /-- last half-cycle of the last join answer (R247) -/
  jack    : Nat := 0
  /-- a relayed DISCOVER due, the directory index of the last relay that repeated one, and its join slot: relay address, first
  half-cycle, length (R244) -/
  rdisc   : Bool := false
  rlast   : Nat := 0
  rjoin   : Option (Nat × Nat × Nat) := none
  camp    : Option Camp := none
  /-- SLAVE: MOD, DSEQ of the last DATA, record sets of the last four DATA frames by DSEQ, records sent and held (R239), last BEACON and its
  tick, the NET of a JOIN -/
  mod     : Nat := 1
  dseq    : Nat := 0
  sets    : List (Nat × List RecSrc) := []
  held    : List RecSrc := []
  beacon  : Option Beacon := none
  upAt    : Nat := 0
  joinNet : Option Nat := none
  /-- SLAVE: the image and block count of the campaign heard with the blocks received (R249), and a key error to report (R240) -/
  image   : Option (Nat × Nat × List (Nat × List Byte)) := none
  keyErr  : Bool := false
  deriving DecidableEq, Repr


/-! ### Wired buses, radio, UARTs -/

/-- The outstanding request of a bus (R257, R260): meter, short address, RMAX, deadline tick; for M-Bus whether it was SND_NKE. -/
structure BusReq where
  meter    : Nat
  addr     : Nat
  rmax     : Nat
  deadline : Nat
  nke      : Bool := false
  deriving DecidableEq, Repr

/-- An acknowledgement owed on a bus (R256, R258, R262): address, DSEQ, and whether it answers an unprompted reply. -/
structure BusAck where
  addr : Nat
  dseq : Nat
  only : Bool := false
  deriving DecidableEq, Repr

/-- A reply under way on a bus (R258, R260): the bytes in its reply buffer, the tick in whose capture phase its first character was seen, and
the tick of its last. -/
structure Reply where
  bytes : List Byte
  first : Nat
  last  : Nat
  deriving DecidableEq, Repr

/-- A meter bus or radio by its serving-port code (R104, R257-R262): sweep, retries, the outstanding request, acknowledgements,
the reply under way, the end of a silence (R266), the tick in which an RS-485 driver is released (R255); M-Bus: slaves that have had
SND_NKE, those whose wrap counter has been raised since the die reset, those whose FCB is 1; radio: script loaded, what is left of one
that is being loaded with the tick in which it goes on, unprompted frames taken in this tick and those that wait in the transceiver. -/
structure Bus where
  on      : Bool := false
  cursor  : Nat := 0
  again   : Bool := false
  counted : Nat := 0
  retry   : List Nat := []
  missed  : List Nat := []
  req     : Option BusReq := none
  acks    : List BusAck := []
  reply   : Option Reply := none
  silent  : Option Nat := none
  drive   : Option Nat := none
  nke     : List Nat := []
  raised  : List Nat := []
  fcb     : List Nat := []
  loaded  : Bool := false
  script  : Option (List Byte × Nat) := none
  taken   : Nat := 0
  held    : List (List Byte) := []
  /-- the last request ended with no reply in time, so that one may still come late (R257) -/
  lateOk  : Bool := false
  /-- telegrams that wait, by METER, while the test interface holds the directory (R261, R524) -/
  grams   : List (Nat × List Byte) := []
  deriving DecidableEq, Repr

/-- The modem link of a UART (R263, R299): AT start-up; LCP; the network control protocol; open. -/
inductive PppStage where
  | dial | lcp | ncp | opened
  deriving DecidableEq, Repr

/-- PPP on a UART in MODEM role (RFC 1661, RFC 1662, RFC 1332, RFC 5072): its stage, the Identifier of the last request sent, whether the own
and the peer's configuration of the stage are agreed, the address or interface identifier that the modem has given, and the tick of the
last Echo-Request sent. -/
structure Ppp where
  stage : PppStage := .dial
  id    : Nat := 0
  mine  : Bool := false
  peer  : Bool := false
  addr  : List Byte := []
  sent  : Option Nat := none
  /-- the modem has rejected the option that asks for the address -/
  bare  : Bool := false
  deriving DecidableEq, Repr

/-- A UART (R263-R266): tick of the last token line, of the last PPP echo reply or link start, CTS asserted, bytes that wait for
CTS, device second of the last display line, the receive buffer of a modem, its PPP link. -/
structure Uart where
  lineAt : Option Nat := none
  echoAt : Nat := 0
  cts    : Bool := true
  wait   : List (List Byte) := []
  shown  : Option Nat := none
  rx     : List Byte := []
  ppp    : Ppp := {}
  deriving DecidableEq, Repr

/-! ### Ethernet and the time unit -/

/-- An entry of the transmit timestamp queue (R287). -/
structure TsEntry where
  port  : Nat
  mtype : Nat
  seq   : Nat
  gen   : Nat
  sec   : Nat
  ns    : Nat
  deriving DecidableEq, Repr

/-- A step requested in this tick (R279, R280): the requester (0 firmware, 1 path H, 2 path T, 3 test block), seconds and
nanoseconds. -/
structure StepReq where
  who : Nat
  sec : Int
  ns  : Int
  deriving DecidableEq, Repr

/-- The IEEE 1588 exchange of a slave (R284, R285): selected master, the tick of its last Announce, or in which the wait for one began; the
last Sync: sequence, origin time if known, receive time, correction, GEN; the last Delay_Req: sequence, transmit time, GEN.  Times in
2^-16 ns. -/
structure Ptp where
  master  : Option Nat := none
  annAt   : Nat := 0
  syncSeq : Nat := 0
  t1      : Option Int := none
  t2      : Option Int := none
  syncGen : Nat := 0
  reqSeq  : Nat := 0
  t3      : Option Int := none
  reqGen  : Nat := 0
  /-- sequence numbers of the next Sync, Announce and Delay_Req sent -/
  nSync   : Nat := 0
  nAnn    : Nat := 0
  nReq    : Nat := 0
  /-- ticks in which the last Sync, Announce and Delay_Req were sent (R283) -/
  atSync  : Option Nat := none
  atAnn   : Option Nat := none
  atReq   : Option Nat := none
  deriving DecidableEq, Repr

/-- The time unit beside the TIM_ registers (R274-R295).  Device time is kept in units of 2^-49 ns. -/
structure Tim where
  /-- device time at the start of the current tick -/
  start   : Nat := 0
  /-- the addend in force: 2^-48 ns for each cycle of the time clock, 2^-49 ns for each control-clock cycle (R275) -/
  addend  : Nat := 2 ^ 51
  /-- the addend with which the current tick runs: a pair committed takes over at cycle 0 of the next (R14, R275) -/
  rate    : Nat := 2 ^ 51
  /-- staged seconds of each requester (R279), and the requests of this tick -/
  stepS   : SMap Int := []
  reqs    : List StepReq := []
  /-- a step has been applied in this commit phase: the old timescale, with its GEN, runs to the end of the tick (R280) -/
  stepping : Bool := false
  /-- an anchor to be taken in the next capture phase: its cause (R294) -/
  anchor  : Option Nat := none
  /-- the servo: last offsets in ns, newest first; offsets in a row within and above LOCKTHR (R279, R282) -/
  offs    : List Int := []
  good    : Nat := 0
  bad     : Nat := 0
  ptp     : Ptp := {}
  tsq     : List TsEntry := []
  /-- armed outputs: first and next compare time of a line, in ns (R289) -/
  trig    : SMap (Nat × Nat) := []
  /-- the step that takes effect at cycle 0 of the next tick, in 2^-49 ns (R280) -/
  jump    : Int := 0
  /-- ADDLO as staged (R275) -/
  addLo   : Nat := 0
  /-- last accepted PPS_IN edge, as an instant of elapsed device time in 2^-16 ns, and the tick in which it was seen, or in which the wait
  for one began (R292) -/
  pps     : Option Int := none
  ppsAt   : Nat := 0
  /-- times of the event messages and edges that wait in `lateIn`, in the same order: timestamp, elapsed instant, GEN (R38, R285, R291) -/
  marks   : List (Int × Int × Nat) := []
  /-- the RTC is to be written at the next whole second: VALID has set, or the head end has stepped with SRC = FREE (R295) -/
  rtcDue  : Bool := false
  deriving DecidableEq, Repr

/-- A frame in a transmit buffer (R273): its bytes, and for an event message its messageType and sequenceId, by which its timestamp is
taken as it leaves (R286, R287). -/
structure TxFrame where
  bytes : List Byte
  event : Option (Nat × Nat) := none
  deriving DecidableEq, Repr

/-- An Ethernet port beside its ETH_ registers (R272, R273, R299): frames in its receive and transmit buffers, whether a PAUSE stops
transmission, the link addresses of neighbours by their IP address, and IP packets that wait for the link address of their next hop. -/
structure Eth where
  rx    : List (List Byte) := []
  tx    : List TxFrame := []
  pause : Bool := false
  nbr   : List (List Byte × List Byte) := []
  hold  : List (List Byte × List Byte) := []
  deriving DecidableEq, Repr


/-! ### Head-end protocol -/

/-- A message of the downlink store (R328): slot, METER, identifier, class, fragment byte, body, misses so far, the round of the
last miss, whether its failure has been reported, and whether its meter has acknowledged the fragment. -/
structure DlMsg where
  slot   : Nat
  meter  : Nat
  id     : Nat
  cls    : Nat
  frag   : Nat
  body   : List Byte
  tries  : Nat := 0
  tried  : Nat := 0
  failed : Bool := false
  done   : Bool := false
  deriving DecidableEq, Repr

/-- A record in the forwarding buffer (R318): its number, the tick in which it was gathered, its place of 64 bytes in the bank. -/
structure FwdRec where
  k    : Nat
  tick : Nat
  slot : Nat
  deriving DecidableEq, Repr

/-- What an ALARM item carries (R154, R321, R426, R458): an event record by its SEQ, the ledger's REPORT entry by its LSN, or, while storage
writes no ledger, the oldest report of the queue. -/
inductive ItemSrc where
  | ev (seq : Nat) | rep (lsn : Nat) | oldest
  deriving DecidableEq, Repr

/-- A SUP session (R301-R322): the model's number for it, SESSION, whether it is the UPLINK, whether it is established or half-open,
the peer's address bytes, port, interface and SERIAL, its sending and receiving page, the receive window of R305, the ticks of
opening and of the last message each way. -/
structure Sess where
  num     : Nat
  id      : Nat
  up      : Bool
  est     : Bool
  addr    : List Byte
  port    : Nat
  iface   : Nat
  serial  : List Byte
  tx      : Nat
  rx      : Nat
  high    : Nat := 0
  seen    : Nat := 0
  openAt  : Nat
  rxAt    : Nat
  txAt    : Nat
  /-- sending: number of the first unacknowledged record and item, the unacknowledged ones in order (R315, R321), what the ACK with
  the highest SEQ gave, the retransmission waits in ticks and the ticks from which they run -/
  ackr    : Nat := 0
  recs    : List (RecSrc × Rec) := []
  acka    : Nat := 0
  items   : List (ItemSrc × List Byte) := []
  window  : Nat := 18
  ackSeq  : Nat := 0
  rto     : Nat := 0
  rtoAt   : Nat := 0
  rtoA    : Nat := 0
  rtoAAt  : Nat := 0
  /-- receiving: the record number expected, the ACKR and ACKA that an ACK tells, records that have their verdict and wait for a
  fence (how many, its number), the tick by which an ACK that is due must leave, the tick of the last ACK (R316, R317) -/
  rnext   : Nat := 0
  rackr   : Nat := 0
  racka   : Nat := 0
  await   : List (Nat × Nat) := []
  ackDue  : Option Nat := none
  ackedAt : Option Nat := none
  deriving DecidableEq, Repr

/-- An initiator's phase 1 that awaits its phase 2 (R307, R311): ephemeral key, nonce, the message, its tick. -/
structure Hello where
  d     : List Byte
  nonce : List Byte
  msg   : List Byte
  sent  : Nat
  deriving DecidableEq, Repr

/-- A request of the head end (R322, R324): session, TYPE, REQID, SEQ, body; once started, the response with the places that the next
capture phase fills, and the tick of that phase. -/
structure Req where
  sess  : Nat
  ty    : Nat
  reqid : Nat
  seq   : Nat
  body  : List Byte
  started : Bool := false
  resp  : List Byte := []
  due   : Nat := 0
  /-- the directory items of a management message that firmware has still to issue, and the one under way (R324) -/
  dirs  : List Nat := []
  cur   : Option Nat := none
  deriving DecidableEq, Repr

/-- The head-end protocol beside the SUP_ registers: sessions and the number of the next one, the phase 1 that awaits its phase 2,
the wait of the current attempt in ticks (R311), the forwarding buffer and its next number (R318), the tick at which the batch
timer last started and the LSN below which its records are to be sent (R315), requests, the last 16 responses, datagrams
delivered and not yet taken, each with the tick in whose capture phase it is seen (R51, R272), the downlink store (R328), the activation
under way: session, REQID, identifier, fence (R327), and the SUP peer section in force: SERIAL and public key (R309). -/
structure Sup where
  sess  : List Sess := []
  next  : Nat := 0
  hello : Option Hello := none
  wait  : Nat := 16000
  fbuf  : List FwdRec := []
  fnext : Nat := 0
  batch : Nat := 0
  batchTo : Nat := 0
  reqs  : List Req := []
  cache : List (Nat × Nat × List Byte) := []
  inbox : List (Dgram × Nat) := []
  dls   : List DlMsg := []
  activate : Option (Option (Nat × Nat) × Nat × Nat) := none
  peers : List (List Byte × List Byte) := []
  deriving DecidableEq, Repr


/-! ### Security cluster -/

/-- A cipher page beside its registers (R334-R350): key, salt, next session counter, the running job, a load that waits for
its end (key, salt), the tag of the last generation, the queue and withheld words of a VERIFIED queue job. -/
structure Page where
  key  : List Byte := []
  salt : List Byte := []
  ctr  : Nat := 1
  busy : Bool := false
  spent : Bool := false
  /-- the counter issued for the running job (R344) -/
  issued : Nat := 0
  load : Option (List Byte × List Byte) := none
  tag  : List Byte := []
  held : Option (Nat × List Rec) := none
  /-- the frame of the queue destination of the last job (R349, R350) -/
  frame : Option Nat := none
  deriving DecidableEq, Repr

/-- A counter slot of the key store (R354, R346): salt, stored mark, generation, validity. -/
structure CtrSlot where
  salt  : List Byte := []
  mark  : Nat := 0
  gen   : Nat := 0
  valid : Bool := false
  deriving DecidableEq, Repr

/-- The key store of the island (R354): identity d and Q, the three Base notes, HEVK, counter slots, storage note. -/
structure KeyStore where
  ident : Option (List Byte × List Byte) := none
  rootT : Option (List Byte) := none
  rootF : Option (List Byte) := none
  rootR : Option (List Byte) := none
  hevk  : Option (List Byte) := none
  note  : Option (List Byte) := none
  slots : SMap CtrSlot := []
  deriving DecidableEq, Repr

/-- The fuses that are programmed in the field (R358): transition count, END, AHM_k and AHF_k, an empty hash not programmed. -/
structure Otp where
  t   : Nat := 0
  fin : Bool := false
  ahm : SMap (List Byte) := []
  ahf : SMap (List Byte) := []
  deriving DecidableEq, Repr

/-- Where a KEY_UPDATE came from and where its response goes (R367): the SVC port with its request number, or a SUP session with
its own. -/
inductive KupSrc where
  | svc (req : Nat) | sup (session req : Nat)
  deriving DecidableEq, Repr

/-- A KEY_UPDATE message that waits for its processing, with the tick of its arrival (R367). -/
structure KupMsg where
  src  : KupSrc
  msg  : List Byte
  tick : Nat
  deriving DecidableEq, Repr

/-- The KEY_UPDATE unit (R367, R370): the accepted message that waits for its commit, the messages that wait behind it, what the fuses
being programmed are to hold and whether they are those of a TRANSITION, and the tick in which those of a TRANSITION verified. -/
structure Kup where
  accepted : Option (KupSrc × List Byte) := none
  item     : List Byte := []
  waiting  : List KupMsg := []
  fusing   : Option (Otp × Bool) := none
  transAt  : Option Nat := none
  deriving DecidableEq, Repr

/-- A key load that a write of KEY_LDCMD asks for and that is decided in the next tick (R365). -/
structure KeyLoad where
  agent   : Nat
  page    : Nat
  purpose : Nat
  gen     : Nat
  deriving DecidableEq, Repr

/-- The security cluster beside its registers: pages, next counters of the slots, the KEY_UPDATE unit, and the good noise
samples in a row after a failed health test (R380). -/
structure Sec where
  pages : SMap Page := []
  next  : SMap Nat := []
  kup   : Kup := {}
  /-- loads asked for in the last commit (R365) -/
  loads : List KeyLoad := []
  /-- the identity generation of step 5 waits for the TRNG (R360, R380) -/
  identWait : Bool := false
  deriving DecidableEq, Repr


/-! ### Charging controller -/

/-- A tariff table (R404): identifier, FEE, PKWH, PHOUR. -/
structure TariffT where
  id    : Nat := 0
  fee   : Nat := 0
  pkwh  : Nat := 0
  phour : Nat := 0
  deriving DecidableEq, Repr

/-- An account (R406): token, tariff index, blocked, balance in thousandths, number of the last credit transfer. -/
structure Acct where
  token   : List Byte
  tariff  : Nat
  blocked : Bool
  bal     : Int
  xfer    : Nat
  deriving DecidableEq, Repr

/-- What an ended session leaves until its record is made (R405): duration in seconds, amount, tariff identifier, STAMP, and the
tick in which it ended. -/
structure EndedSession where
  dur    : Nat
  amount : Nat
  tariff : Nat
  stamp  : Nat
  tick   : Nat
  deriving DecidableEq, Repr

/-- An outlet beside its registers (R386-R401). -/
structure Outlet where
  /-- ticks of authorisation and of entering AUTH, tariff table of the session -/
  authAt  : Nat := 0
  inAuth  : Nat := 0
  table   : TariffT := {}
  /-- ticks: K asserted, the offer last changed, the PWM stopped -/
  kAt     : Option Nat := none
  offerAt : Option Nat := none
  stopAt  : Option Nat := none
  /-- the last close was the first of its session (R403, R409) -/
  kFirst  : Bool := false
  /-- the +12 V of a measurement in FAULT, since when (R399) -/
  measAt  : Option Nat := none
  /-- K has been asserted throughout the device second so far, and was throughout the last one -/
  kAll    : Bool := false
  kSec    : Bool := false
  /-- contacts that must follow: K asserted or removed, and when (R389) -/
  check   : Option (Bool × Nat) := none
  /-- the lock is driven, and since when its feedback is awaited (R390) -/
  lock    : Bool := false
  lockAt  : Option Nat := none
  shuntAt : Option Nat := none
  /-- self-test: its first tick, the DC read at the end of the injection, whether the open session has passed one (R393) -/
  test    : Option Nat := none
  inj     : Option Int := none
  passed  : Bool := false
  /-- trip logic (R392): ticks in a row that meet rows 1 to 5, ticks of the trips of the last hour, latch; comparator (R394) -/
  runs    : List Nat := [0, 0, 0, 0, 0]
  /-- residual current of the last 80 ticks, newest first: mean, mean square, test current of the outlet's own winding (R392, R393) -/
  win     : List (Int × Nat × Int) := []
  trips   : List Nat := []
  tripped : Bool := false
  comp    : Bool := false
  ended   : Option EndedSession := none
  deriving DecidableEq, Repr

/-- The charging controller beside the CHG_ registers (R381-R412). -/
structure Chg where
  /-- outlet energy of the current interval at 4 × outlet + phase, in units of 125 pJ (R139) -/
  intE : SMap Nat := []
  outlets : SMap Outlet := []
  tariffs : SMap TariffT := []
  accounts : SMap Acct := []
  /-- the table has been rebuilt since the last die reset or restart (R407) -/
  restored : Bool := false
  /-- debits that wait for a receipt: account, session, amount not yet taken from the balance (R409) -/
  owed : List (Nat × Nat × Nat) := []
  /-- command latched by CHG_ACMD (R408): OP, the four arguments, its tick -/
  cmd : Option (Nat × Nat × Nat × Nat × Nat × Nat) := none
  /-- tokens read in this tick: UART, identifier (R400) -/
  tokens : List (Nat × List Byte) := []
  /-- the page that holds the receipt key, with its generation -/
  rcpt : Option (Nat × Nat) := none
  /-- CHG_CTR has been raised to the replay entry since the last die reset (R405) -/
  raised : Bool := false
  /-- device second of the last credit limits -/
  limSec : Nat := 0
  deriving DecidableEq, Repr

/-! ### Storage cluster -/

/-- What the parameter pages of the array give (R414): LUNs, units per block, blocks per LUN, page size and spare size in bytes, tPROG and
tR in µs, rated program/erase cycles. -/
structure Geo where
  luns  : Nat := 0
  upb   : Nat := 1
  bpl   : Nat := 0
  page  : Nat := 16384
  spare : Nat := 768
  tprog : Nat := 0
  tr    : Nat := 0
  rated : Nat := 1
  deriving DecidableEq, Repr

/-- A programmed physical unit (R415): metadata and the 16,384 data bytes as stored, and the bit errors that have arisen since in each of
its 17 codewords (R417). -/
structure PUnit where
  lun    : Nat
  wseq   : Nat
  ctr    : Nat
  tag    : List Byte
  region : Nat
  kind   : Nat
  seg    : Nat
  data   : List Byte
  errs   : List Nat := []
  deriving DecidableEq, Repr

/-- The system record (R419, R424, R438-R440): the storage generation, the units of the LEDGER region, the spare pools, the blocks retired,
the histogram of die temperature, and whether storage is READ-ONLY. -/
structure SysRec where
  gen    : Nat
  units  : Nat
  spare  : Nat
  evSpare : Nat
  retired : Nat
  hist   : List Nat
  ro     : Bool := false
  deriving DecidableEq, Repr

/-- The NAND array (R413-R423): geometry, programmed units by physical unit number, bad and retired blocks, erase counts, the system blocks
and the EVENT region's own blocks. -/
structure Nand where
  geo    : Geo := {}
  units  : SMap PUnit := []
  bad    : List Nat := []
  erases : SMap Nat := []
  sysBl  : List Nat := []
  evBl   : List Nat := []
  deriving DecidableEq, Repr

/-- A ledger entry slot (R426). -/
structure Entry where
  kind    : Nat
  verdict : Nat
  reason  : Nat
  queue   : Nat
  part    : Nat
  ackreq  : Bool
  data    : Rec
  deriving DecidableEq, Repr

/-- A ledger unit buffer (R427): LUNUM, LSN of slot 0, entries, the tick of the first, whether its program has begun. -/
structure LBuf where
  lun   : Nat
  lsn   : Nat
  ents  : List Entry
  first : Nat
  busy  : Bool
  deriving DecidableEq, Repr

/-- Which unit a program in progress writes (R420, R455): a ledger unit by its first LSN, an energy save, or an event unit with
the records that its bytes carry. -/
inductive ProgWhat where
  | ledger (lsn : Nat) | snap | event (unit recs : Nat)
  deriving DecidableEq, Repr

/-- A program in progress (R420): what it writes, LUNUM, region, the data bytes, and the LUN at which its last attempt failed. -/
structure Prog where
  what   : ProgWhat
  lun    : Nat
  region : Nat
  data   : List Byte
  failed : Option Nat := none
  deriving DecidableEq, Repr

/-- A ledger unit on the array that is not yet released (R430): LUNUM, LSN of slot 0, slots used. -/
structure LUnit where
  lun  : Nat
  lsn  : Nat
  used : Nat
  deriving DecidableEq, Repr

/-- The hold-up check (R434): whether the charger was enabled in this start and when, what was measured (t of step 3 in µs, the
fall of step 2 in mV), the tick of the last decision. -/
structure HoldUp where
  start   : Option Nat := none
  meas    : Option (Nat × Nat) := none
  decided : Option Nat := none
  deriving DecidableEq, Repr

/-- Storage beside the NND_, FTL_ and DRY_ registers (R413-R443). -/
structure Ftl where
  mounted : Bool := false
  /-- the parameter pages have been read in this storage start, and the data rate set with SET FEATURES (R413, R414) -/
  array   : Bool := false
  rate    : Option Nat := none
  /-- the system record as the manager holds it, and whether it is to be written (R416, R440) -/
  sys     : Option SysRec := none
  sysDue  : Bool := false
  /-- a FORMAT erases its blocks: how many of its erases have failed so far (R439) -/
  format  : Option Nat := none
  /-- the LUNs in which the last programs of a map segment and of a checkpoint unit failed (R420) -/
  segFail : Option Nat := none
  ckFail  : Option Nat := none
  /-- the blocks that collections fill with copies (R421) -/
  dest    : List Nat := []
  /-- next WSEQ (R415) -/
  wseq    : Nat := 1
  bufs    : List LBuf := []
  progs   : List Prog := []
  units   : List LUnit := []
  /-- LUNUM of the next ledger unit -/
  ledNext : Nat := 2576
  /-- LSNs of ACKREQ entries accepted and not acknowledged, rising (R430) -/
  await   : List Nat := []
  /-- ACKLSN of the last ACKMARK (R430) -/
  marked  : Nat := 0
  /-- LSN of the newest receipt of each account, plus 1 (R430) -/
  receipt : SMap Nat := []
  /-- the LSN of the newest CKPT entry, its slot and its start LSN (R431) -/
  ckpt    : Option (Nat × Nat × Nat) := none
  /-- LSNs of DIRCMD and CKPT entries written again (R430) -/
  again   : List Nat := []
  /-- tick of the last checkpoint start, and entries accepted since (R431) -/
  ckptAt  : Nat := 0
  ckptN   : Nat := 0
  /-- the checkpoint under way: its slot, the next of its 768 units, its start LSN (R431) -/
  copy    : Option (Nat × Nat × Nat) := none
  /-- record entries offered in this tick, which are accepted after those of firmware (R427) -/
  offered : List Entry := []
  /-- pending fences: number and the LSN below which every entry must be programmed (R429) -/
  fences  : List (Nat × Nat) := []
  /-- fences that ended FAILED (R429) -/
  failed  : List Nat := []
  /-- dirty segments, oldest first, with the tick and the WSEQ at which each became dirty (R419, R435) -/
  dirty   : List (Nat × Nat × Nat) := []
  /-- blocks queued as victims (R417, R420, R422) and blocks whose erase runs -/
  victims : List Nat := []
  erasing : List Nat := []
  /-- erases since the last wear-levelling move was queued (R422) -/
  wear    : Nat := 64
  /-- the last unit read: LOST status and data (R417) -/
  rdLost  : Bool := false
  rdData  : List Byte := []
  /-- LANEEN bits that the hold or a storage state has cleared (R425, R428, R438) -/
  lanes   : Nat := 0
  hold    : HoldUp := {}
  /-- the SNAP unit that the next save takes (R418) -/
  snapAt  : Nat := 0
  /-- tick of the last write of the histogram (R440) -/
  histAt  : Nat := 0
  /-- a restart or drydown asks for every open unit to be programmed (R419, R436) -/
  drain   : Bool := false
  deriving DecidableEq, Repr

/-! ### Event recorder -/

/-- The recorder beside the EVR_ registers (R449-R460): records kept, oldest first; the number of the next record place in the
circle of 524,288; whether FLUSH or a pending restart asks for the open unit's program; EVR_UPSEQ of the last UPLOADED record; the READ or
CLEAR that runs, with its path and EVR_ARG. -/
structure Evr where
  log    : List EvRec := []
  place  : Nat := 0
  flush  : Bool := false
  upAt   : Nat := 0
  cmd    : Option (Path × Nat × Nat) := none
  deriving DecidableEq, Repr



/-! ### Images, start-up -/

/-- The Quad-SPI NOR (R463): the two fixative copies, the two copies of the active-slot record, and the bytes programmed in the
slots F0, F1, C0, C1 from each slot's first on; what a slot does not list reads FFh. -/
structure Nor where
  fix0 : List Byte := []
  fix1 : List Byte := []
  rec0 : List Byte := []
  rec1 : List Byte := []
  f0   : List Byte := []
  f1   : List Byte := []
  c0   : List Byte := []
  c1   : List Byte := []
  deriving DecidableEq, Repr

/-- The update manager beside the UPD_ registers (R465-R473): the image being received (its total length, the bytes so far, its
kind once its header is accepted), identifiers whose header was refused, the tick in which a pause began. -/
structure Upd where
  total   : Nat := 0
  buf     : List Byte := []
  kind    : Option Nat := none
  refused : List Nat := []
  pauseAt : Option Nat := none
  /-- a restart is over but for the mount: its lanes and the release of records wait (R468) -/
  lanes   : Bool := false
  deriving DecidableEq, Repr

/-- How the NOR is read (R550): the read instruction, the dummy cycles that the table declares for it, the bytes of an address, and the
method of enabling quad mode. -/
structure NorMode where
  read  : Nat := 0x0B
  dummy : Option Nat := none
  bytes : Nat := 3
  quad  : Option Nat := none
  deriving DecidableEq, Repr

/-- Start-up beside the CFG_ registers (R486): the port map in force; step 10 waiting for the fill that follows the restore of the
tables, with whether FRESH is to be set (R432); the reading of the NOR. -/
structure Boot where
  pmap    : List Byte := []
  restore : Option Bool := none
  /-- how the NOR is read, as its SFDP table gave it in step 3 (R550) -/
  nor     : NorMode := {}
  deriving DecidableEq, Repr


/-! ### Island -/

/-- An item of drydown (R436): what it programs, its logical unit, region, kind, segment and bytes. -/
structure DryItem where
  what   : Option ProgWhat
  lun    : Nat
  region : Nat
  kind   : Nat
  seg    : Nat
  data   : List Byte
  deriving DecidableEq, Repr

/-- Drydown (R505): 0 none, 1 due in the commit phase of the tick after the warning, 2 begun, 3 ended; the items that are left and
the units programmed. -/
structure Dry where
  stage : Nat := 0
  items : List DryItem := []
  units : Nat := 0
  deriving DecidableEq, Repr

/-- The island (R498-R515) beside its registers. -/
structure Isl where
  /-- the main supplies are lost and the island runs from VBAT (R498, R503) -/
  battery  : Bool := false
  /-- the island itself is stopped for want of supply (R499) -/
  dead     : Bool := false
  /-- the kinds of the staged images of a restart that a power-fail warning cut off (R437) -/
  resume   : List Nat := []
  /-- the power-fail warning is latched (R502) -/
  warned   : Bool := false
  /-- sub-unit remainders of the cumulative registers, 125 pJ, import at 2k and export at 2k + 1 (R175) -/
  remE     : SMap Nat := []
  /-- K has been asserted in the session of an outlet (R402, R403) -/
  closed   : SMap Bool := []
  /-- the tariff table of an outlet's session at its authorisation (R404) -/
  tables   : SMap TariffT := []
  /-- the reason with which a session cut off by a die reset or a loss of the main supplies ends at the next start (R402) -/
  cutWith  : SMap Nat := []
  /-- an outlet's contactor was removed by a die reset, or its contacts had not followed yet (R389) -/
  kCut     : SMap Bool := []
  /-- open cycles were lost with the supply (R176) -/
  partLost : Bool := false
  sil      : Sil := {}
  /-- the key store (R354) -/
  keys     : KeyStore := {}
  /-- events held in the island through a restart (R470) -/
  evHeld   : List Ev := []
  /-- samples in a row at the active level of each tamper input (R372) -/
  tampRun  : SMap Nat := []
  /-- inputs that hold the ERASE line asserted (R372) -/
  erasing  : SMap Bool := []
  /-- the reset to be released: its cause (R449, START), whether it is an island power-on reset, whether the main supplies have
  returned since the last release (R509) -/
  cause    : Nat := 0
  por      : Bool := true
  supply   : Bool := true
  /-- the main clusters are held after a warning until it has recovered or the supplies have been lost (R504) -/
  halted   : Bool := false
  /-- tick of the warning, and the cycles that it closed, which enter the registers in the commit of the next tick (R176, R502) -/
  warnAt   : Nat := 0
  part     : SMap Cycle := []
  dry      : Dry := {}
  /-- operating seconds of the recovery restarts of the last hour (R496) -/
  recov    : List Nat := []
  /-- the watchdog: tick of its last restart, whether the last write of ISL_WDKICK was 4Bh, and processors that have completed an
  activation of each of their slots since (R510) -/
  wdAt     : Nat := 0
  wd4B     : Bool := false
  /-- seconds that the RTC takes at cycle 0 of the next tick (R508), the remainder of its correction (R507), and the 1/32,768 s of
  ISL_OPSEC and of the trial timer (R509, R511) -/
  rtcDue   : Option Nat := none
  /-- the crystal has stopped in this tick (R514) -/
  stopped  : Bool := false
  rtcAcc   : Int := 0
  opFrac   : Nat := 0
  deriving DecidableEq, Repr


/-! ### Test and perturbation -/

/-- The test block beside the PRT_ registers (R519-R523): the skew that remains, cycles that did not fit into a tick, and the
session that carries the window, the tick in which it was set, and an opening (carrier, DURATION, MASK) or closing that takes effect in
the commit phase (R520). -/
structure Prt where
  skew    : Int := 0
  carried : Int := 0
  carrier : Option Nat := none
  setAt   : Option Nat := none
  due     : Option (Option (Nat × Nat × Nat)) := none
  deriving DecidableEq, Repr

/-- The JTAG port (R517): the instruction in force (0 BYPASS, 1 IDCODE, 2 SAMPLE/PRELOAD, 3 EXTEST, 4 TESTACC), the bypass or
identification register as captured, the boundary cells as loaded, and the last word that TESTACC read. -/
structure Jtag where
  ir    : Nat := 1
  dr    : Nat := 0
  cells : List Byte := []
  rd    : Word := 0
  deriving DecidableEq, Repr

/-- The SVC port (R495, R549): whether VBUS is present, and requests whose answers wait for the next capture phase. -/
structure Svc where
  vbus : Bool := false
  reqs : List Req := []
  deriving DecidableEq, Repr

/-- The state of the device. -/
structure State where
  /-- the register file: values committed, and the live values of fields that hardware keeps (R14) -/
  regs   : SMap Word
  /-- the register values committed at the start of the current tick, which reads return (R14) -/
  shown  : SMap Word
  /-- writes received in this tick, and those received in its commit phase (R14, R38) -/
  staged : List Staged
  late   : List Staged
  /-- inputs that reached their block in this commit phase and are received in the next tick, in order of arrival (R38) -/
  lateIn : List Instr
  /-- counts and captures of this tick (R534) -/
  occ    : List Occ
  /-- SRAM: BANK00 to BANK47 (R24); an unlisted byte reads 0, as zero-fill leaves it -/
  mem    : List Host.Cell
  /-- the part of the tick the device is in (R37); `held` while a die reset is asserted -/
  phase  : Phase
  tsq    : Tsq
  bnk    : Bnk
  queues : SMap Queue
  val    : Val
  /-- events raised and not yet taken by the recorder, in order of arrival (R449) -/
  raised : List Ev
  /-- what has left the device by its ports in the current tick -/
  out    : List (Port × List Byte)
  /-- pin levels staged for cycle 0 of the next tick (R37) -/
  outNext : List (Port × List Byte)
  /-- how many free values have been drawn: the model's own counter -/
  fresh  : Nat
  /-- the Accord image has been applied: RWL fields are locked (R11, R489) -/
  locked : Bool
  /-- XOFF outputs decided in the last commit, for the next tick (R90) -/
  xoffNext : Nat
  bal    : Bal
  mtr    : Mtr
  tim    : Tim
  eth    : SMap Eth
  plc    : SMap PlcPort
  plk    : SMap Plk
  bus    : SMap Bus
  uart   : SMap Uart
  /-- transceiver scripts of the port map (R262) -/
  scripts : SMap (List Byte)
  sup    : Sup
  chg    : Chg
  sec    : Sec
  /-- the fuses (R358) -/
  otp    : Otp
  ftl    : Ftl
  /-- the NAND array beyond the port (R413) -/
  nand   : Nand
  evr    : Evr
  isl    : Isl
  /-- the tick in which the per-second values were published, and whether group 0 has any (R168, R396, R397) -/
  chgSecond : Option (Nat × Bool)
  /-- the NOR beyond the port (R463) -/
  nor    : Nor
  upd    : Upd
  boot   : Boot
  prt    : Prt
  /-- the JTAG port (R517) -/
  jtag   : Jtag
  svc    : Svc
  /-- commands waiting, first in, first out -/
  pending : List Instr
  deriving DecidableEq, Repr

/-- The device after an island power-on reset, with die reset asserted and nothing yet released (R23, R477, R478): every
register at its Reset value, SRAM zero-filled, no command waiting.  The values for which the manual gives no reset value are
listed in the assumption log. -/
def State.reset : State :=
  {
    regs := [],
    shown := [],
    staged := [],
    late := [],
    lateIn := [],
    occ := [],
    mem := [],
    phase := .held,
    tsq := {},
    bnk := {},
    queues := [],
    val := {},
    raised := [],
    out := [],
    outNext := [],
    fresh := 0,
    locked := false,
    xoffNext := 0xFF,
    bal := {},
    mtr := {},
    tim := {},
    eth := [],
    plc := [],
    plk := [],
    bus := [],
    uart := [],
    scripts := [],
    sup := {},
    chg := {},
    sec := {},
    otp := {},
    ftl := {},
    nand := {},
    evr := {},
    isl := {},
    chgSecond := none,
    nor := {},
    upd := {},
    boot := {},
    prt := {},
    jtag := {},
    svc := {},
    pending := []
  }

end Sys2Proof.Machine
end

