-- ==== Sys2Proof/Machine/Ops.lean ====
section
/-!
DEFINITION. The named operations over registers, SRAM and free values that every meaning is built from.
-/
namespace Sys2Proof.Machine

/-- What a command answers. -/
abbrev Out := Host.Outcome State Fault Refusal

/-! ### The register file -/

/-- Whether an offset is reached by indices below their counts at their strides (R530). -/
def dimsHit : List (Nat × Nat) → Nat → Bool
  | [], off => decide (off = 0)
  | (c, st) :: t, off => decide (off / st < c) && dimsHit t (off % st)

/-- Whether a row of the register table answers at an address. -/
def RegRow.hit (r : RegRow) (a : Nat) : Bool := decide (r.base ≤ a) && dimsHit r.dims (a - r.base)

/-- The row of the register at an address (R528, R530). -/
def rowAt (a : Nat) : Option RegRow := (rowsOfWindow (a / 65536)).find? (fun r => r.hit a)

/-- The word that the fields of a row give at reset. -/
def resetOf (r : RegRow) : Nat := r.flds.foldl (fun n f => n + (f.reset % 2 ^ f.w) * 2 ^ f.lo) 0

/-- The reset value of the register at an address (R10); 0 where no register answers. -/
def resetWord (a : Nat) : Word :=
  match rowAt a with
  | none => 0
  | some r => BitVec.ofNat 32 (((r.ovr.find? (fun e => e.1 = a)).map Prod.snd).getD (resetOf r))

/-- The live word of a register. -/
def State.word (s : State) (a : Nat) : Word := SMap.get resetWord s.regs a

/-- The word of a register as committed at the start of the tick (R14). -/
def State.shownWord (s : State) (a : Nat) : Word := SMap.get resetWord s.shown a

/-- Registers that are hard-wired: ISL_ID reads 9640_0A01h (R1). -/
def hardWired (a : Nat) : Bool := decide (a = R.ISL_ID)

/-- The one operation that changes a register: a register that does not exist or is hard-wired keeps its word (R22, R1). -/
def State.setWord (s : State) (a : Nat) (w : Word) : State :=
  { s with regs := if hardWired a || (rowAt a).isNone then s.regs else SMap.put resetWord s.regs a w }

/-- The live value of a field. -/
def State.get (s : State) (f : Fld) : Nat := f.read (s.word f.addr)

/-- Whether a one-bit field is 1. -/
def State.on (s : State) (f : Fld) : Bool := decide (s.get f ≠ 0)

/-- The state with a field replaced. -/
def State.set (s : State) (f : Fld) (v : Nat) : State := s.setWord f.addr (f.write (s.word f.addr) v)

/-- The state with several fields replaced, in order. -/
def State.setAll (s : State) (l : List (Fld × Nat)) : State := l.foldl (fun t p => t.set p.1 p.2) s

/-- A field set now as hardware shows it from the start of this tick: live, and in what reads return (R14). -/
def State.showNow (s : State) (f : Fld) (v : Nat) : State :=
  { s.set f v with shown := if hardWired f.addr || (rowAt f.addr).isNone then s.shown
      else SMap.put resetWord s.shown f.addr (f.write (s.shownWord f.addr) v) }

/-- A field copied from a state that still has its old value, as it stands and as reads return it: fields of `s` kept through a reset. -/
def State.keepFld (s t : State) (f : Fld) : State :=
  (t.showNow f (f.read (s.shownWord f.addr))).set f (s.get f)

/-! ### Memory -/

/-- What an unlisted SRAM byte reads as: zero-fill of R23 and R29. -/
def memDefault (_ : Nat) : Byte := 0#8

/-- The canonical form of memory. -/
def Memory.wf (m : List Host.Cell) : Bool := SMap.wf memDefault m

/-- The canonical form of a register file. -/
def Regs.wf (m : SMap Word) : Bool := SMap.wf resetWord m

/-- One byte of SRAM as its cells hold it. -/
def State.byte (s : State) (a : Nat) : Byte := SMap.get memDefault s.mem a

/-- Bytes stored from an address on, cell by cell. -/
def memStore (m : List Host.Cell) : Nat → List Byte → List Host.Cell
  | _, [] => m
  | a, b :: t => memStore (SMap.put memDefault m a b) (a + 1) t

/-- The end of SRAM (R15). -/
def sramEnd : Nat := 0x1800000

/-- The bank of an SRAM address (R528). -/
def bankOf (a : Nat) : Nat := a / 0x80000

/-- Byte symbols of a line known to be in error. -/
def State.dmg (s : State) (line : Nat) : Nat := SMap.get (fun _ => 0) s.bnk.damage line

/-- Whether a line reads uncorrectable (R30, R31). -/
def State.lineBad (s : State) (line : Nat) : Bool := decide (3 ≤ s.dmg line)

/-- The state with the damage of a line set. -/
def State.setDmg (s : State) (line n : Nat) : State :=
  { s with bnk := { s.bnk with damage := SMap.put (fun _ => 0) s.bnk.damage line n } }

/-- The bytes that a served port returns: bytes of an uncorrectable line read 0 (R31). -/
def State.portBytes (s : State) (a n : Nat) : List Byte :=
  (List.range n).map (fun i => if s.lineBad ((a + i) / 32) then 0#8 else s.byte (a + i))

/-- The bank's current owner (R25). -/
def State.owner (s : State) (b : Nat) : Nat := s.get (R.BNK_CTL_OWNER b)

/-- Whether a bank accepts accesses: ON and awake (R29). -/
def State.bankReady (s : State) (b : Nat) : Bool :=
  decide (s.get (R.BNK_CTL_PWR b) = 0) && s.on (R.BNK_STAT_READY b)

/-- The owner code of the engine that a bank of fixed use belongs to (R24): validation, queues, NAND manager, event recorder; 0 for the
other banks. -/
def engineOf (b : Nat) : Nat :=
  if b < 8 then 0 else if b < 32 then 5 else if b < 40 then 6 else if b < 44 then 8 else if b = 44 then 9 else if 44 < b then 12 else 0

/-- Whether the engine of a bank is served by it: it owns the bank, which is ON and awake (R27, R29). -/
def State.served (s : State) (b : Nat) : Bool := s.bankReady b && decide (s.owner b = engineOf b ∨ engineOf b = 0)

/-- The bytes that the engine of a bank reads from it: zeros where it is not served (R27, R29, R31).  No such read crosses a bank. -/
def State.mrd (s : State) (a n : Nat) : List Byte := if s.served (bankOf a) then s.portBytes a n else List.replicate n 0#8

/-- A line that the engine of its bank reads as uncorrectable (R31). -/
def State.engBad (s : State) (line : Nat) : Bool := s.lineBad line && s.served (line / 16384)

/-- The little-endian number that a read of `n` bytes returns. -/
def State.mnat (s : State) (a n : Nat) : Nat := leNat (s.mrd a n)

/-- Bytes stored with no check of lines or owners. -/
def State.mstore (s : State) (a : Nat) (bs : List Byte) : State := { s with mem := memStore s.mem a bs }

/-! ### Free values -/

/-- A value the manual leaves open, and the state in which the next draw is another. -/
def State.draw (s : State) : BitVec 512 × State :=
  (Config.freeValue s.fresh, { s with fresh := s.fresh + 1 })

/-- `k` times 64 open bytes. -/
def State.drawChunks : Nat → State → List Byte × State
  | 0, s => ([], s)
  | k + 1, s =>
    let p := s.draw
    let r := State.drawChunks k p.2
    (leBytes 64 p.1.toNat ++ r.1, r.2)

/-- `n` open bytes. -/
def State.drawBytes (s : State) (n : Nat) : List Byte × State :=
  let r := State.drawChunks (ceilDiv n 64) s
  (r.1.take n, r.2)

/-! ### Queues' lanes and dispositions -/

/-- The lane that serves queue q (VAL_QMAP0, VAL_QMAP1). -/
def State.qLane (s : State) (q : Nat) : Nat := s.get ⟨R.VAL_QMAP0 + 4 * (q / 16), 2 * (q % 16), 2⟩

/-- The disposition of queue q (R124): 0 LEDGER, 1 FORWARD, 2 BOTH. -/
def State.qDisp (s : State) (q : Nat) : Nat := s.get ⟨R.VAL_QDISP0 + 4 * (q / 16), 2 * (q % 16), 2⟩

/-! ### Time -/

/-- The current tick number (R39). -/
def State.now (s : State) : Nat := s.tsq.tick

/-- Whether the main clusters run: out of die reset. -/
def State.up (s : State) : Bool := decide (s.phase ≠ .held)

/-- A change that only happens while the main clusters run; otherwise the command finds no machine and nothing changes. -/
def State.run (s : State) (f : State → State) : State := if s.up then f s else s

/-- An input or a register write received (R38): in the capture or compute phase it acts;
in the commit phase it waits for the next tick. -/
def State.receive (s : State) (i : Instr) (f : State → State) : State :=
  match s.phase with
  | .held => s
  | .commit => { s with lateIn := s.lateIn ++ [i] }
  | .capture | .compute => f s

/-- An input that counts from the capture phase in which it is first seen (R51): it acts there, and one that comes later in the tick waits for
the next. -/
def State.sense (s : State) (i : Instr) (f : State → State) : State :=
  match s.phase with
  | .held => s
  | .capture => f s
  | .compute | .commit => { s with lateIn := s.lateIn ++ [i] }

/-- The tick in whose capture phase something that arrives now is seen (R51). -/
def State.seenTick (s : State) : Nat := if s.phase = .capture then s.now else s.now + 1

/-- A change that the commit phase alone makes (R37, R52). -/
def State.inCommit (s : State) (f : State → State) : State := if s.phase = .commit then f s else s

/-- A change made only under a condition. -/
def State.when (s : State) (c : Bool) (f : State → State) : State := if c then f s else s

/-- Ticks of a device second (R3). -/
def ticksPerSec : Nat := 8000

/-- From the acceptance of ACTIVATE, or from a restart, to the release of records (R327, R468). -/
def State.pausing (s : State) : Bool := s.sup.activate.isSome || s.upd.lanes

/-- Bytes or levels that leave the device by a port at once. -/
def State.send (s : State) (p : Port) (b : List Byte) : State := { s with out := s.out ++ [(p, b)] }

/-- A level that a pin takes at cycle 0 of the next tick (R37). -/
def State.drive (s : State) (p : Port) (b : List Byte) : State := { s with outNext := s.outNext ++ [(p, b)] }

end Sys2Proof.Machine
end

