-- ==== Sys2Proof/Machine/Flags.lean ====
section
/-!
DEFINITION. Status bits, counters, captures and events, and the judgement of register writes: what R11-R14 and R531-R534 say
of every block, written once.
-/
namespace Sys2Proof.Machine

/-! ### Counters, flags and captures -/

/-- A saturating counter advanced by `n`; the occurrence is kept for R534. -/
def State.bumpBy (s : State) (f : Fld) (n : Nat) : State :=
  { s.set f (satAdd f.w (s.get f) n) with occ := s.occ ++ [.count f n] }

/-- A saturating counter advanced by 1. -/
def State.bump (s : State) (f : Fld) : State := s.bumpBy f 1

/-- A counter modulo 2^w advanced by `n`. -/
def State.wrapBy (s : State) (f : Fld) (n : Nat) : State := s.set f ((s.get f + n) % 2 ^ f.w)

/-- A counter modulo 2^w advanced by 1. -/
def State.wrap (s : State) (f : Fld) : State := s.wrapBy f 1

/-- A flag set; the occurrence is kept for R534. -/
def State.flag (s : State) (f : Fld) : State := { s.set f 1 with occ := s.occ ++ [.count f 1] }

/-- Bit `i` of a mask field set; the occurrence is kept for R534. -/
def State.flagBit (s : State) (f : Fld) (i : Nat) : State := s.flag ⟨f.addr, f.lo + i, 1⟩

/-- Bit `i` of a mask field given a level. -/
def State.setBit (s : State) (f : Fld) (i : Nat) (b : Bool) : State := s.set ⟨f.addr, f.lo + i, 1⟩ (b2n b)

/-- The first occurrence after a VALID flag was cleared is captured; later ones leave the capture (R27, R31, R533). -/
def State.capture (s : State) (valid : Fld) (vals : List (Fld × Nat)) : State :=
  let t := if s.on valid then s else (s.setAll vals).set valid 1
  { t with occ := s.occ ++ [.capture valid vals] }

/-- The index of a register in an array of registers. -/
def idxOf (base stride count a : Nat) : Option Nat :=
  if base ≤ a ∧ (a - base) % stride = 0 ∧ (a - base) / stride < count then some ((a - base) / stride) else none

/-! ### Events -/

/-- Event data from (offset, size, value) entries (R448). -/
def evData (l : List (Nat × Nat × Nat)) : Nat :=
  l.foldl (fun n e => n + (e.2.2 % 2 ^ (8 * e.2.1)) * 2 ^ (8 * e.1)) 0

/-- The tick in which an event that happens now is raised: what reaches the recorder in the commit phase counts to the next tick
(R38, R449). -/
def State.evTick (s : State) : Nat := if s.phase = .commit then s.now + 1 else s.now

/-- An event raised: it reaches the recorder with the OPSEC and PCYC of its tick (R447, R449). -/
def State.raise (s : State) (code src sev : Nat) (data : List (Nat × Nat × Nat)) : State :=
  { s with raised := s.raised ++
      [⟨code, src, sev, evData data, s.get R.ISL_OPSEC_SEC, s.get R.ISL_PCYC_PCYC, s.evTick⟩] }

/-- A BARRIER raised by a source (R448): data is the lower tick number. -/
def State.barrier (s : State) (src : Nat) : State := s.raise 0x1103 src 0 [(0, 4, s.evTick)]

/-! ### Judgement of register writes -/

/-- The agent code of R535. -/
def pathCode : Path → Nat
  | .fw => 0 | .a => 1 | .h => 2 | .s => 3 | .t => 4

/-- The bit of a path in a field's path mask. -/
def pathBit : Path → Nat
  | .fw => 0 | .a => 1 | .h => 2 | .s => 4 | .t => 8

/-- The order in which the writes of one tick are applied (R532). -/
def pathRank : List Path := [.fw, .a, .h, .t, .s]

/-- Life-cycle state codes (R357). -/
def lcTest : Nat := 1
def lcField : Nat := 2

/-- Whether a path is open (R13): A never outside the apply step, H while a session with the head end is established, S
always, T in TEST and in FIELD under a perturbation window. -/
def State.pathOpen (s : State) (p : Path) : Bool :=
  match p with
  | .fw => true
  | .a => false
  | .h => decide (s.get R.SUP_STAT_UPSTATE = 2)
  | .s => true
  | .t => decide (s.get R.KEY_LC_STATE = lcTest) ||
      (decide (s.get R.KEY_LC_STATE = lcField) && s.on R.PRT_CTL_OPEN)

/-- The three counts of refused accesses (R535): count field, agent, VALID, address. -/
inductive Refused where
  | lock | path | unmapped
  deriving DecidableEq, Repr

/-- One refused access counted, and captured when it is the first since VALID was cleared (R533, R535). -/
def State.refuse (s : State) (k : Refused) (p : Path) (a : Nat) : State :=
  let f := match k with
    | .lock => (R.PROC_LOCKV_COUNT, R.PROC_LOCKV_AGENT, R.PROC_LOCKV_VALID, R.PROC_LOCKA_ADDR)
    | .path => (R.PROC_PATHREF_COUNT, R.PROC_PATHREF_AGENT, R.PROC_PATHREF_VALID, R.PROC_PATHA_ADDR)
    | .unmapped => (R.PROC_UNMAP_COUNT, R.PROC_UNMAP_AGENT, R.PROC_UNMAP_VALID, R.PROC_UNMAPA_ADDR)
  (s.bump f.1).capture f.2.2.1 [(f.2.1, pathCode p), (f.2.2.2, a)]

/-- A judged write staged: for this tick's commit, or, in the commit phase, for the next (R38). -/
def State.stageWrite (s : State) (w : Staged) : State :=
  if s.phase = .commit then { s with late := s.late ++ [w] } else { s with staged := s.staged ++ [w] }

/-- Bits that a firmware task writes to a register of its own (R94, R443). -/
def State.taskWrite (s : State) (a : Nat) (m v : Word) : State := s.stageWrite ⟨.fw, 0, a, m, v⟩

/-- The word that a register will hold when a write of a path received now takes effect: the committed word under the writes that wait and
are applied before it (R14, R532). -/
def State.pendWord (s : State) (p : Path) (a : Nat) : Word :=
  ((pathRank.takeWhile (fun q => decide (q ≠ p)) ++ [p]).flatMap (fun q =>
    (s.staged ++ s.late).filter (fun w => decide (w.path = q ∧ w.addr = a)))).foldl
      (fun v w => (v &&& ~~~ w.mask) ||| (w.value &&& w.mask)) (s.word a)

/-- What a narrow access reads: the addressed bytes of the register's word (R9). -/
def addressed (a : Nat) (w : Word) : Word := w >>> (8 * (a % 4))

/-- Whether a value of a field is an encoding that is not reserved (R12). -/
def FRow.isLegal (f : FRow) (v : Nat) : Bool :=
  f.legal.isEmpty || f.legal.any (fun r => decide (r.1 ≤ v) && decide (v ≤ r.2))

/-- The PRT_MASK function that governs a T write in FIELD (R521, R526): the register's own bit in the PRT_ block, and TESTACC
for DIRHOLD and for every register outside the block. -/
def prtFunction (a : Nat) : Option Nat :=
  if R.PRT_QDLY 0 ≤ a ∧ a ≤ R.PRT_QDLY 7 then some 0
  else if a = R.PRT_BP0 ∨ a = R.PRT_BP1 then some 1
  else if a = R.PRT_SKEW then some 2
  else if a = R.PRT_PLCDROP then some 3
  else if a = R.PRT_NAND then some 4
  else if a = R.PRT_TAG then some 5
  else if a = R.PRT_STEPS ∨ a = R.PRT_STEPNS then some 6
  else if a = R.PRT_PJIT then some 7
  else if a = R.PRT_LOOP then some 8
  else if a / 65536 ≠ 0x2080 ∨ a = R.PRT_CTL then some 9
  else none

/-- What becomes of the bits of one field of a write. -/
inductive Judged where
  | pass | ignored | path | lock
  deriving DecidableEq, Repr

/-- Whether a field of a register is open to a path: its Paths list, and in a perturbation window of FIELD the function bit
of PRT_MASK (R13, R521). Firmware writes without a path (R35, R93, R133). -/
def State.fieldOpen (s : State) (p : Path) (a : Nat) (f : FRow) : Bool :=
  match p with
  | .fw => true
  | _ => decide (f.paths &&& pathBit p ≠ 0) &&
      (decide (p ≠ .t) || decide (s.get R.KEY_LC_STATE = lcTest) ||
        match prtFunction a with
        | some k => (s.get R.PRT_MASK_MASK).testBit k
        | none => false)

/-- The judgement of one field under a write of `value` to the bits of `mask` (R11-R13, R533); `none` when the write
reaches no bit of it. -/
def State.judgeField (s : State) (p : Path) (a : Nat) (mask value : Word) (f : FRow) : Option Judged :=
  let m := bitsOf mask.toNat f.lo f.w
  if m = 0 then none
  else if s.fieldOpen p a f = false then some .path
  else
    let old := bitsOf (s.pendWord p a).toNat f.lo f.w
    let new := (old &&& (2 ^ f.w - 1 - m)) ||| (bitsOf value.toNat f.lo f.w &&& m)
    match f.acc with
    | .ro => some .ignored
    | .w1c | .w1cField => some .pass
    | .rwl => if s.locked then some .lock else if f.isLegal new then some .pass else some .lock
    | .rw | .wo => if f.isLegal new then some .pass else some .lock

/-- The judgement of a whole write: the bits that pass, and whether some field was refused by its path or by a lock. -/
structure Judgement where
  mask : Word := 0
  path : Bool := false
  lock : Bool := false
  deriving DecidableEq, Repr

/-- The fields of a row judged one by one (R533). -/
def State.judgeRow (s : State) (p : Path) (a : Nat) (mask value : Word) (r : RegRow) : Judgement :=
  r.flds.foldl (fun j f =>
    match s.judgeField p a mask value f with
    | some .pass => { j with mask := j.mask ||| (mask &&& (Fld.mask ⟨a, f.lo, f.w⟩)) }
    | some .path => { j with path := true }
    | some .lock => { j with lock := true }
    | _ => j) {}

/-- A write is counted once, by the first refusal that applies (R533). -/
def State.countJudged (s : State) (p : Path) (a : Nat) (j : Judgement) : State :=
  if j.path then s.refuse .path p a else if j.lock then s.refuse .lock p a else s

/-- A field lies in the bits of a mask. -/
def Fld.hit (f : Fld) (m : Word) : Bool := decide (m &&& f.mask ≠ 0)

/-- Registers of cipher pages, reached by their owner alone (R336). -/
def inPages (a : Nat) : Bool := decide (a / 65536 = 0x2400)

/-- Bits of a field leave the ones that pass, refused by the path or by a lock, when the write reaches them and `c` holds. -/
def Judgement.barPath (j : Judgement) (f : Fld) (c : Bool) : Judgement :=
  if f.hit j.mask && c then { j with mask := j.mask &&& ~~~ f.mask, path := true } else j
def Judgement.barLock (j : Judgement) (f : Fld) (c : Bool) : Judgement :=
  if f.hit j.mask && c then { j with mask := j.mask &&& ~~~ f.mask, lock := true } else j

/-- The value that a write of the bits of `m` gives a field. -/
def State.newVal (s : State) (f : Fld) (m v : Word) : Nat := f.read ((s.word f.addr &&& ~~~ m) ||| (v &&& m))

/-- The value that a write of the bits of `m` by a path, received now, will give a field (R14). -/
def State.newPend (s : State) (p : Path) (f : Fld) (m v : Word) : Nat := f.read ((s.pendWord p f.addr &&& ~~~ m) ||| (v &&& m))

/-- Bits of a register written. -/
def State.mergeWord (s : State) (a : Nat) (mask value : Word) : State :=
  s.setWord a ((s.word a &&& ~~~ mask) ||| (value &&& mask))

/-- The word that a path reads from a register (R531): H sees the fields open to it, S sees every field but in FIELD and END,
T and firmware see every field; a write-only field reads 0 (R11); of the paths, T alone reaches a cipher page (R336). -/
def State.pathRead (s : State) (p : Path) (a : Nat) : Word :=
  match rowAt a with
  | none => 0
  | some r =>
    let lc := s.get R.KEY_LC_STATE
    let all := match p with
      | .fw | .t => true
      | .s => decide (lc ≠ lcField ∧ lc ≠ 4) && !(inPages a)
      | _ => false
    r.flds.foldl (fun w f =>
      if f.acc ≠ .wo ∧ (all = true ∨ f.paths &&& pathBit p ≠ 0) then w ||| (s.shownWord a &&& Fld.mask ⟨a, f.lo, f.w⟩) else w) 0

end Sys2Proof.Machine
end

