-- ==== Sys2Proof/Machine/Bank.lean ====
section
/-!
DEFINITION. The SRAM bank fabric (R24-R35): lines and their Reed-Solomon protection, owners and the handover fence, power
states, port collisions and the scrubber.
-/
namespace Sys2Proof.Machine

/-! ### Lines -/

/-- How a line read ended (R30, R31). -/
inductive LineRead where
  | clean | corrected | uncorrectable
  deriving DecidableEq, Repr

/-- The first line of the replay table, and the line after its last (R102). -/
def rplLine0 : Nat := 0xC00000 / 32
def rplLineEnd : Nat := 0x1000000 / 32

/-- An uncorrectable line counted, captured and raised as an event (R31); one of the replay table is captured by its first slot too
(R120). -/
def State.uncorrectable (s : State) (line : Nat) : State :=
  let t := (s.bump (R.BNK_STAT_UNCORR (line / 16384))).capture R.BNK_ERRADDR_VALID [(R.BNK_ERRADDR_LINE, line)]
  let t := if rplLine0 ≤ line ∧ line < rplLineEnd then t.capture R.RPL_ERR_VALID [(R.RPL_ERR_SLOT, 8 * (line - rplLine0))] else t
  t.raise 0x0302 3 1 [(0, 4, line * 32)]

/-- A line with open changes in at most `k` of its data bytes. -/
def alterLine (line : List Byte) (open_ : Nat) : Nat → List Byte
  | 0 => line
  | k + 1 =>
    let l := alterLine line open_ k
    let pos := open_ / 2 ^ (16 * k) % 32
    l.set pos (nth l pos 0#8 ^^^ BitVec.ofNat 8 (open_ / 2 ^ (16 * k + 5) % 256))

/-- What a miscorrected line reads as: another valid line, so never the stored one, and different from it in at most as many data bytes as
the error and the wrong correction reach together. -/
def miscorrect (line : List Byte) (open_ : Nat) (k : Nat) : List Byte :=
  let l := alterLine line open_ k
  if l = line then l.set (open_ % 32) (nth l (open_ % 32) 0#8 ^^^ 1#8) else l

/-- Whether an error of three or more symbols lies within two symbols of another valid line (R30): `open_` is the open number of its
pattern, and only the patterns of one class in a hundred may. -/
def nearOther (open_ : Nat) : Bool := decide (open_ % 100 = 0) && Config.miscorrects (open_ / 100)

/-- One line read, `err` further byte symbols of it in error (R30, R31): up to two are corrected and the line waits for its
write-back; three or more are uncorrectable, unless they lie near another valid line: it then reads as that line, within two symbols
of the error, and nothing reports it. -/
def State.checkLine (s : State) (line err : Nat) : LineRead × State :=
  let old := s.dmg line
  let n := min 36 (old + err)
  if n = 0 then (.clean, s)
  else if n ≤ 2 then
    (.corrected, { s.setDmg line n with bnk := { (s.setDmg line n).bnk with
      wback := if line ∈ s.bnk.wback then s.bnk.wback else s.bnk.wback ++ [line] } })
  else
    let p := s.draw
    if old < 3 ∧ nearOther p.1.toNat = true then
      let q := p.2.draw
      let was := (List.range 32).map (fun i => s.byte (line * 32 + i))
      (.clean, (q.2.mstore (line * 32) (miscorrect was q.1.toNat (min 32 (n + 2)))).setDmg line 0)
    else (.uncorrectable, (p.2.setDmg line n).uncorrectable line)

/-- The lines of a span of addresses. -/
def linesOf (a n : Nat) : List Nat :=
  if n = 0 then [] else (List.range ((a + n - 1) / 32 - a / 32 + 1)).map (fun i => a / 32 + i)

/-- A span read line by line, `err` new symbols in error in its first line. -/
def State.readSpan (s : State) (a n err : Nat) : List Byte × State :=
  let t := (linesOf a n).foldl (fun t l => (t.checkLine l (if l = a / 32 then err else 0)).2) s
  (t.portBytes a n, t)

/-- The part of a write that falls into one line: whole lines are written as they are and are sound again; a part of a line
is read, merged and written, and refused when the line is uncorrectable (R32). -/
def State.writeLine (s : State) (a : Nat) (bs : List Byte) : State :=
  let l := a / 32
  if a % 32 = 0 ∧ bs.length = 32 then (s.mstore a bs).setDmg l 0
  else
    match s.checkLine l 0 with
    | (.uncorrectable, t) => t
    | (_, t) => (t.mstore a bs).setDmg l 0

/-- A write cut at line ends; `fuel` bounds the lines. -/
def State.writeSpan (s : State) : Nat → Nat → List Byte → State
  | 0, _, _ => s
  | f + 1, a, bs =>
    if bs.isEmpty then s
    else
      let k := 32 - a % 32
      State.writeSpan (s.writeLine a (bs.take k)) f (a + k) (bs.drop k)

/-- A write of bytes through a port that serves it (R32). -/
def State.portPut (s : State) (a : Nat) (bs : List Byte) : State := s.writeSpan (bs.length / 32 + 2) a bs

/-! ### Owners and power -/

/-- What becomes of an access (R27-R29): served; zeros without a fault; stalled by a drain; refused. -/
inductive Admit where
  | ok | off | stall | refused
  deriving DecidableEq, Repr

/-- The admission of an access (R27, R28, R29).  DESIGN CHOICE (assumption 104): a bank that is ON and not yet READY reads zeros and
writes nothing without an isolation fault, whoever asks, as a bank in RETENTION does. -/
def State.grants (s : State) (b agent : Nat) : Admit :=
  if s.bankReady b = false then .off
  else if s.owner b ≠ agent ∨ agent = 0 then .refused
  else if SMap.get (fun _ => 0) s.bnk.drain b ≠ 0 then .stall
  else .ok

/-- An isolation fault (R27): counted, captured when first, and raised as an event. -/
def State.isolationFault (s : State) (b agent : Nat) : State :=
  ((s.bump R.BNK_FAULT_COUNT).capture R.BNK_FAULT_VALID [(R.BNK_FAULT_BANK, b), (R.BNK_FAULT_AGENT, agent)]).raise
    0x0301 3 1 [(0, 1, b), (1, 1, agent)]

/-- Whether a read of firmware or of the test interface lies in the window of a ring: the first 64 KiB of the spill area of a queue in
RING mode (R76, R77, R85). -/
def State.inWindow (s : State) (x : Access) : Bool :=
  (decide (1 ≤ x.agent ∧ x.agent ≤ 4) || decide (x.agent = 14)) && (List.range 32).any (fun q =>
    let a := 0x1000000 + s.get (R.QUE_CFG_SPBASE q) * 0x4000
    s.on (R.QUE_STAT_MODE q) && decide (a ≤ x.addr) && decide (x.addr + x.len ≤ a + 0x10000))

/-- What becomes of a read; a ring's reader stands on port 1 and needs not own the bank (R85). -/
def State.grantsRead (s : State) (reader : Bool) (x : Access) : Admit :=
  match s.grants (bankOf x.addr) x.agent with
  | .refused => if reader && s.inWindow x then .ok else .refused
  | g => g

/-- The read half of an access: the bytes returned and the state; `reader` on port 1. -/
def State.portRead (s : State) (reader : Bool) (x : Access) : List Byte × State :=
  match x.wr with
  | some _ => ([], s)
  | none =>
    match s.grantsRead reader x with
    | .ok => s.readSpan x.addr x.len x.err
    | .refused => (List.replicate x.len 0#8, s.isolationFault (bankOf x.addr) x.agent)
    | _ => (List.replicate x.len 0#8, s)

/-- The write half of an access on one port. -/
def State.portWrite (s : State) (x : Access) : State :=
  match x.wr with
  | none => s
  | some bs =>
    match s.grants (bankOf x.addr) x.agent with
    | .ok => s.portPut x.addr bs
    | .refused => s.isolationFault (bankOf x.addr) x.agent
    | _ => s

/-! ### The engines of the fixed banks -/

/-- An engine that has become the owner of a bank waits for the end of its drain, and then proceeds (R28). -/
def State.waitDrain (s : State) (b : Nat) : State :=
  { s with bnk := { s.bnk with drain := SMap.put (fun _ => 0) s.bnk.drain b 0 } }

/-- A line that the engine of its bank reads (R27-R31): checked when the engine is served; an isolation fault when it is not the owner. -/
def State.touchLine (s : State) (line : Nat) : State :=
  let b := line / 16384
  if s.served b then ((s.waitDrain b).checkLine line 0).2 else if s.bankReady b then s.isolationFault b (engineOf b) else s

/-- The lines of a span read by the engine of its bank. -/
def State.touch (s : State) (a n : Nat) : State := (linesOf a n).foldl State.touchLine s

/-- Bytes that the engine of a bank reads, with what the read counts. -/
def State.memRead (s : State) (a n : Nat) : List Byte × State := let t := s.touch a n; (t.mrd a n, t)

/-- Bytes that the engine of a bank writes (R27, R29, R32). -/
def State.memWrite (s : State) (a : Nat) (bs : List Byte) : State :=
  let b := bankOf a
  if s.served b then (s.waitDrain b).portPut a bs else if s.bankReady b then s.isolationFault b (engineOf b) else s

/-- Whether two writes touch one word (R34). -/
def wordsMeet (x y : Access) : Bool :=
  match x.wr, y.wr with
  | some a, some b =>
    decide (x.addr / 4 ≤ (y.addr + b.length - 1) / 4) && decide (y.addr / 4 ≤ (x.addr + a.length - 1) / 4) &&
      decide (0 < a.length) && decide (0 < b.length)
  | _, _ => false

/-- Whether the whole access lies in one bank of SRAM; an address beyond SRAM is unmapped (R22, R528). -/
def Access.inSram (x : Access) : Bool :=
  let n := match x.wr with | some b => b.length | none => x.len
  decide (x.addr + n ≤ sramEnd) && decide (bankOf x.addr = bankOf (x.addr + (n - 1)))

/-- BANK_ACCESS (R27-R34): one access on port 0 and perhaps one on port 1 in the same cycle.  Reads return the data held
before the writes; port 1's write lands after port 0's. -/
def execBankAccess (p0 : Access) (p1 : Option Access) (s : State) : Out :=
  .next (s.run (fun s =>
    let l := p0 :: p1.toList
    if l.all Access.inSram = false then s
    else if l.any (fun x => decide (s.grants (bankOf x.addr) x.agent = .stall)) then s
    else
      let r0 := s.portRead false p0
      let r1 := match p1 with
        | some y => r0.2.portRead true y
        | none => ([], r0.2)
      let t := { r1.2 with bnk := { r1.2.bnk with rd0 := r0.1, rd1 := r1.1 } }
      let t := l.foldl State.portWrite t
      match p1 with
      | some y =>
        if wordsMeet p0 y ∧ s.grants (bankOf p0.addr) p0.agent = .ok ∧ s.grants (bankOf y.addr) y.agent = .ok then
          t.bump (R.BNK_STAT_WCOLL (bankOf p0.addr)) else t
      | none => t))

/-- CORRECTED_LINE_WRITEBACK (R30): the port writes a corrected line back and counts it. -/
def execCorrectedLineWriteback (line : Nat) (s : State) : Out :=
  .next (s.run (fun s =>
    if line ∈ s.bnk.wback then
      let t := if s.dmg line ≤ 2 then s.setDmg line 0 else s
      ({ t with bnk := { t.bnk with wback := t.bnk.wback.erase line } }).bump (R.BNK_STAT_CORR (line / 16384))
    else s))

/-- Whether R26 lets a path change the owner of a bank. -/
def State.ownerOpen (s : State) (p : Path) (b : Nat) : Bool :=
  if 8 ≤ b ∧ b ≤ 44 then decide (p = .t) && decide (s.get R.KEY_LC_STATE = lcTest) else true

/-- A write of OWNER in effect (R26, R28): a write of the present owner changes nothing; another starts the drain of the old owner. -/
def State.handover (s : State) (p : Path) (b own : Nat) : State :=
  if s.ownerOpen p b = false then s.refuse .path p (R.BNK_CTL b)
  else if s.owner b = own then s
  else { s.set (R.BNK_CTL_OWNER b) own with
    bnk := { s.bnk with drain := SMap.put (fun _ => 0) s.bnk.drain b (s.owner b + 1) } }

/-- HANDOVER_DRAIN_END (R28): the old owner's writes have completed and the new owner's accesses proceed. -/
def execHandoverDrainEnd (bank : Fin 48) (s : State) : Out :=
  .next (s.run (fun s => { s with bnk := { s.bnk with drain := SMap.put (fun _ => 0) s.bnk.drain bank 0 } }))

/-- A bank filled with zeros and valid check bytes (R23, R29). -/
def State.zeroBank (s : State) (b : Nat) : State :=
  { s with
    mem := SMap.keep (fun a => decide (bankOf a ≠ b)) s.mem
    bnk := { s.bnk with damage := SMap.keep (fun l => decide (l / 16384 ≠ b)) s.bnk.damage,
                        wback := s.bnk.wback.filter (fun l => decide (l / 16384 ≠ b)) } }

/-- Banks that cannot leave ON in FIELD (R29). -/
def alwaysOn (b : Nat) : Bool := decide (8 ≤ b ∧ b ≤ 31) || decide (b = 44)

/-- BNK_CTL (R26, R29): a write of OWNER that R26 bars is a path refusal whatever its value, so before its encoding is judged (R533). -/
def State.barBank (s : State) (p : Path) (b : Nat) (m v : Word) (j : Judgement) : Judgement :=
  let j := if (R.BNK_CTL_OWNER b).hit m && !(s.ownerOpen p b) then { j with mask := j.mask &&& ~~~ (R.BNK_CTL_OWNER b).mask, path := true } else j
  j.barLock (R.BNK_CTL_PWR b)
    (alwaysOn b && decide (s.get R.KEY_LC_STATE = lcField) && decide (s.newPend p (R.BNK_CTL_PWR b) j.mask v ≠ 0))

/-- A change of a bank's power state (R29): OFF loses the content; a return to ON is ready after 1 tick from RETENTION and
after 2 ticks from OFF. -/
def State.power (s : State) (p : Path) (b pwr : Nat) : State :=
  let old := s.get (R.BNK_CTL_PWR b)
  if pwr = old then s
  else if alwaysOn b ∧ s.get R.KEY_LC_STATE = lcField then s.refuse .lock p (R.BNK_CTL b)
  else
    let t := (s.set (R.BNK_CTL_PWR b) pwr).set (R.BNK_STAT_READY b) 0
    let wake := if pwr = 0 then (s.now + (if old = 2 then 2 else 1) + 1, decide (old = 2)) else (0, false)
    let t := { t with bnk := { t.bnk with wake := SMap.put (fun _ => (0, false)) t.bnk.wake b wake } }
    if pwr = 2 then t.zeroBank b else t

/-- BANK_READY (R29): the wake-up, with its zero-fill from OFF, has ended; READY reads 1 in this tick already. -/
def execBankReady (bank : Fin 48) (s : State) : Out :=
  .next (s.run (fun s =>
    let w := SMap.get (fun _ => (0, false)) s.bnk.wake bank
    if w.1 ≠ 0 ∧ w.1 ≤ s.now ∧ s.get (R.BNK_CTL_PWR bank) = 0 then
      let t := if w.2 then s.zeroBank bank else s
      ({ t with bnk := { t.bnk with wake := SMap.put (fun _ => (0, false)) t.bnk.wake bank (0, false) } }).showNow
        (R.BNK_STAT_READY bank) 1
    else s))

/-- What the scrubber keeps of a bank: its next line, and the lines that it has still to read (R33). -/
def scrub0 (_ : Nat) : Nat × Nat := (0, 0)

/-- The lines of one bank that the scrubber reads: LINES for each tick since its last run and those not scrubbed in theirs, but for `left`
of them, for which no port cycle is free; `errs` gives new symbols in error by line (R33). -/
def State.scrubBank (errs left : List (Nat × Nat)) (ticks : Nat) (s : State) (b : Nat) : State :=
  let x := SMap.get scrub0 s.bnk.scrubAt b
  if s.bankReady b then
    let owed := x.2 + s.get R.BNK_SCRUB_LINES * ticks
    let late := min owed (((left.find? (fun e => e.1 = b)).map Prod.snd).getD 0)
    let n := owed - late
    let t := (List.range n).foldl (fun t i =>
      let l := b * 16384 + (x.1 + i) % 16384
      (t.checkLine l (((errs.find? (fun e => e.1 = l)).map Prod.snd).getD 0)).2) s
    let t := { t with bnk := { t.bnk with scrubAt := SMap.put scrub0 t.bnk.scrubAt b ((x.1 + n) % 16384, late) } }
    t.wrapBy (R.BNK_STAT_PASSES b) ((x.1 + n) / 16384)
  else { s with bnk := { s.bnk with scrubAt := SMap.put scrub0 s.bnk.scrubAt b (x.1, 0) } }

/-- SCRUB (R33): once in a tick, every ON bank has its next lines read and checked; what finds no free port cycle is retried in the next
tick. -/
def execScrub (errs left : List (Nat × Nat)) (s : State) : Out :=
  .next (s.run (fun s =>
    let ticks := s.now + 1 - s.bnk.scrubbed
    let t := (List.range 48).foldl (State.scrubBank errs left ticks) s
    { t with bnk := { t.bnk with scrubbed := s.now + 1 } }))

end Sys2Proof.Machine
end

