-- ==== Sys2Proof/Machine/Crypto.lean ====
section
/-!
DEFINITION. The published standards that the manual names for its cryptography and checks, written once for every unit that
uses them: AES and its modes (R64, R340-R345, R361, R416), SHA-256 and P-256 (R307-R310, R360, R367, R464), and the cyclic
redundancy checks (R198, R258, R415).  No unit of the device adds anything to them.
-/
namespace Sys2Proof.Machine

/-- The AES substitution table (FIPS 197), byte i in bits 8i to 8i+7. -/
def aesSTab : Nat :=
  0x16bb54b00f2d99416842e6bf0d89a18cdf2855cee9871e9b948ed9691198f8e19e1dc186b95735610ef6034866b53e708a8bbd4b1f74dde8c6b4a61c2e2578ba08ae7a65eaf4566ca94ed58d6d37c8e779e4959162acd3c25c2406490a3a32e0db0b5ede14b8ee4688902a22dc4f816073195d643d7ea7c41744975fec130ccdd2f3ff1021dab6bcf5389d928f40a351a89f3c507f02f94585334d43fbaaefd0cf584c4a39becb6a5bb1fc20ed00d153842fe329b3d63b52a05a6e1b1a2c830975b227ebe28012079a059618c323c7041531d871f1e5a534ccf73f362693fdb7c072a49cafa2d4adf04759fa7dc982ca76abd7fe2b670130c56f6bf27b777c63

/-- The inverse AES substitution table, laid out alike. -/
def aesISTab : Nat :=
  0x7d0c2155631469e126d677ba7e042b17619953833cbbebc8b0f52aae4d3be0a0ef9cc9939f7ae52d0d4ab519a97f51605fec8027591012b131c7078833a8dd1ff45acd78fec0db9a2079d2c64b3e56fc1bbe18aa0e62b76f89c5291d711af1476edf751ce837f9e28535ade72274ac9673e6b4f0cecff297eadc674f4111913a6b8a130103bdafc1020f3fca8f1e2cd00645b3b80558e4f70ad3bc8c00abd890849d8da75746155edab9edfd5048706c92b6655dcc5ca4d41698688664f6f87225d18b6d49a25b76b224d92866a12e084ec3fa420b954cee3d23c2a632947b54cbe9dec444438e3487ff2f9b8239e37cfbd7f3819ea340bf38a53630d56a0952

/-- The round constants of SHA-256 (FIPS 180-4), word i in bits 32i to 32i+31. -/
def shaKTab : Nat :=
  0xc67178f2bef9a3f7a4506ceb90befffa8cc7020884c8781478a5636f748f82ee682e6ff35b9cca4f4ed8aa4a391c0cb334b0bcb52748774c1e376c0819a4c116106aa070f40e3585d6990624d192e819c76c51a3c24b8b70a81a664ba2bfe8a192722c8581c2c92e766a0abb650a735453380d134d2c6dfc2e1b213827b70a851429296706ca6351d5a79147c6e00bf3bf597fc7b00327c8a831c66d983e515276f988da5cb0a9dc4a7484aa2de92c6f240ca1cc0fc19dc6efbe4786e49b69c1c19bf1749bdc06a780deb1fe72be5d74550c7dc3243185be12835b01d807aa98ab1c5ed5923f82a459f111f13956c25be9b5dba5b5c0fbcf71374491428a2f98

/-- The initial hash value of SHA-256, laid out alike. -/
def shaHTab : Nat :=
  0x5be0cd191f83d9ab9b05688c510e527fa54ff53a3c6ef372bb67ae856a09e667

/-! ### AES (FIPS 197) -/

/-- A substitution of one byte by a table of 256 bytes. -/
def subByte (tab : Nat) (b : Byte) : Byte := BitVec.ofNat 8 (tab / 2 ^ (8 * b.toNat))

/-- Doubling in GF(2^8) modulo x^8 + x^4 + x^3 + x + 1. -/
def xtime (b : Byte) : Byte := if b.msb then (b <<< 1) ^^^ 0x1B#8 else b <<< 1

/-- Multiplication by a constant below 16 in the field of AES. -/
def gmul (k : Nat) (b : Byte) : Byte :=
  let b2 := xtime b; let b4 := xtime b2; let b8 := xtime b4
  (if k.testBit 0 then b else 0) ^^^ (if k.testBit 1 then b2 else 0)
    ^^^ (if k.testBit 2 then b4 else 0) ^^^ (if k.testBit 3 then b8 else 0)

/-- ShiftRows, or its inverse with `d = 3`: row r moves by d·r columns. -/
def shiftRows (d : Nat) (st : List Byte) : List Byte :=
  (List.range 16).map (fun i => nth st (i % 4 + 4 * ((i / 4 + d * (i % 4)) % 4)) 0)

/-- A column multiplied by the circulant of four constants. -/
def mixCol (k : List Nat) (c : List Byte) : List Byte :=
  (List.range 4).map (fun r => (List.range 4).foldl
    (fun a j => a ^^^ gmul (nth k ((j + 4 - r) % 4) 0) (nth c j 0)) 0#8)

/-- MixColumns with the constants of the first row. -/
def mixColumns (k : List Nat) (st : List Byte) : List Byte :=
  ((chunks 4 4 st).map (mixCol k)).flatten

/-- The next word of the AES key schedule after the words `ws` (newest first), word number `i`, key length `nk` words. -/
def keyWord (nk i : Nat) (rcon : Byte) (ws : List (List Byte)) : List Byte :=
  let prev := nth ws 0 []
  let t := if i % nk = 0 then
      xorB ((prev.drop 1 ++ prev.take 1).map (subByte aesSTab)) [rcon, 0, 0, 0]
    else if nk = 8 ∧ i % 8 = 4 then prev.map (subByte aesSTab) else prev
  xorB (nth ws (nk - 1) []) t

/-- `n` further words of the key schedule. -/
def keyWords (nk : Nat) : Nat → Nat → Byte → List (List Byte) → List (List Byte)
  | 0, _, _, ws => ws
  | n + 1, i, rcon, ws =>
    keyWords nk n (i + 1) (if i % nk = 0 then xtime rcon else rcon) (keyWord nk i rcon ws :: ws)

/-- The round keys of a key of 16 or 32 bytes, first round first. -/
def roundKeys (key : List Byte) : List (List Byte) :=
  let nk := key.length / 4
  let ws := keyWords nk (4 * (nk + 7) - nk) nk 1#8 (chunks 4 nk key).reverse
  chunks 16 (nk + 7) (ws.reverse.flatten)

/-- One block enciphered under a key schedule. -/
def aesRounds : List (List Byte) → List Byte → List Byte
  | [], st => st
  | [k], st => xorB (shiftRows 1 (st.map (subByte aesSTab))) k
  | k :: ks, st => aesRounds ks (xorB (mixColumns [2, 3, 1, 1] (shiftRows 1 (st.map (subByte aesSTab)))) k)

/-- AES encryption of one 16-byte block. -/
def aesEnc (key blk : List Byte) : List Byte :=
  match roundKeys key with
  | [] => blk
  | k0 :: ks => aesRounds ks (xorB blk k0)

/-- The inverse rounds, with the round keys in reverse order. -/
def aesInvRounds : List (List Byte) → List Byte → List Byte
  | [], st => st
  | [k], st => xorB ((shiftRows 3 st).map (subByte aesISTab)) k
  | k :: ks, st => aesInvRounds ks (mixColumns [14, 11, 13, 9] (xorB ((shiftRows 3 st).map (subByte aesISTab)) k))

/-- AES decryption of one 16-byte block. -/
def aesDec (key blk : List Byte) : List Byte :=
  match (roundKeys key).reverse with
  | [] => blk
  | k0 :: ks => aesInvRounds ks (xorB blk k0)

/-! ### Modes of operation (NIST SP 800-38A to 38F) -/

/-- Sixteen zero bytes. -/
def zero16 : List Byte := List.replicate 16 0#8

/-- Doubling in GF(2^128) as CMAC writes it (SP 800-38B). -/
def cmacDbl (b : List Byte) : List Byte :=
  let n := beNat b * 2
  beBytes 16 (if n < 2 ^ 128 then n else (n - 2 ^ 128) ^^^ 0x87)

/-- The CBC chain over whole blocks. -/
def cbcMac (key : List Byte) (iv : List Byte) (blks : List (List Byte)) : List Byte :=
  blks.foldl (fun c b => aesEnc key (xorB c b)) iv

/-- AES-CMAC of a message (SP 800-38B). -/
def cmac (key msg : List Byte) : List Byte :=
  let k1 := cmacDbl (aesEnc key zero16)
  let n := (msg.length - 1) / 16
  let last := msg.drop (16 * n)
  let lastB := if last.length = 16 then xorB last k1
    else xorB (sliceB (last ++ [0x80#8]) 0 16) (cmacDbl k1)
  cbcMac key zero16 (chunks 16 n msg ++ [lastB])

/-- The counter block `c` blocks after `blk`, its low 32 bits counting alone (SP 800-38D). -/
def inc32 (blk : List Byte) (c : Nat) : List Byte :=
  blk.take 12 ++ beBytes 4 (beNat (blk.drop 12) + c)

/-- The counter block `c` blocks after `blk`, all 128 bits counting (SP 800-38A). -/
def inc128 (blk : List Byte) (c : Nat) : List Byte := beBytes 16 (beNat blk + c)

/-- Counter mode: the text combined with the enciphered counter blocks. -/
def ctrMode (inc : List Byte → Nat → List Byte) (key blk : List Byte) : Nat → Nat → List Byte → List Byte
  | 0, _, _ => []
  | f + 1, i, txt =>
    if txt.isEmpty then [] else
      xorB (txt.take 16) (aesEnc key (inc blk i)) ++ ctrMode inc key blk f (i + 1) (txt.drop 16)

/-- One bit of the GF(2^128) product of GCM: `z` accumulates, `v` is halved (SP 800-38D). -/
def ghashMul (x : Nat) : Nat → Nat → Nat → Nat
  | 0, z, _ => z
  | k + 1, z, v =>
    ghashMul x k (if x.testBit k then z ^^^ v else z)
      (if v % 2 = 1 then (v / 2) ^^^ (0xE1 * 2 ^ 120) else v / 2)

/-- GHASH under `h` over whole blocks. -/
def ghash (h : Nat) (blks : List (List Byte)) : Nat :=
  blks.foldl (fun y b => ghashMul (y ^^^ beNat b) 128 0 h) 0

/-- Bytes filled with zeros to whole blocks. -/
def pad16 (b : List Byte) : List Byte := b ++ List.replicate ((16 - b.length % 16) % 16) 0#8

/-- The pre-counter block of a GCM nonce of any length (SP 800-38D). -/
def gcmJ0 (h : Nat) (iv : List Byte) : List Byte :=
  if iv.length = 12 then iv ++ beBytes 4 1
  else beBytes 16 (ghash h (chunks 16 (iv.length / 16 + 3) (pad16 iv ++ beBytes 16 (8 * iv.length))))

/-- The GCM tag over additional data and ciphertext. -/
def gcmTag (key iv aad ct : List Byte) : List Byte :=
  let h := beNat (aesEnc key zero16)
  let s := ghash h (chunks 16 (aad.length / 16 + ct.length / 16 + 3)
    (pad16 aad ++ pad16 ct ++ beBytes 8 (8 * aad.length) ++ beBytes 8 (8 * ct.length)))
  xorB (beBytes 16 s) (aesEnc key (gcmJ0 h iv))

/-- GCM's text half: encryption and decryption alike. -/
def gcmCrypt (key iv txt : List Byte) : List Byte :=
  ctrMode inc32 key (inc32 (gcmJ0 (beNat (aesEnc key zero16)) iv) 1) (txt.length / 16 + 1) 0 txt

/-- CCM's block B0 and encoded additional data (SP 800-38C). -/
def ccmHead (tl : Nat) (nonce aad : List Byte) (len : Nat) : List Byte :=
  let q := 15 - nonce.length
  let fl := (if aad.isEmpty then 0 else 64) + 8 * ((tl - 2) / 2) + (q - 1)
  let a := if aad.isEmpty then []
    else if aad.length < 0xFF00 then beBytes 2 aad.length ++ aad
    else [0xFF#8, 0xFE#8] ++ beBytes 4 aad.length ++ aad
  BitVec.ofNat 8 fl :: nonce ++ beBytes q len ++ pad16 a

/-- CCM's counter block 0. -/
def ccmCtr0 (nonce : List Byte) : List Byte :=
  let q := 15 - nonce.length
  BitVec.ofNat 8 (q - 1) :: nonce ++ beBytes q 0

/-- The CCM tag of a plaintext. -/
def ccmTag (key nonce aad pt : List Byte) (tl : Nat) : List Byte :=
  let m := ccmHead tl nonce aad pt.length ++ pad16 pt
  (xorB (cbcMac key zero16 (chunks 16 (m.length / 16 + 1) m)) (aesEnc key (ccmCtr0 nonce))).take tl

/-- CCM's text half. -/
def ccmCrypt (key nonce txt : List Byte) : List Byte :=
  ctrMode inc128 key (inc128 (ccmCtr0 nonce) 1) (txt.length / 16 + 1) 0 txt

/-- Doubling of an XTS tweak (IEEE 1619): little-endian, modulo x^128 + x^7 + x^2 + x + 1. -/
def xtsDbl (t : List Byte) : List Byte :=
  let n := leNat t * 2
  leBytes 16 (if n < 2 ^ 128 then n else (n - 2 ^ 128) ^^^ 0x87)

/-- XTS over whole blocks with the block cipher `f` of the first key, from the tweak `t` on. -/
def xtsBlocks (f : List Byte → List Byte) : Nat → List Byte → List Byte → List Byte
  | 0, _, _ => []
  | n + 1, t, txt =>
    if txt.isEmpty then [] else xorB (f (xorB (txt.take 16) t)) t ++ xtsBlocks f n (xtsDbl t) (txt.drop 16)

/-- The tweak doubled `n` times. -/
def xtsTweak : Nat → List Byte → List Byte
  | 0, t => t
  | n + 1, t => xtsTweak n (xtsDbl t)

/-- XTS-AES-256 over a text of at least one block, with ciphertext stealing for a part block at its end (IEEE 1619). -/
def xts (enc : Bool) (k1 k2 tweak txt : List Byte) : List Byte :=
  let f := if enc then aesEnc k1 else aesDec k1
  let t0 := aesEnc k2 tweak
  let n := txt.length / 16
  let r := txt.length % 16
  if r = 0 then xtsBlocks f n t0 txt else
    let tA := xtsTweak (n - 1) t0
    let tB := xtsTweak n t0
    let head := xtsBlocks f (n - 1) t0 (txt.take (16 * (n - 1)))
    let blk := (txt.drop (16 * (n - 1))).take 16
    let part := txt.drop (16 * n)
    let one := if enc then tA else tB
    let two := if enc then tB else tA
    let c := xorB (f (xorB blk one)) one
    head ++ xorB (f (xorB (part ++ c.drop r) two)) two ++ c.take r

/-! ### SHA-256 (FIPS 180-4) -/

/-- A round constant. -/
def shaK (i : Nat) : Word := BitVec.ofNat 32 (shaKTab / 2 ^ (32 * i))

/-- The message schedule, newest word first. -/
def shaSched : Nat → List Word → List Word
  | 0, w => w
  | n + 1, w =>
    let a := nth w 14 0; let b := nth w 1 0
    let s0 := a.rotateRight 7 ^^^ a.rotateRight 18 ^^^ (a >>> 3)
    let s1 := b.rotateRight 17 ^^^ b.rotateRight 19 ^^^ (b >>> 10)
    shaSched n ((nth w 15 0 + s0 + nth w 6 0 + s1) :: w)

/-- One round of SHA-256 on the eight working words. -/
def shaRound (st : List Word) (kw : Word) : List Word :=
  match st with
  | [a, b, c, d, e, f, g, h] =>
    let t1 := h + (e.rotateRight 6 ^^^ e.rotateRight 11 ^^^ e.rotateRight 25)
      + ((e &&& f) ^^^ (~~~ e &&& g)) + kw
    let t2 := (a.rotateRight 2 ^^^ a.rotateRight 13 ^^^ a.rotateRight 22)
      + ((a &&& b) ^^^ (a &&& c) ^^^ (b &&& c))
    [t1 + t2, a, b, c, d + t1, e, f, g]
  | _ => st

/-- One 64-byte block taken into the hash value. -/
def shaBlock (h : List Word) (blk : List Byte) : List Word :=
  let w0 := (List.range 16).map (fun i => BitVec.ofNat 32 (beAt blk (4 * i) 4))
  let w := (shaSched 48 w0.reverse).reverse
  let r := (List.range 64).foldl (fun st i => shaRound st (shaK i + nth w i 0)) h
  h.zipWith (· + ·) r

/-- SHA-256 of a byte string. -/
def sha256 (m : List Byte) : List Byte :=
  let p := m ++ [0x80#8] ++ List.replicate ((119 - m.length % 64) % 64) 0#8 ++ beBytes 8 (8 * m.length)
  let h0 := (List.range 8).map (fun i => BitVec.ofNat 32 (shaHTab / 2 ^ (32 * i)))
  (((chunks 64 (p.length / 64 + 1) p).foldl shaBlock h0).map (fun w => beBytes 4 w.toNat)).flatten

/-! ### P-256 (FIPS 186-5, SP 800-186) -/

/-- The field prime of P-256. -/
def p256P : Nat := 2 ^ 256 - 2 ^ 224 + 2 ^ 192 + 2 ^ 96 - 1
/-- The order of the P-256 group. -/
def p256N : Nat := 0xffffffff00000000ffffffffffffffffbce6faada7179e84f3b9cac2fc632551
/-- The coefficient b of P-256. -/
def p256B : Nat := 0x5ac635d8aa3a93e7b3ebbd55769886bc651d06b0cc53b0f63bce3c3e27d2604b
/-- The base point of P-256. -/
def p256G : Nat × Nat :=
  (0x6b17d1f2e12c4247f8bce6e563a440f277037d812deb33a0f4a13945d898c296,
   0x4fe342e2fe1a7f9b8ee7eb4a7c0f9e162bce33576b315ececbb6406837bf51f5)

/-- b^e modulo m, e below 2^k, by squaring. -/
def powMod (m b e : Nat) : Nat → Nat → Nat
  | 0, r => r
  | k + 1, r => powMod m b e k (if e.testBit k then r * r % m * b % m else r * r % m)

/-- The inverse modulo a prime below 2^256. -/
def invMod (m a : Nat) : Nat := powMod m (a % m) (m - 2) 256 1

/-- The sum of two points of P-256; none is the point at infinity. -/
def ecAdd (a b : Option (Nat × Nat)) : Option (Nat × Nat) :=
  match a, b with
  | none, q => q
  | p, none => p
  | some (x1, y1), some (x2, y2) =>
    if x1 = x2 ∧ (y1 + y2) % p256P = 0 then none else
      let l := if x1 = x2 then (3 * x1 * x1 + (p256P - 3)) * invMod p256P (2 * y1) % p256P
        else (y2 + (p256P - y1)) * invMod p256P (x2 + (p256P - x1)) % p256P
      let x3 := (l * l + 2 * p256P - x1 - x2) % p256P
      some (x3, (l * (x1 + (p256P - x3)) + (p256P - y1)) % p256P)

/-- k times a point, k below 2^n. -/
def ecMulFrom (k : Nat) (p : Option (Nat × Nat)) : Nat → Option (Nat × Nat) → Option (Nat × Nat)
  | 0, r => r
  | n + 1, r => ecMulFrom k p n (let d := ecAdd r r; if k.testBit n then ecAdd d p else d)

/-- k times a point. -/
def ecMul (k : Nat) (p : Nat × Nat) : Option (Nat × Nat) := ecMulFrom k (some p) 256 none

/-- A point of the curve given by its coordinates. -/
def onCurve (q : Nat × Nat) : Bool :=
  decide (q.1 < p256P) && decide (q.2 < p256P) &&
    decide (q.2 * q.2 % p256P = (q.1 * q.1 * q.1 + (p256P - 3) * q.1 + p256B) % p256P)

/-- A public key or point of 64 bytes, both coordinates big-endian. -/
def pointOf (b : List Byte) : Nat × Nat := (beAt b 0 32, beAt b 32 32)

/-- The 64 bytes of a point. -/
def pointBytes (q : Nat × Nat) : List Byte := beBytes 32 q.1 ++ beBytes 32 q.2

/-- ECDSA verification over P-256 with SHA-256: key of 64 bytes, signature r and s of 32 bytes each. -/
def ecdsaVerify (q sig msg : List Byte) : Bool :=
  let r := beAt sig 0 32; let s := beAt sig 32 32
  let z := beNat (sha256 msg)
  decide (0 < r) && decide (r < p256N) && decide (0 < s) && decide (s < p256N) && onCurve (pointOf q) &&
    (let w := invMod p256N s
     match ecAdd (ecMul (z * w % p256N) p256G) (ecMul (r * w % p256N) (pointOf q)) with
     | none => false
     | some (x, _) => decide (x % p256N = r))

/-- ECDSA signature with the secret scalar `d` and the nonce `k`. -/
def ecdsaSign (d k : Nat) (msg : List Byte) : List Byte :=
  match ecMul k p256G with
  | none => List.replicate 64 0#8
  | some (x, _) =>
    let r := x % p256N
    beBytes 32 r ++ beBytes 32 (invMod p256N k * ((beNat (sha256 msg) + r * d) % p256N) % p256N)

/-- The public key of a secret scalar. -/
def ecPublic (d : Nat) : List Byte := pointBytes ((ecMul d p256G).getD (0, 0))

/-- The ECDH secret: the first coordinate of d·Q. -/
def ecdh (d : Nat) (q : List Byte) : List Byte := beBytes 32 ((ecMul d (pointOf q)).getD (0, 0)).1

/-! ### Cyclic redundancy checks -/

/-- One bit of a reflected CRC. -/
def crcBitR (poly : Nat) : Nat → Nat → Nat
  | 0, c => c
  | k + 1, c => crcBitR poly k (if c % 2 = 1 then (c / 2) ^^^ poly else c / 2)

/-- CRC-32 of IEEE 802.3 (R415). -/
def crc32 (bs : List Byte) : Nat :=
  (bs.foldl (fun c b => crcBitR 0xEDB88320 8 (c ^^^ b.toNat)) 0xFFFFFFFF) ^^^ 0xFFFFFFFF

/-- One bit of a most-significant-bit-first CRC of width `w`. -/
def crcBitL (w poly : Nat) : Nat → Nat → Nat
  | 0, c => c
  | k + 1, c => crcBitL w poly k (if c.testBit (w - 1) then ((c * 2) % 2 ^ w) ^^^ poly else (c * 2) % 2 ^ w)

/-- A most-significant-bit-first CRC over bytes. -/
def crcL (w poly init : Nat) (bs : List Byte) : Nat :=
  bs.foldl (fun c b => crcBitL w poly 8 (c ^^^ (b.toNat * 2 ^ (w - 8)))) init

end Sys2Proof.Machine
end

