-- ==== Sys2Proof/Machine/KeyTree.lean ====
section
/-!
DEFINITION. The key store and the key tree (R354-R364): the KDF, the derived keys, the selected Base note, the mirrors of the
key store and the life-cycle state.
-/
namespace Sys2Proof.Machine

/-! ### The key derivation function -/

/-- D(K, LABEL, CONTEXT, L) of R361 for L bits: the KDF in counter mode with AES-256-CMAC. -/
def kdf (key label ctx : List Byte) (l : Nat) : List Byte :=
  (((List.range (ceilDiv l 128)).map (fun i =>
    cmac key ([BitVec.ofNat 8 (i + 1)] ++ label ++ [0#8] ++ ctx ++ beBytes 2 l))).flatten).take (l / 8)

/-- Four ASCII bytes. -/
def label4 (a b c d : Nat) : List Byte := [BitVec.ofNat 8 a, BitVec.ofNat 8 b, BitVec.ofNat 8 c, BitVec.ofNat 8 d]

/-- The Heart note of a (domain, epoch) pair (R361). -/
def heartNote (base : List Byte) (dom epoch : Nat) : List Byte :=
  kdf base (label4 0x48 0x52 0x54 0x31) (leBytes 2 (dom % 4096) ++ leBytes 2 epoch) 256

/-- The meter key of a METER in an epoch (R361). -/
def meterKey (heart : List Byte) (meter epoch : Nat) : List Byte :=
  kdf heart (label4 0x54 0x4F 0x50 0x31) (leBytes 4 meter ++ leBytes 2 epoch) 256

/-- SERIAL and a generation as a CONTEXT (R361). -/
def serialGen (g : Nat) : List Byte := leBytes 8 Config.serial.toNat ++ leBytes 4 g

/-- The storage note of generation g (R361). -/
def storageNote (base q : List Byte) (g : Nat) : List Byte :=
  kdf base (label4 0x53 0x54 0x4E 0x31) (serialGen g ++ sliceB q 0 32) 256

/-- The storage key of generation g with the salt of counter slot 0 (R361). -/
def storageKey (note : List Byte) (g : Nat) : List Byte := kdf note (label4 0x53 0x54 0x4F 0x31) (serialGen g) 288

/-- The receipt key of generation g with the salt of counter slot 1 (R361). -/
def receiptKey (note : List Byte) (g : Nat) : List Byte := kdf note (label4 0x52 0x43 0x50 0x31) (serialGen g) 288

/-- The SUP key of generation g (R361). -/
def supKey (base : List Byte) (g : Nat) : List Byte := kdf base (label4 0x53 0x55 0x50 0x32) (serialGen g) 256

/-- The key-encryption key of a KEY_UPDATE (R361). -/
def kuwKey (z : List Byte) (uctr : Nat) : List Byte :=
  kdf z (label4 0x4B 0x55 0x57 0x31) (leBytes 8 Config.serial.toNat ++ leBytes 4 uctr) 256

/-! ### Life cycle and the selected root -/

/-- The life-cycle state code of the fuses (R358). -/
def Otp.state (o : Otp) : Nat :=
  if o.fin then 4
  else if o.t = 0 then 0
  else if 15 < o.t then 3
  else (o.t - 1) % 3 + 1

/-- The cycle number k (R358). -/
def Otp.cycle (o : Otp) : Nat := if o.t = 0 then 0 else (o.t - 1) / 3

/-- Bit k: hash k programmed. -/
def hashMask (h : SMap (List Byte)) : Nat :=
  (List.range 5).foldl (fun m k => if SMap.get (fun _ => []) h k = [] then m else m + 2 ^ k) 0

/-- The KEY_ fields read from OTP, as step 3 of R490 gives them (R378). -/
def State.readOtp (s : State) : State :=
  s.setAll [(R.KEY_LC_STATE, s.otp.state), (R.KEY_LC_CYCLE, s.otp.cycle), (R.KEY_LC_TCOUNT, s.otp.t),
    (R.KEY_SERLO_SER, Config.serial.toNat % 2 ^ 32), (R.KEY_SERHI_SER, Config.serial.toNat / 2 ^ 32),
    (R.KEY_AUTH_AHM, hashMask s.otp.ahm), (R.KEY_AUTH_AHF, hashMask s.otp.ahf)]

/-- The life-cycle state the device works in, as KEY_LC shows it (R357). -/
def State.lc (s : State) : Nat := s.get R.KEY_LC_STATE

/-- The selected Base note (R357, R359). -/
def State.baseNote (s : State) : Option (List Byte) :=
  if s.lc = 1 then s.isl.keys.rootT else if s.lc = 2 then s.isl.keys.rootF else if s.lc = 3 then s.isl.keys.rootR else none

/-- The presence bits of R354. -/
def KeyStore.presence (k : KeyStore) : Nat :=
  b2n k.ident.isSome + 2 * b2n k.rootT.isSome + 4 * b2n k.rootF.isSome + 8 * b2n k.rootR.isSome + 16 * b2n k.hevk.isSome

/-- The default counter slot. -/
def slot0 (_ : Nat) : CtrSlot := {}

/-- Counter slot j. -/
def State.slot (s : State) (j : Nat) : CtrSlot := SMap.get slot0 s.isl.keys.slots j

/-- Bit j: counter slot j valid (R354). -/
def State.slotMask (s : State) : Nat := (List.range 32).foldl (fun m j => if (s.slot j).valid then m + 2 ^ j else m) 0

/-- KEY_STAT, KEY_IDPUB and CIP_SLOTV brought up to the key store (R355, R378). -/
def State.mirrorKeys (s : State) : State :=
  let q := match s.isl.keys.ident with
    | some p => p.2
    | none => []
  let t := s.setAll [(R.KEY_STAT_PRES, s.isl.keys.presence), (R.KEY_STAT_NOTE, b2n s.isl.keys.note.isSome),
    (R.KEY_STAT_ROOTOK, b2n s.baseNote.isSome), (R.CIP_SLOTV_VALID, s.slotMask)]
  (List.range 16).foldl (fun t w => t.set (R.KEY_IDPUB_Q w) (leAt q (4 * w) 4)) t

/-- The key store replaced, its mirrors following. -/
def State.putKeys (s : State) (k : KeyStore) : State := ({ s with isl := { s.isl with keys := k } }).mirrorKeys

/-- Counter slot j replaced. -/
def State.putSlot (s : State) (j : Nat) (c : CtrSlot) : State :=
  s.putKeys { s.isl.keys with slots := SMap.put slot0 s.isl.keys.slots j c }

/-- The signature unit's counts (R380). -/
def State.countVerify (s : State) : State := s.wrap R.SIG_CNT_VERIFY

/-- One ECDH computation or signature (R380). -/
def State.countAgree (s : State) : State := s.wrap R.SIG_CNT_AGREE

/-- An identity drawn from the TRNG: a scalar in 1 to n - 1 and its public key (R360).  Draws outside the range are repeated
by the unit; the value drawn here is the one that it keeps. -/
def State.drawScalar (s : State) : List Byte × State :=
  let p := s.draw
  (beBytes 32 (p.1.toNat % (p256N - 1) + 1), p.2)

/-- IDENTITY_GENERATION in step 5 (R360): in BLANK and RETURN without an identity; it waits for a TRNG that delivers (R380). -/
def State.makeIdentity (s : State) : State :=
  if (s.lc = 0 ∨ s.lc = 3) ∧ s.isl.keys.ident = none then
    if s.on R.RNG_STAT_OK then
      let p := s.drawScalar
      p.2.putKeys { p.2.isl.keys with ident := some (p.1, ecPublic (beNat p.1)) }
    else { s with sec := { s.sec with identWait := true } }
  else s

end Sys2Proof.Machine
end

