-- ==== Sys2Proof/Machine/Queue.lean ====
section
/-!
DEFINITION. Record queues (R75-R93): frames, commit and rewind, refill, the ring, mode and fence flag, watermarks and XOFF.
-/
namespace Sys2Proof.Machine

/-- An empty queue. -/
def queueDefault (_ : Nat) : Queue := {}

/-- Queue `n`. -/
def State.queue (s : State) (n : Nat) : Queue := SMap.get queueDefault s.queues n

/-- The mode in effect is RING (R76, QUE_STATn.MODE). -/
def State.isRing (s : State) (n : Nat) : Bool := s.on (R.QUE_STAT_MODE n)

/-- The capacity of a queue in records (R76). -/
def State.qCap (s : State) (n : Nat) : Nat :=
  if s.isRing n then 1024 else 32 + 256 * s.get (R.QUE_CFG_SPCNT n)

/-- Committed records of a ring (R85). -/
def State.ringOcc (s : State) (n : Nat) : Nat :=
  (s.get (R.QUE_RING_WPTR n) + 2048 - s.get (R.QUE_RING_RPTR n)) % 2048

/-- Committed records not yet admitted (R88). -/
def State.qCommitted (s : State) (n : Nat) : Nat :=
  let q := s.queue n
  if s.isRing n then s.ringOcc n else q.head.length + q.spill.length + q.tail.length

/-- The reservation of an open frame (R81, R88). -/
def Queue.reserved (q : Queue) : Nat := (q.frame.map Frame.fcnt).getD 0

/-- The occupancy of a queue (R88). -/
def State.qOcc (s : State) (n : Nat) : Nat := s.qCommitted n + (s.queue n).reserved

/-- QUE_STATn.OPEN and FULL brought up to the queue's contents (R92). -/
def State.qSync (s : State) (n : Nat) : State :=
  (s.set (R.QUE_STAT_OPEN n) (b2n (s.queue n).frame.isSome)).set (R.QUE_STAT_FULL n) (b2n (s.qOcc n = s.qCap n))

/-- Queue `n` replaced. -/
def State.putQueue (s : State) (n : Nat) (q : Queue) : State :=
  { s with queues := SMap.put queueDefault s.queues n q }

/-- Whether a descriptor is accepted (R80). -/
def State.frameFits (s : State) (n fcnt : Nat) : Bool :=
  s.on (R.QUE_CTL_EN n) && decide (fcnt ≠ 0) && decide (fcnt < 63) && decide (fcnt ≤ s.qCap n - s.qOcc n)

/-- An open frame rewound (R82). -/
def State.rewind (s : State) (n : Nat) : State :=
  match (s.queue n).frame with
  | none => s
  | some _ => ((s.putQueue n { s.queue n with frame := none }).bump (R.QUE_CNT_REWIND n)).qSync n

/-- A frame opened or refused whole (R79-R81, R83); an open frame is abandoned first. -/
def State.openFrame (s : State) (n fcnt : Nat) (byJob : Bool) : State :=
  let s := s.rewind n
  if s.frameFits n fcnt then
    (s.putQueue n { s.queue n with
      late := false,
      opened := (s.queue n).opened + 1,
      frame := some { fcnt := fcnt, words := [], deadline := s.now + s.get (R.QUE_CFG_FRTO n), byJob := byJob,
                      num := (s.queue n).opened } }).qSync n
  else s.bump (R.QUE_CNT_REJECT n)

/-- The SRAM address of a record's place in the spill area of a queue (R77). -/
def State.placeAddr (s : State) (n place : Nat) : Nat := 0x1000000 + s.get (R.QUE_CFG_SPBASE n) * 0x4000 + 64 * place

/-- The SRAM address of a ring slot (R85). -/
def State.ringAddr (s : State) (n slot : Nat) : Nat := s.placeAddr n (slot % 1024)

/-- Records stored in the ring from slot `slot` on, whole lines each (R85, R32). -/
def State.ringStore (s : State) (n : Nat) : Nat → List Rec → State
  | _, [] => s
  | slot, r :: t => State.ringStore (s.memWrite (s.ringAddr n slot) (recBytes r)) n (slot + 1) t

/-- How many records the spill area of a queue holds (R76). -/
def State.spillCap (s : State) (n : Nat) : Nat := 256 * s.get (R.QUE_CFG_SPCNT n)

/-- The oldest record of a tail with more than its 16 moves on to the spill area, in a circle over the area's places (R78). -/
def State.spillOne (s : State) (n : Nat) : State :=
  let q := s.queue n
  match q.tail with
  | r :: t =>
    if 16 < q.tail.length ∧ q.spill.length < s.spillCap n then
      (s.memWrite (s.placeAddr n ((q.spillAt + q.spill.length) % s.spillCap n)) (recBytes r.data)).putQueue n
        { q with spill := q.spill ++ [r.tick], tail := t }
    else s
  | [] => s

/-- The tail after a commit: what does not fit its 16 places has moved on to the spill area (R78). -/
def State.spillOver (s : State) (n : Nat) : State :=
  (List.range ((s.queue n).tail.length - 16)).foldl (fun t _ => t.spillOne n) s

/-- The commit of a frame: all its records become committed together (R81, R85). -/
def State.commitFrame (s : State) (n : Nat) (words : List Rec) : State :=
  let q := { s.queue n with frame := none }
  let t := if s.isRing n then
      let w := s.get (R.QUE_RING_WPTR n)
      ((s.ringStore n w words).set (R.QUE_RING_WPTR n) ((w + words.length) % 2048)).putQueue n
        { q with ring := q.ring ++ words.map (fun _ => s.now) }
    else (s.putQueue n { q with tail := q.tail ++ words.map (fun r => ⟨r, s.now⟩) }).spillOver n
  t.qSync n

/-- Whether the frame's deadline has passed for a word written now (R83). -/
def State.frameLate (s : State) (f : Frame) : Bool :=
  decide (f.deadline < s.now) || (decide (f.deadline = s.now) && decide (s.phase = .commit))

/-- A word that finds no frame it may enter is discarded and reported to the source as an error (R83). -/
def State.lateWord (s : State) (n : Nat) : State := s.putQueue n { s.queue n with late := true }

/-- The frame of a queue takes a further word (R83). -/
def State.takesWord (s : State) (n : Nat) : Bool := (s.queue n).frame.any (fun f => !(s.frameLate f))

/-- A word written into an open frame; the last one commits it unless a cipher job holds it back (R81, R83, R349). -/
def State.writeWord (s : State) (n : Nat) (w : Rec) : State :=
  match (s.queue n).frame with
  | none => s.lateWord n
  | some f =>
    if s.frameLate f then s.lateWord n
    else
      let ws := f.words ++ [w]
      if ws.length < f.fcnt ∨ f.byJob = true then
        s.putQueue n { s.queue n with frame := some { f with words := ws.take f.fcnt } }
      else s.commitFrame n ws

/-- A unit of received records delivered as one frame (R79-R81). -/
def State.deliver (s : State) (n : Nat) (recs : List Rec) : State :=
  let s := s.openFrame n recs.length false
  if (s.queue n).frame.isSome then s.commitFrame n recs else s

/-- The oldest committed record of a queue, as admission sees it (R78, R85). -/
def State.qFront (s : State) (n : Nat) : Option Rec :=
  if s.isRing n then
    if s.ringOcc n = 0 then none
    else some (recOf (s.mrd (s.ringAddr n (s.get (R.QUE_RING_RPTR n))) 64))
  else (s.queue n).head.head?.map QRec.data

/-- The read of a ring's front slot on port 1, its lines checked (R30, R31, R85). -/
def State.ringRead (s : State) (n : Nat) : State := s.touch (s.ringAddr n (s.get (R.QUE_RING_RPTR n))) 64

/-- The front record taken by admission (R86, R88). -/
def State.qPop (s : State) (n : Nat) : State :=
  let q := s.queue n
  let t := if s.isRing n then
      ((s.ringRead n).set (R.QUE_RING_RPTR n) ((s.get (R.QUE_RING_RPTR n) + 1) % 2048)).putQueue n
        { q with ring := q.ring.drop 1, snap := q.snap - 1, fenced := false }
    else s.putQueue n { q with head := q.head.drop 1, snap := q.snap - 1, fenced := false }
  t.qSync n

/-- Commit ticks of the committed records, oldest first. -/
def State.qTicks (s : State) (n : Nat) : List Nat :=
  let q := s.queue n
  if s.isRing n then q.ring else q.head.map QRec.tick ++ q.spill ++ q.tail.map QRec.tick

/-- The delay that PRT_QDLYn gives queue `n` (R522, R526). -/
def State.qDelay (s : State) (n : Nat) : Nat := s.get ⟨R.PRT_QDLY (n / 4), 8 * (n % 4), 8⟩

/-- The head snapshot of one queue (R96): the records committed before this capture phase and not held by a delay. -/
def State.snapQueue (s : State) (n : Nat) : State :=
  s.putQueue n { s.queue n with
    snap := ((s.qTicks n).takeWhile (fun t => decide (t < s.now) && decide (t + s.qDelay n ≤ s.now))).length }

/-- The head snapshot of every queue (R96). -/
def State.headSnapshot (s : State) : State := (List.range 32).foldl State.snapQueue s

/-- The above flag of one queue (R89, R522) and its occupancy at the commit. -/
def State.compareMarks (s : State) (n : Nat) : State :=
  let o := s.qOcc n
  let up := decide (s.get (R.QUE_WMH_HIGH n) ≤ o) || (s.get R.PRT_BP0_QUEUES).testBit n
  let down := decide (o ≤ s.get (R.QUE_WML_LOW n))
  let t := s.set (R.QUE_OCC_OCC n) o
  (if up then t.set (R.QUE_STAT_ABOVE n) 1 else if down then t.set (R.QUE_STAT_ABOVE n) 0 else t).qSync n

/-- Every queue's watermarks compared (R89). -/
def State.watermarks (s : State) : State := (List.range 32).foldl State.compareMarks s

/-- Whether XOFFk is to be asserted (R90). -/
def State.xoffWanted (s : State) (k : Nat) : Bool :=
  s.on R.QUE_XSTAT_HOLD || (s.get R.QUE_XCTL_FORCE).testBit k ||
    (List.range 32).any (fun n => (s.get (R.QUE_CTL_XMAP n)).testBit k && s.on (R.QUE_STAT_ABOVE n))

/-- The XOFF outputs decided in a commit phase for cycle 0 of the next tick (R90). -/
def State.decideXoff (s : State) : State :=
  { s with xoffNext := (List.range 8).foldl (fun m k => if s.xoffWanted k then m + 2 ^ k else m) 0 }

/-! ### Commands -/

/-- FRAME_OPEN (R79-R81): a source opens a frame with its descriptor; the head-end protocol engine opens it for a cipher job
(R342, R349). -/
def execFrameOpen (q : Fin 32) (fcnt : Fin 64) (job : Bool) (s : State) : Out :=
  .next (s.receive (.frameOpen q fcnt job) (fun s => s.openFrame q fcnt job))

/-- FRAME_WORD_WRITE (R81, R83): the next record word of the open frame. -/
def execFrameWordWrite (q : Fin 32) (w : BitVec 512) (s : State) : Out :=
  .next (s.receive (.frameWordWrite q w) (fun s => s.writeWord q w))

/-- FRAME_ERROR_REWIND (R82): the source reports an error, a tag failure, or is reset. -/
def execFrameErrorRewind (q : Fin 32) (s : State) : Out :=
  .next (s.receive (.frameErrorRewind q) (fun s => s.rewind q))

/-- FRAME_TIMEOUT (R83, R52): in the commit phase of its deadline tick an uncommitted frame is rewound. -/
def execFrameTimeout (q : Fin 32) (s : State) : Out :=
  .next (s.run (fun s =>
    match (s.queue q).frame with
    | none => s
    | some f => if s.phase = .commit ∧ f.deadline ≤ s.now then s.rewind q else s))

/-- The oldest record of the spill area as it is read: with a line uncorrectable, every byte is 0 (R31, R91); `bad` when this read finds
three new symbols in error in its first line. -/
def State.spillRead (s : State) (n : Nat) (bad : Bool) : Rec × State :=
  let a := s.placeAddr n (s.queue n).spillAt
  let t := if bad ∧ s.served (bankOf a) = true then (s.checkLine (a / 32) 3).2 else s.touchLine (a / 32)
  let t := t.touchLine (a / 32 + 1)
  (if t.engBad (a / 32) || t.engBad (a / 32 + 1) then 0 else recOf (t.mrd a 64), t)

/-- QUEUE_REFILL (R78, R91): one record moves to a head with room, from the spill area or, that empty, from the tail. -/
def execQueueRefill (q : Fin 32) (bad : Bool) (s : State) : Out :=
  .next (s.run (fun s =>
    let u := s.queue q
    if u.head.length < 16 then
      match u.spill, u.tail with
      | k :: t, _ =>
        let x := s.spillRead q bad
        (x.2.putQueue q { u with head := u.head ++ [⟨x.1, k⟩], spill := t, spillAt := (u.spillAt + 1) % s.spillCap q }).spillOver q
      | [], r :: t => s.putQueue q { u with head := u.head ++ [r], tail := t }
      | [], [] => s
    else s))

/-- The change of mode of R87. -/
def State.changeMode (s : State) (n : Nat) (mode : Bool) : State :=
  if s.on (R.QUE_CTL_MODE n) = mode then s
  else if s.on (R.QUE_CTL_EN n) = false ∧ s.qCommitted n = 0 ∧ (s.queue n).frame = none then
    (((((s.set (R.QUE_CTL_MODE n) (b2n mode)).set (R.QUE_STAT_MODE n) (b2n mode)).set (R.QUE_RING_RPTR n) 0).set
      (R.QUE_RING_WPTR n) 0).putQueue n {}).qSync n
  else s.bump (R.QUE_CNT_PTRERR n)

/-- The advance of a ring's read pointer (R86). -/
def State.advanceRing (s : State) (n rptr : Nat) : State :=
  let w := s.get (R.QUE_RING_WPTR n)
  let old := s.ringOcc n
  let new := (w + 2048 - rptr) % 2048
  if old < new then s.bump (R.QUE_CNT_PTRERR n)
  else
    let q := s.queue n
    ((s.set (R.QUE_RING_RPTR n) rptr).putQueue n
      { q with ring := q.ring.drop (old - new), snap := q.snap - (old - new) }).qSync n

end Sys2Proof.Machine
end

