-- ==== Sys2Proof/Machine/Cipher.lean ====
section
/-!
DEFINITION. The cipher engine (R334-R353): pages and their owners, jobs, nonces and counter slots, failure of authentication.
-/
namespace Sys2Proof.Machine

/-! ### Pages -/

/-- An empty page. -/
def page0 (_ : Nat) : Page := {}

/-- Page p beside its registers. -/
def State.page (s : State) (p : Nat) : Page := SMap.get page0 s.sec.pages p

/-- STATE, KEYV and OWNER of a page brought up to it (R338, R352). -/
def State.syncPage (s : State) (p : Nat) : State :=
  let g := s.page p
  let st := if g.busy then 2 else if g.key.isEmpty then 0 else if g.spent then 3 else 1
  ((s.set (R.CIP_STAT_STATE p) st).set (R.CIP_STAT_KEYV p) (b2n (!g.key.isEmpty))).set (R.CIP_STAT_OWNER p) (s.get (R.CIP_OWN_OWNER p))

/-- A page as it stands by the slot that it names: with a key under an invalid slot it is SPENT (R347). -/
def State.spentBySlot (s : State) (p : Nat) (g : Page) : Page :=
  if g.key ≠ [] ∧ s.get (R.CIP_CTL_NSRC p) = 2 ∧ (s.slot (s.get (R.CIP_CTL_SLOT p))).valid = false then { g with spent := true } else g

/-- Page p replaced. -/
def State.putPage (s : State) (p : Nat) (g : Page) : State :=
  let g := s.spentBySlot p g
  ({ s with sec := { s.sec with pages := SMap.put page0 s.sec.pages p g } }).syncPage p

/-- The owner that a page has in effect: one owned by 0Eh counts as owned by none outside TEST (R335). -/
def State.pageOwner (s : State) (p : Nat) : Nat :=
  let o := s.get (R.CIP_OWN_OWNER p)
  if o = 14 ∧ s.lc ≠ lcTest then 0 else o

/-- An access to a page by an agent that does not own it (R336). -/
def State.cipFault (s : State) (p agent : Nat) : State :=
  ((s.bump R.CIP_FAULT_COUNT).capture R.CIP_FAULT_VALID [(R.CIP_FAULT_PAGE, p), (R.CIP_FAULT_AGENT, agent)]).raise
    0x0E01 14 1 [(0, 1, p), (1, 1, agent)]

/-- A command on a page by an agent: carried out for the owner, else an isolation fault (R336). -/
def State.byOwner (s : State) (agent p : Nat) (f : State → State) : State :=
  if agent ≠ 0 ∧ s.pageOwner p = agent then f s else s.cipFault p agent

/-- The lowest EMPTY page of an owner (R337). -/
def State.emptyPage (s : State) (own : Nat) (used : List Nat) : Option Nat :=
  (List.range 256).find? (fun p =>
    decide (s.get (R.CIP_OWN_OWNER p) = own) && (s.page p).key.isEmpty && decide ((s.page p).busy = false) && !used.contains p)

/-- The lowest page of an owner, EMPTY or not. -/
def State.firstPage (s : State) (own : Nat) : Option Nat :=
  (List.range 256).find? (fun p => decide (s.get (R.CIP_OWN_OWNER p) = own))

/-- A key and a salt loaded into a page (R339): a BUSY page takes them when its job ends. -/
def State.loadPage (s : State) (p : Nat) (key salt : List Byte) : State :=
  let g := s.page p
  if g.busy then s.putPage p { g with load := some (key, salt) }
  else s.putPage p { g with key := key, salt := salt, ctr := 1, spent := false }

/-- CIP_CTL of a page that a hardware owner, or firmware for its receipts, uses with counter slot j (R340, R344): the nonce source and the
slot, by which an invalid slot spends the page (R347). -/
def State.nameSlot (s : State) (p j : Nat) : State :=
  if (s.page p).busy then s else (s.set (R.CIP_CTL_NSRC p) 2).set (R.CIP_CTL_SLOT p) j

/-- The registers that ZERO clears (R338). -/
def State.zeroPageRegs (s : State) (p : Nat) : State :=
  let t := [0, 1, 2, 3].foldl (fun t w =>
    ((t.set (R.CIP_IV_IV w p) 0).set (R.CIP_TAG_TAG w p) 0).set (R.CIP_HOLD_HOLD w p) 0) s
  (t.set (R.CIP_CTRLO_CTR p) 0).set (R.CIP_CTRHI_CTR p) 0

/-- TAG registers of a page. -/
def State.setTag (s : State) (p : Nat) (tag : List Byte) : State :=
  [0, 1, 2, 3].foldl (fun t w => t.set (R.CIP_TAG_TAG w p) (leAt tag (4 * w) 4)) s

/-- HOLD registers of a page. -/
def State.setHold (s : State) (p : Nat) (b : List Byte) : State :=
  [0, 1, 2, 3].foldl (fun t w => t.set (R.CIP_HOLD_HOLD w p) (leAt b (4 * w) 4)) s

/-- The counter that a job was issued, which its page returns from the end of the job (R344). -/
def State.showIssued (s : State) (p : Nat) : State :=
  let c := (s.page p).issued
  if c = 0 then s else s.setAll [(R.CIP_CTRLO_CTR p, c % 2 ^ 32), (R.CIP_CTRHI_CTR p, c / 2 ^ 32)]

/-- The end of a job (R339, R344, R350, R351): RESULT, JOBS, the held bytes gone unless RESULT is VERIFIED (R352), the counter issued, the
tag of the last generation, and a load that waited. -/
def State.endJob (s : State) (p res : Nat) : State :=
  let g := s.page p
  let t := ((s.set (R.CIP_STAT_RESULT p) res).wrap (R.CIP_JOBS_JOBS p)).showIssued p
  let t := if res = 7 then t else t.setHold p []
  let t := (t.putPage p { g with busy := false, load := none, issued := 0 }).setTag p g.tag
  match g.load with
  | some l => t.loadPage p l.1 l.2
  | none => t

/-- The frame open on queue q when it is the one that the job of page p writes (R349). -/
def State.jobFrame (s : State) (p q : Nat) : Option Frame :=
  (s.queue q).frame.filter (fun f => f.byJob && decide ((s.page p).frame = some f.num))

/-- The frame of a queue job rewound when it is still open (R349, R82). -/
def State.dropJobFrame (s : State) (p q : Nat) : State := if (s.jobFrame p q).isSome then s.rewind q else s

/-! ### Counter slots -/

/-- The next counter of slot j. -/
def State.nextCtr (s : State) (j : Nat) : Nat := SMap.get zN s.sec.next j

/-- Every page that names an invalid slot is SPENT (R347). -/
def State.spendSlot (s : State) (j : Nat) : State :=
  (List.range 256).foldl (fun s p =>
    let g := s.page p
    if g.key ≠ [] ∧ s.get (R.CIP_CTL_NSRC p) = 2 ∧ s.get (R.CIP_CTL_SLOT p) = j then s.putPage p { g with spent := true }
    else s) s

/-- The stored mark of slot j raised by 2^20, or the slot made invalid when the mark would pass 2^64 - 1 (R346, R347). -/
def State.raiseMark (s : State) (j : Nat) : State :=
  let c := s.slot j
  if 2 ^ 64 ≤ c.mark + 2 ^ 20 then (s.putSlot j { c with valid := false }).spendSlot j
  else s.putSlot j { c with mark := c.mark + 2 ^ 20 }

/-- Each valid slot resumes at its mark after a die reset or restart, the stored mark raised first (R346). -/
def State.resumeSlot (s : State) (j : Nat) : State :=
  if (s.slot j).valid then
    ({ s with sec := { s.sec with next := SMap.put zN s.sec.next j (s.slot j).mark } }).raiseMark j
  else s

/-- Every slot resumed (R346). -/
def State.resumeSlots (s : State) : State := (List.range 32).foldl State.resumeSlot s

/-- The next counter of slot j issued; one that would reach the mark waits for the raise (R346). -/
def State.issueSlot (s : State) (j : Nat) : Option Nat × State :=
  let s := if (s.slot j).valid ∧ (s.slot j).mark ≤ s.nextCtr j then s.raiseMark j else s
  if (s.slot j).valid then
    (some (s.nextCtr j), { s with sec := { s.sec with next := SMap.put zN s.sec.next j (s.nextCtr j + 1) } })
  else (none, s)

/-- The counter of a page's session issued (R345). -/
def State.issueSession (s : State) (p : Nat) : Option Nat × State :=
  let g := s.page p
  if 2 ^ 64 ≤ g.ctr then (none, s.putPage p { g with spent := true })
  else (some g.ctr, s.putPage p { g with ctr := g.ctr + 1, spent := g.spent || decide (2 ^ 64 ≤ g.ctr + 1) })

/-- A counter issued for a page under a nonce source (R344): SESSION 1, SLOT 2. -/
def State.issueFor (s : State) (p nsrc : Nat) : Option Nat × State :=
  if nsrc = 1 then s.issueSession p
  else
    let r := s.issueSlot (s.get (R.CIP_CTL_SLOT p))
    match r.1 with
    | some c => (some c, r.2)
    | none => (none, r.2.putPage p { r.2.page p with spent := true })

/-- A salt and a counter as a nonce (R344). -/
def nonceOf (salt : List Byte) (c : Nat) : List Byte := sliceB salt 0 4 ++ leBytes 8 c

/-- PRT_TAG forces the next GCM or CCM decryption on this page to fail (R522); the forcing is used up. -/
def State.forcedTag (s : State) (p : Nat) : Bool × State :=
  if s.on R.PRT_TAG_ARMED ∧ s.get R.PRT_TAG_TGT = 0 ∧ s.get R.PRT_TAG_PAGE = p then (true, s.set R.PRT_TAG_ARMED 0)
  else (false, s)

/-! ### Whole jobs of the hardware owners -/

/-- A GCM encryption by a hardware owner's command port with a session counter (R304, R344): the counter issued, the
ciphertext and the 16-byte tag; none when the page is SPENT. -/
def State.sealSession (s : State) (p : Nat) (aadOf : Nat → List Byte) (pt : List Byte) :
    Option (Nat × List Byte × List Byte) × State :=
  let g := s.page p
  let r := s.issueSession p
  match r.1 with
  | none => (none, (r.2.bump R.CIP_CNT_NOCTR).endJob p 5)
  | some c =>
    let iv := nonceOf g.salt c
    let ct := gcmCrypt g.key iv pt
    let tag := gcmTag g.key iv (aadOf c) ct
    (some (c, ct, tag), (r.2.putPage p { r.2.page p with tag := tag, issued := c }).endJob p 1)

/-- A GCM encryption of a job that takes its nonce from counter slot j (R344, R346, R347): the counter issued, the ciphertext and the
16-byte tag; none when the slot has no counter left. -/
def State.sealSlot (s : State) (p j : Nat) (aad pt : List Byte) : Option (Nat × List Byte × List Byte) × State :=
  let s := s.nameSlot p j
  let r := if (s.page p).spent then (none, s) else s.issueSlot j
  match r.1 with
  | none => (none, ((r.2.putPage p { r.2.page p with spent := true }).bump R.CIP_CNT_NOCTR).endJob p 5)
  | some c =>
    let key := (s.page p).key
    let iv := nonceOf (s.slot j).salt c
    let ct := gcmCrypt key iv pt
    let tag := gcmTag key iv aad ct
    (some (c, ct, tag), (r.2.putPage p { r.2.page p with tag := tag, issued := c }).endJob p 1)

/-- The output of a verified job with a queue destination (R341, R349): the first `skip` bytes held, the record words but the last written
into the frame of queue q, and the last withheld. -/
def State.holdJob (s : State) (p q skip : Nat) (out : List Byte) : State :=
  let words := (chunks 64 1024 (out.drop skip)).map recOf
  let t := words.dropLast.foldl (fun t w => t.writeWord q w) s
  (t.putPage p { t.page p with
    held := some (q, words.drop (words.length - 1)), frame := (t.queue q).frame.map Frame.num }).setHold p (out.take skip)

/-- A GCM decryption by a hardware owner with a given counter (R344, R348): the text when the tag verifies; `dest` says what becomes of it
before the job ends. -/
def State.openSession (s : State) (p c : Nat) (aad ct tag : List Byte) (okRes : Nat) (dest : List Byte → State → State) :
    Option (List Byte) × State :=
  let g := s.page p
  let iv := nonceOf g.salt c
  let f := s.forcedTag p
  if gcmTag g.key iv aad ct = tag ∧ f.1 = false then
    let out := gcmCrypt g.key iv ct
    (some out, (dest out f.2).endJob p okRes)
  else (none, (f.2.bump R.CIP_CNT_AUTHFAIL).endJob p 2)

/-! ### Jobs by the page registers -/

/-- Whether START must end the job with BADJOB (R342, R343). -/
def State.badJob (s : State) (p : Nat) : Bool :=
  let g := s.page p
  let mode := s.get (R.CIP_CTL_MODE p)
  let dec := s.on (R.CIP_CTL_DIR p)
  let nsrc := s.get (R.CIP_CTL_NSRC p)
  let tl := s.get (R.CIP_CTL_TAGLEN p)
  let len := s.get (R.CIP_LEN_LEN p)
  let aad := s.get (R.CIP_AADL_AADLEN p)
  let nl := s.get (R.CIP_NLEN_NLEN p)
  let skip := s.get (R.CIP_SKIP_SKIP p)
  let dst := s.get (R.CIP_DST_DST p)
  let q := s.get (R.CIP_CTL_QNUM p)
  let dstq := s.on (R.CIP_CTL_DSTQ p)
  let auth := decide (mode ≤ 1)
  let half := if s.on (R.CIP_CTL_KS p) then 32 else 16
  let lens :=
    if mode = 0 then decide (len ≤ 65536 ∧ aad ≤ 65536 ∧ 12 ≤ tl ∧ tl ≤ 16)
    else if mode = 1 then
      decide (7 ≤ nl ∧ nl ≤ 13 ∧ len < 2 ^ (8 * (15 - nl)) ∧ len ≤ 65536 ∧ aad ≤ 65279 ∧ 4 ≤ tl ∧ tl ≤ 16 ∧ tl % 2 = 0)
    else if mode = 2 then decide (len ≤ 65536 ∧ aad = 0 ∧ 1 ≤ tl ∧ tl ≤ 16)
    else if mode = 3 then decide (len ≤ 65536 ∧ aad = 0)
    else decide (16 ≤ len ∧ len ≤ 65536 ∧ aad = 0)
  g.key.isEmpty || decide (4 < mode ∨ nsrc = 3 ∨ tl = 0 ∨ 16 < tl ∨ 16 < skip) || !lens ||
    (auth && decide (nsrc ≠ 0 ∧ nl ≠ 12)) ||
    (auth && dec && !dstq && decide (s.owner (bankOf dst) ≠ 10 ∨ s.owner (bankOf (dst + (len - 1))) ≠ 10)) ||
    (dstq && (decide (s.get (R.CIP_OWN_OWNER p) ≠ 12 ∨ len < skip ∨ (len - skip) % 64 ≠ 0) ||
      (match (s.queue q).frame with
        | none => true
        | some f => !f.byJob || decide (f.fcnt ≠ (len - skip) / 64)))) ||
    (decide (mode = 3) && decide (0 < len ∧ 2 ^ 32 < beNat (leBytes 4 (s.get (R.CIP_IV_IV 3 p))) + ceilDiv len 16)) ||
    (decide (mode = 4) && decide (g.key.take half = (g.key.drop half).take half))

/-- A page's job begins (R342, R344, R347): the nonce counter is issued, or the job ends NOCTR. -/
def State.startJob (s : State) (p : Nat) : State :=
  if (s.page p).busy then s.bump R.CIP_CNT_BUSYERR
  else if s.badJob p then s.endJob p 4
  else
    let nsrc := s.get (R.CIP_CTL_NSRC p)
    let run := fun (s : State) (c : Nat) =>
      ((s.putPage p { s.page p with
        busy := true, issued := c, held := none, frame := (s.queue (s.get (R.CIP_CTL_QNUM p))).frame.map Frame.num }).setTag p []).setHold p []
    if s.get (R.CIP_CTL_MODE p) ≤ 1 ∧ s.on (R.CIP_CTL_DIR p) = false ∧ nsrc ≠ 0 then
      if (s.page p).spent then (s.bump R.CIP_CNT_NOCTR).endJob p 5
      else
        let r := s.issueFor p nsrc
        match r.1 with
        | some c => run r.2 c
        | none => (r.2.bump R.CIP_CNT_NOCTR).endJob p 5
    else run s 0

/-- A span cut at bank ends; `fuel` bounds the pieces. -/
def bankParts : Nat → Nat → Nat → List (Nat × Nat)
  | 0, _, _ => []
  | f + 1, a, n =>
    if n = 0 then []
    else
      let k := min n (0x80000 - a % 0x80000)
      (a, k) :: bankParts f (a + k) (n - k)

/-- The agent that a job's access counts as (R341). -/
def State.jobAgent (s : State) (own b : Nat) : Nat := if 45 ≤ b ∧ b ≤ 47 ∧ s.owner b = 10 then 10 else own

/-- An access of a job that reaches beyond SRAM is unmapped (R22).  DESIGN CHOICE (assumption 80): it counts once, as path T for a page of
the test interface and as firmware for every other owner. -/
def State.jobUnmapped (s : State) (own a n : Nat) : State :=
  if 0 < n ∧ sramEnd < a + n then s.refuse .unmapped (if own = 14 then .t else .fw) (max a sramEnd) else s

/-- A job's read: the bytes, whether an uncorrectable line was met, and the state (R341, R350, R22, R27). -/
def State.jobRead (s : State) (own a n : Nat) : (List Byte × Bool) × State :=
  (bankParts 8 a n).foldl (fun r x =>
    let b := bankOf x.1
    let ag := r.2.jobAgent own b
    if sramEnd ≤ x.1 then ((r.1.1 ++ List.replicate x.2 0#8, r.1.2), r.2)
    else match r.2.grants b ag with
      | .refused => ((r.1.1 ++ List.replicate x.2 0#8, r.1.2), r.2.isolationFault b ag)
      | .off => ((r.1.1 ++ List.replicate x.2 0#8, r.1.2), r.2)
      | _ =>
        let d := r.2.readSpan x.1 x.2 0
        ((r.1.1 ++ d.1, r.1.2 || (linesOf x.1 x.2).any d.2.lineBad), d.2)) (([], false), s.jobUnmapped own a n)

/-- A job's write (R341, R22, R27). -/
def State.jobWrite (s : State) (own a : Nat) (bs : List Byte) : State :=
  ((bankParts 8 a bs.length).foldl (fun (r : List Byte × State) x =>
    let b := bankOf x.1
    let ag := r.2.jobAgent own b
    let rest := r.1.drop x.2
    if sramEnd ≤ x.1 then (rest, r.2)
    else match r.2.grants b ag with
      | .refused => (rest, r.2.isolationFault b ag)
      | .off => (rest, r.2)
      | _ => (rest, r.2.portPut x.1 (r.1.take x.2))) (bs, s.jobUnmapped own a bs.length)).2

/-- The key bytes that a mode and key size take; bytes that the loaded key does not have are open values. -/
def State.jobKey (s : State) (p n : Nat) : List Byte × State :=
  let k := (s.page p).key
  if n ≤ k.length then (k.take n, s)
  else
    let r := s.drawBytes 64
    ((k ++ r.1).take n, r.2)

/-- The nonce of a GCM or CCM job (R344). -/
def State.jobNonce (s : State) (p : Nat) : List Byte :=
  let g := s.page p
  let iv := (List.range 4).flatMap (fun w => leBytes 4 (s.get (R.CIP_IV_IV w p)))
  let nsrc := s.get (R.CIP_CTL_NSRC p)
  let n := if s.get (R.CIP_CTL_MODE p) = 0 then 12 else s.get (R.CIP_NLEN_NLEN p)
  if nsrc = 0 then iv.take n
  else
    let c := if s.on (R.CIP_CTL_DIR p) then s.get (R.CIP_IV_IV 0 p) + 2 ^ 32 * s.get (R.CIP_IV_IV 1 p) else g.issued
    nonceOf (if nsrc = 1 then g.salt else (s.slot (s.get (R.CIP_CTL_SLOT p))).salt) c

/-- The bytes that a job has its bank destination take (R341): the text, and after an encryption the tag. -/
def State.jobOut (s : State) (p : Nat) : Nat :=
  if s.get (R.CIP_CTL_MODE p) = 2 then if s.on (R.CIP_CTL_DIR p) then 0 else s.get (R.CIP_CTL_TAGLEN p)
  else s.get (R.CIP_LEN_LEN p) + (if s.get (R.CIP_CTL_MODE p) ≤ 1 ∧ s.on (R.CIP_CTL_DIR p) = false then s.get (R.CIP_CTL_TAGLEN p) else 0)

/-- The output of a job that ends without result zeroed (R348, R350): its frame rewound, or its bank destination overwritten with zeros. -/
def State.undoJob (s : State) (p : Nat) : State :=
  if s.on (R.CIP_CTL_DSTQ p) then s.dropJobFrame p (s.get (R.CIP_CTL_QNUM p))
  else s.jobWrite (s.pageOwner p) (s.get (R.CIP_DST_DST p)) (List.replicate (s.jobOut p) 0#8)

/-- Page p zeroed (R338): a running job ends ABORTED with its output zeroed (R350). -/
def State.zeroPage (s : State) (p : Nat) : State :=
  let t := if (s.page p).busy then ((s.undoJob p).set (R.CIP_STAT_RESULT p) 3).wrap (R.CIP_JOBS_JOBS p) else s
  (t.putPage p {}).zeroPageRegs p

/-- What a job computes (R343): the output text, the tag that it generates or expects to find, and whether a tag fails. -/
def jobResult (mode : Nat) (dec : Bool) (key nonce iv aad txt want : List Byte) (tl : Nat) : List Byte × List Byte × Bool :=
  if mode = 0 then
    let out := gcmCrypt key nonce txt
    let tag := (gcmTag key nonce aad (if dec then txt else out)).take tl
    (out, tag, dec && decide (tag ≠ want))
  else if mode = 1 then
    let out := ccmCrypt key nonce txt
    let tag := ccmTag key nonce aad (if dec then out else txt) tl
    (out, tag, dec && decide (tag ≠ want))
  else if mode = 2 then
    let tag := (cmac key txt).take tl
    ([], tag, dec && decide (tag ≠ want))
  else if mode = 3 then (ctrMode inc32 key iv (txt.length / 16 + 1) 0 txt, [], false)
  else (xts (!dec) (key.take (key.length / 2)) (key.drop (key.length / 2)) iv txt, [], false)

/-- A running job completes (R341-R350). -/
def State.finishJob (s : State) (p : Nat) : State :=
  let own := s.pageOwner p
  let mode := s.get (R.CIP_CTL_MODE p)
  let dec := s.on (R.CIP_CTL_DIR p)
  let tl := s.get (R.CIP_CTL_TAGLEN p)
  let len := s.get (R.CIP_LEN_LEN p)
  let aadl := s.get (R.CIP_AADL_AADLEN p)
  let dst := s.get (R.CIP_DST_DST p)
  let skip := s.get (R.CIP_SKIP_SKIP p)
  let q := s.get (R.CIP_CTL_QNUM p)
  let dstq := s.on (R.CIP_CTL_DSTQ p)
  let open1 := (s.jobFrame p q).any (fun f => !(s.frameLate f))
  if dstq = true ∧ open1 = false then (s.lateWord q).endJob p 3
  else
    let tagged := decide (mode ≤ 2)
    let r := s.jobRead own (s.get (R.CIP_SRC_SRC p)) (aadl + len + (if dec && tagged then tl else 0))
    if r.1.2 then (r.2.undoJob p).endJob p 6
    else
      let ks := s.on (R.CIP_CTL_KS p)
      let k := r.2.jobKey p ((if ks then 32 else 16) * (if mode = 4 then 2 else 1))
      let iv := (List.range 4).flatMap (fun w => leBytes 4 (s.get (R.CIP_IV_IV w p)))
      let aad := r.1.1.take aadl
      let txt := (r.1.1.drop aadl).take len
      let want := r.1.1.drop (aadl + len)
      let o := jobResult mode dec k.1 (s.jobNonce p) iv aad txt want tl
      let f := if mode ≤ 1 ∧ dec = true then k.2.forcedTag p else (false, k.2)
      let t := f.2
      if o.2.2 || f.1 then
        ((if mode = 2 then t else t.undoJob p).bump R.CIP_CNT_AUTHFAIL).endJob p 2
      else
        let t := if dec then t else
          if tagged then t.putPage p { t.page p with tag := o.2.1 } else t
        if dstq then (t.holdJob p q skip o.1).endJob p 7
        else
          (t.jobWrite own dst (o.1 ++ (if dec then [] else o.2.1))).endJob p 1

/-- The end of a VERIFIED queue job (R349). -/
def State.settleJob (s : State) (p : Nat) (commit : Bool) : State :=
  let g := s.page p
  if g.busy then s.bump R.CIP_CNT_BUSYERR
  else match g.held with
    | none => s
    | some h =>
      let t := s.putPage p { g with held := none }
      match t.jobFrame p h.1 with
      | none => t.lateWord h.1
      | some f =>
        if t.frameLate f then t.lateWord h.1
        else if commit then t.commitFrame h.1 (f.words ++ h.2) else t.rewind h.1

/-- A register of a page written by a hardware owner's command port, which acts in the cycle of issue (R340): ignored and counted while
the page is BUSY; a reserved encoding is no write (R12). -/
def State.portReg (s : State) (p : Nat) (w : Nat × Word) : State :=
  let a := R.CIP_CTL p + w.1
  if (s.page p).busy then s.bump R.CIP_CNT_BUSYERR
  else match rowAt a with
    | none => s
    | some r => (s.mergeWord a (s.judgeRow .fw a (BitVec.allOnes 32) w.2 r).mask w.2).putPage p (s.page p)

/-! ### Commands -/

/-- JOB_END (R341-R351): a job of a BUSY page completes. -/
def execJobEnd (page : Fin 256) (s : State) : Out :=
  .next (s.run (fun s => if (s.page page).busy then s.finishJob page else s))

/-- COUNTER_MARK_RAISE (R346): the next counter has passed the middle of its reservation. -/
def execCounterMarkRaise (slot : Fin 32) (s : State) : Out :=
  .next (s.run (fun s =>
    if (s.slot slot).valid ∧ (s.slot slot).mark < s.nextCtr slot + 2 ^ 19 then s.raiseMark slot else s))

end Sys2Proof.Machine
end

