-- ==== Sys2Proof/Machine/Keys.lean ====
section
/-!
DEFINITION. Key loads, KEY_UPDATE and the TRNG (R365-R371, R380).
-/
namespace Sys2Proof.Machine

/-! ### Key loads -/

/-- The purposes of R365 and the owners that may ask for them. -/
def purposeAllowed (purpose agent : Nat) : Bool :=
  if purpose = 1 then decide (agent = 8)
  else if purpose = 2 ∨ purpose = 3 then decide (1 ≤ agent ∧ agent ≤ 4)
  else false

/-- The load of a storage or receipt key of generation g with counter slot j into page p (R365). -/
def State.loadSlotKey (s : State) (p j g : Nat) (key : List Byte) : Nat × State :=
  let c := s.slot j
  if g < c.gen ∨ (g = c.gen ∧ c.valid = false) then (4, s)
  else
    let salt := sliceB key 32 4
    let s :=
      if c.gen < g then
        let t := s.putSlot j { salt := salt, mark := 1, gen := g, valid := true }
        { t with sec := { t.sec with next := SMap.put zN t.sec.next j 1 } }
      else s.putSlot j { c with salt := salt }
    (1, s.loadPage p (key.take 32) salt)

/-- A key load decided (R365): 1 DONE, 2 NOTOWNER, 3 NOROOT, 4 BADGEN. -/
def State.decideLoad (s : State) (agent p purpose g : Nat) : Nat × State :=
  if purposeAllowed purpose agent = false ∨ s.pageOwner p ≠ agent then (2, s)
  else if purpose = 3 then
    match s.baseNote with
    | none => (3, s)
    | some b => (1, s.loadPage p (supKey b g) [])
  else match s.isl.keys.note with
    | none => (3, s)
    | some n => if purpose = 1 then s.loadSlotKey p 0 g (storageKey n g) else s.loadSlotKey p 1 g (receiptKey n g)

/-- A key load with its result in KEY_LDRES (R365, R378). -/
def State.loadKey (s : State) (agent p purpose g : Nat) : Nat × State :=
  let r := s.decideLoad agent p purpose g
  (r.1, (r.2.set R.KEY_LDRES_RESULT r.1).wrap R.KEY_LDRES_SEQ)

/-- The loads asked for by writes of KEY_LDCMD in the last tick decided, in their order (R365). -/
def State.runLoads (s : State) : State :=
  s.sec.loads.foldl (fun (t : State) l => (t.loadKey l.agent l.page l.purpose l.gen).2) { s with sec := { s.sec with loads := [] } }

/-! ### AES key wrap (SP 800-38F, KW) -/

/-- One unwrap round over the semiblocks: step t from 6n down to 1. -/
def unwrapSteps (kek : List Byte) (n : Nat) : Nat → List Byte × List (List Byte) → List Byte × List (List Byte)
  | 0, st => st
  | t + 1, st =>
    let i := t % n
    let a := beBytes 8 (beNat st.1 ^^^ (t + 1))
    let b := aesDec kek (a ++ nth st.2 i [])
    unwrapSteps kek n t (b.take 8, st.2.set i (b.drop 8))

/-- The key data when the integrity check passes. -/
def unwrapKey (kek wrapped : List Byte) : Option (List Byte) :=
  let n := wrapped.length / 8 - 1
  let st := unwrapSteps kek n (6 * n) (wrapped.take 8, chunks 8 n (wrapped.drop 8))
  if st.1 = List.replicate 8 0xA6#8 then some st.2.flatten else none

/-! ### KEY_UPDATE -/

/-- Whether VER, OP and ARG are not reserved and reserved and unused bytes are zero (R366, R367 check 1). -/
def kupForm (m : List Byte) : Bool :=
  let op := leAt m 1 1
  let arg := leAt m 2 1
  let z := fun off n => decide ((sliceB m off n).all (fun b => decide (b = 0#8)) = true)
  decide (m.length = 284) && decide (leAt m 0 1 = 1) && z 16 4 &&
    (if op = 1 then decide (1 ≤ arg ∧ arg ≤ 4) && (decide (arg = 4) || z 188 32)
     else if op = 2 then decide (arg ≤ 4) && z 84 64 && z 148 72
     else if op = 3 then decide (arg ≤ 4 ∨ (16 ≤ arg ∧ arg ≤ 20)) && z 84 64 && z 180 40
     else false)

/-- AHK as bytes. -/
def ahkBytes : List Byte := beBytes 32 Config.ahk.toNat

/-- The authority hashes that R368 allows for OP and ARG in the present state. -/
def State.kupAuthorities (s : State) (op arg : Nat) : List (List Byte) :=
  let k := s.get R.KEY_LC_CYCLE
  let ahm := SMap.get (fun _ => ([] : List Byte)) s.otp.ahm k
  let ahf := SMap.get (fun _ => ([] : List Byte)) s.otp.ahf k
  let l := if s.lc = 0 ∨ s.lc = 3 then [ahkBytes]
    else if s.lc = 1 then [ahm]
    else if s.lc = 2 then (if op = 2 ∧ arg = 3 then [ahkBytes] else [ahf])
    else []
  l.filter (fun h => !h.isEmpty)

/-- A transition allowed in the present state whose conditions hold (R368, R369). -/
def State.transitionOk (s : State) (target : Nat) : Bool :=
  let k := s.get R.KEY_LC_CYCLE
  let ahm := fun j => !(SMap.get (fun _ => ([] : List Byte)) s.otp.ahm j).isEmpty
  let ahf := fun j => !(SMap.get (fun _ => ([] : List Byte)) s.otp.ahf j).isEmpty
  let ks := s.isl.keys
  if target = 4 then decide (s.lc ≤ 3)
  else if s.lc = 0 then decide (target = 1) && ks.ident.isSome && ahm 0
  else if s.lc = 1 then decide (target = 2) && ks.rootF.isSome && ks.hevk.isSome && ahf k
  else if s.lc = 2 then decide (target = 3)
  else if s.lc = 3 then decide (target = 1) && decide (k ≤ 3) && ks.ident.isSome && ahm (k + 1)
  else false

/-- Whether OP and ARG are allowed in the present state with their conditions (R368, R369; check 7). -/
def State.kupAllowed (s : State) (op arg : Nat) : Bool :=
  let k := s.get R.KEY_LC_CYCLE
  if op = 1 then
    if s.lc = 0 then decide (arg = 1)
    else if s.lc = 1 then decide (arg = 1 ∨ arg = 2 ∨ arg = 4)
    else if s.lc = 2 then decide (arg = 2 ∨ arg = 4)
    else if s.lc = 3 then decide (arg = 1 ∨ arg = 3)
    else false
  else if op = 2 then s.transitionOk arg
  else
    let free := if 16 ≤ arg then (SMap.get (fun _ => ([] : List Byte)) s.otp.ahf (arg - 16)).isEmpty
      else (SMap.get (fun _ => ([] : List Byte)) s.otp.ahm arg).isEmpty
    free && (if s.lc = 0 then decide (arg = 0) else if s.lc = 1 then decide (arg = 16 + k)
      else if s.lc = 3 then decide (arg = k + 1 ∧ k ≤ 3) else false)

/-- The key-encryption key of a message under an identity (R361, R366). -/
def kupKek (d : List Byte) (m : List Byte) : List Byte := kuwKey (ecdh (beNat d) (sliceB m 84 64)) (leAt m 12 4)

/-- The item of a WRITE, unwrapped, when it has the size of R366. -/
def kupItem (d : List Byte) (m : List Byte) : Option (List Byte) :=
  if onCurve (pointOf (sliceB m 84 64)) then
    unwrapKey (kupKek d m) (sliceB m 148 (if leAt m 2 1 = 4 then 72 else 40))
  else none

/-- The nine checks of R367 in order: the code of LASTRES and the item of a WRITE. -/
def State.kupCheck (s : State) (m : List Byte) : Nat × List Byte :=
  let op := leAt m 1 1
  let arg := leAt m 2 1
  let apk := sliceB m 20 64
  if kupForm m = false then (2, [])
  else if leAt m 4 8 ≠ Config.serial.toNat then (3, [])
  else if leAt m 3 1 ≠ s.lc then (4, [])
  else if (s.kupAuthorities op arg).contains (sha256 apk) = false then (5, [])
  else if ecdsaVerify apk (sliceB m 220 64) (m.take 220) = false then (6, [])
  else if leAt m 12 4 ≤ s.get R.KEY_UCTR_UCTR then (7, [])
  else if s.kupAllowed op arg = false then (8, [])
  else if op = 1 then
    match s.isl.keys.ident with
    | none => (9, [])
    | some id =>
      match kupItem id.1 m with
      | none => (10, [])
      | some item => (1, item)
  else (1, [])

/-- A refused message (R367): counted, reported, and nothing else changed. -/
def State.kupRefuse (s : State) (code : Nat) (m : List Byte) : State :=
  ((s.set R.KEY_STAT_LASTRES code).bump R.KEY_CNT_REFUSED).raise 0x0F01 15 1
    [(0, 1, code), (1, 1, leAt m 1 1), (4, 4, leAt m 12 4)]

/-- A message checked (R367): the code, with the computations of the signature unit that its checks reached counted (R380), and the state with an accepted message waiting for its commit. -/
def State.kupProcess (s : State) (src : KupSrc) (m : List Byte) : Nat × State :=
  let r := s.kupCheck m
  let s := s.when (decide (r.1 = 1 ∨ 6 ≤ r.1)) State.countVerify
  let s := s.when (decide (leAt m 1 1 = 1 ∧ (r.1 = 1 ∨ r.1 = 10))) State.countAgree
  if r.1 = 1 then
    (1, { s with sec := { s.sec with kup := { s.sec.kup with accepted := some (src, m), item := r.2 } } })
  else (r.1, s.kupRefuse r.1 m)

/-- The message that waits for its commit when it has this OP. -/
def State.kupReady (s : State) (op : Nat) : Option (KupSrc × List Byte) :=
  match s.sec.kup.accepted with
  | some a => if leAt a.2 1 1 = op then some a else none
  | none => none

/-- KEY_UCTR takes the message's counter and the message is counted as applied (R370). -/
def State.kupCommit (s : State) (m : List Byte) : State :=
  let t := ((s.set R.KEY_UCTR_UCTR (leAt m 12 4)).set R.KEY_STAT_LASTRES 1).wrap R.KEY_CNT_ACCEPTED
  { t with sec := { t.sec with kup := { t.sec.kup with accepted := none, item := [] } } }

/-- The item of a WRITE placed in the key store (R368); a new selected root starts the re-derivation of R364. -/
def State.kupWrite (s : State) (arg : Nat) (item : List Byte) : State :=
  let k := s.isl.keys
  let t := s.putKeys (if arg = 1 then { k with rootT := some item } else if arg = 2 then { k with rootF := some item }
    else if arg = 3 then { k with rootR := some item } else { k with hevk := some item })
  if (arg = 1 ∧ s.lc = 1) ∨ (arg = 2 ∧ s.lc = 2) ∨ (arg = 3 ∧ s.lc = 3) then
    let v := { t.val with rederive := true, deriveFrom := t.now + 1, hearts := t.val.hearts.map (fun h => { h with note := none }) }
    ({ t with val := v }).set R.KEY_STAT_REDERIVE 1
  else t

/-- The key store erased whole by a transition (R110, R347, R369): the heart-note table is emptied, and pages that name a slot are SPENT. -/
def State.forgetHearts (s : State) : State :=
  let t := { s with val := { s.val with hearts := [], fill := none, rederive := false } }
  let t := t.setAll [(R.VAL_STAT_HFULL, 0), (R.VAL_STAT_HUSED, 0), (R.KEY_STAT_REDERIVE, 0)]
  (List.range 32).foldl State.spendSlot t

/-- Fuses whose programming begins, and what they are to hold (R370). -/
def State.fuse (s : State) (o : Otp) (life : Bool) : State :=
  { s with sec := { s.sec with kup := { s.sec.kup with fusing := some (o, life) } } }

/-- The fuses as they stand once the programming under way has run to its end (R370, R377). -/
def State.fused (s : State) : Otp := (s.sec.kup.fusing.map Prod.fst).getD s.otp

/-- The programming of fuses ends and is verified (R370): from here a TRANSITION has 800 ticks to its die reset. -/
def State.fuseEnd (s : State) : State :=
  match s.sec.kup.fusing with
  | none => s
  | some (o, life) =>
    ({ s with otp := o, sec := { s.sec with kup := { s.sec.kup with
        fusing := none, transAt := if life then some s.now else s.sec.kup.transAt } } }).setAll
      [(R.KEY_AUTH_AHM, hashMask o.ahm), (R.KEY_AUTH_AHF, hashMask o.ahf)]

/-- The main supplies fail while fuses are being programmed: it is open which way they read (R370). -/
def State.fuseCut (s : State) : State :=
  match s.sec.kup.fusing with
  | none => s
  | some _ =>
    let r := s.draw
    if r.1.toNat % 2 = 1 then r.2 else { r.2 with sec := { r.2.sec with kup := { r.2.sec.kup with fusing := none } } }

/-- The fuses of a transition and the key store at the transition (R358, R369). -/
def State.kupTransition (s : State) (target : Nat) : State :=
  let o := if target = 4 then { s.otp with fin := true } else { s.otp with t := s.otp.t + 1 }
  let k := s.isl.keys
  let keys : KeyStore := if target = 4 ∨ s.lc = 2 then {}
    else if s.lc = 1 then { k with rootT := none }
    else if s.lc = 3 then { k with rootR := none } else k
  let t := s.putKeys keys
  (if target = 4 ∨ s.lc = 2 then t.forgetHearts else t).fuse o true

/-- The hash of a SETAUTH programmed (R368). -/
def State.kupSetauth (s : State) (arg : Nat) (hash : List Byte) : State :=
  s.fuse (if 16 ≤ arg then { s.otp with ahf := SMap.put (fun _ => []) s.otp.ahf (arg - 16) hash }
    else { s.otp with ahm := SMap.put (fun _ => []) s.otp.ahm arg hash }) false

/-! ### TRNG -/

/-- ENTROPY_FAILURE (R380): the TRNG delivers nothing until 1,024 samples in a row pass. -/
def execEntropyFailure (s : State) : Out :=
  .next (s.run (fun s =>
    let t := (s.set R.RNG_STAT_OK 0).bump R.RNG_STAT_FAILS
    t.raise 0x0F02 15 2 [(0, 1, t.get R.RNG_STAT_FAILS)]))

/-- ENTROPY_RECOVERY (R380, R360): OK sets, and an identity whose generation waits is made. -/
def execEntropyRecovery (s : State) : Out :=
  .next (s.run (fun s =>
    let t := s.set R.RNG_STAT_OK 1
    if t.sec.identWait then ({ t with sec := { t.sec with identWait := false } }).makeIdentity else t))

end Sys2Proof.Machine
end

