-- ==== Sys2Proof/Machine/Storage.lean ====
section
/-!
DEFINITION. The NAND array and the flash translation (R413-R425): programs with their metadata and seals, the map and its
segments, retired blocks, garbage collection, the hold-up check.
-/
namespace Sys2Proof.Machine

/-! ### States and geometry -/

/-- The storage state code (R424): 0 OFF, 1 BUFFERED, 2 WRITE-THROUGH, 3 READ-ONLY, 4 KEYLESS, 5 FAILED. -/
def State.stor (s : State) : Nat := s.get R.FTL_STAT_STATE

/-- Whether storage writes every region (R424). -/
def State.storWrites (s : State) : Bool := decide (s.stor = 1 ∨ s.stor = 2)

/-- Whether a region is written in the present state (R424): EVENT 1, SNAP 2, STATE 3, LEDGER 4. -/
def State.regionOpen (s : State) (region : Nat) : Bool :=
  s.storWrites || (decide (s.stor = 3) && decide (region = 1)) || (decide (s.stor = 4) && decide (region ≤ 2))

/-- The region of a logical unit (R418). -/
def regionOf (lun : Nat) : Nat := if lun < 1024 then 1 else if lun < 1040 then 2 else if lun < 2576 then 3 else 4

/-- Blocks of the array. -/
def Geo.blocks (g : Geo) : Nat := g.luns * g.bpl

/-- The block of a physical unit. -/
def State.blockOf (s : State) (pun : Nat) : Nat := pun / s.nand.geo.upb

/-- A physical unit that can be programmed: on the array, never written since its block's erase, its block not retired. -/
def State.unitFree (s : State) (pun : Nat) : Bool :=
  decide (pun < s.nand.geo.blocks * s.nand.geo.upb) && (SMap.at? s.nand.units pun).isNone &&
    !(s.nand.bad.contains (s.blockOf pun)) && !(s.ftl.erasing.contains (s.blockOf pun))

/-- The pool of a block (R418, R423): 0 the system blocks, 1 the EVENT region's own blocks, 2 the main pool. -/
def State.poolOf (s : State) (b : Nat) : Nat := if s.nand.sysBl.contains b then 0 else if s.nand.evBl.contains b then 1 else 2

/-- The pool in which a region's units are programmed (R418, R425); system units have region 0. -/
def poolFor (region : Nat) : Nat := if region ≤ 1 then region else 2

/-- A physical unit that a program of a region may take. -/
def State.placeFor (s : State) (region pun : Nat) : Bool :=
  s.unitFree pun && decide (s.poolOf (s.blockOf pun) = poolFor region)

/-- A free block (R420, R421): on the array, not retired, and wholly erased. -/
def State.blockFree (s : State) (b : Nat) : Bool :=
  decide (b < s.nand.geo.blocks) && !(s.nand.bad.contains b) && !(s.ftl.erasing.contains b) &&
    s.nand.units.all (fun e => decide (s.blockOf e.1 ≠ b))

/-- Writes to the units of a pool are open in the present state (R424): system units as long as anything is written. -/
def State.poolOpen (s : State) (k : Nat) : Bool := s.regionOpen (if k = 2 then 2 else 1)

/-- The unit program time in µs (R414). -/
def Geo.tu (g : Geo) : Nat := g.tprog * 16384 / g.page

/-- The data rate in MT/s, that is in bytes per µs (R413). -/
def State.dataRate (s : State) : Nat := nth [100, 200, 266, 333, 400] (s.get R.NND_CTL_RATE) 400

/-- FTL_RATE: 240 × min(0.625 × N_LUN / t_U, 0.6 × D / 17,408) entries per second (R433). -/
def State.ledgerRate (s : State) : Nat :=
  let g := s.nand.geo
  let a := 240 * 625 * g.luns * 1000 / g.tu
  let b := 240 * 6 * s.dataRate * 1000000 / 174080
  if g.tu = 0 then 0 else min a b

/-! ### The port (R413, R415)

The manual names the commands and gives no codes: those below are ONFI's (PRESUMED, assumption 127). -/

/-- A command and what goes with it sent to the array. -/
def State.nandCmd (s : State) (op : Nat) (l : List Byte) : State := s.send .nand (BitVec.ofNat 8 op :: l)

/-- The 54 metadata bytes of a unit (R415). -/
def PUnit.metaBytes (u : PUnit) : List Byte :=
  leBytes 4 u.lun ++ leBytes 8 u.wseq ++ leBytes 8 u.ctr ++ sliceB u.tag 0 16 ++ [BitVec.ofNat 8 u.region, BitVec.ofNat 8 u.kind] ++
    leBytes 2 u.seg ++ List.replicate 14 0#8

/-- The 42 bytes of BCH parity of a codeword (R415). -/
def parityOf (c : List Byte) : List Byte := sliceB (Config.bchParity c) 0 42

/-- The `n` spare bytes of a unit (R415): the parity of its 16 codewords of data, the 17th codeword with its own, and FFh from there on. -/
def PUnit.spareBytes (u : PUnit) (n : Nat) : List Byte :=
  let b := (List.range 16).flatMap (fun k => parityOf (sliceB u.data (1024 * k) 1024)) ++ u.metaBytes ++ parityOf u.metaBytes
  b ++ List.replicate (n - b.length) 0xFF#8

/-- PAGE PROGRAM of the pages of a unit, and READ STATUS ENHANCED until its LUN is ready (R413, R415). -/
def State.sendProgram (s : State) (dst : Nat) (u : PUnit) : State :=
  (s.nandCmd 0x80 (leBytes 4 dst ++ u.data ++ u.spareBytes (s.nand.geo.spare * (16384 / max 1 s.nand.geo.page)) ++ [0x10#8])).nandCmd
    0x78 (leBytes 4 dst)

/-- BLOCK ERASE, and READ STATUS ENHANCED (R413). -/
def State.sendErase (s : State) (b : Nat) : State := (s.nandCmd 0x60 (leBytes 4 b ++ [0xD0#8])).nandCmd 0x78 (leBytes 4 b)

/-- READ of the pages of a unit (R413). -/
def State.sendRead (s : State) (pun : Nat) : State := (s.nandCmd 0x00 (leBytes 4 pun ++ [0x30#8])).nandCmd 0x78 (leBytes 4 pun)

/-- The start of the array (R413, R414), in SDR timing mode 0: RESET, READ ID and READ PARAMETER PAGE of every chip enable used, then the data
rate by SET FEATURES, read back by GET FEATURES; from there on the interface runs at that rate. -/
def State.sendStart (s : State) : State :=
  let r := s.get R.NND_CTL_RATE
  let t := ((List.range 4).filter (fun c => (s.get R.NND_CTL_CEMASK).testBit c)).foldl (fun (t : State) c =>
    let ce := [BitVec.ofNat 8 c]
    ((((t.nandCmd 0xFF ce).nandCmd 0x90 ce).nandCmd 0xEC ce).nandCmd 0xEF (ce ++ [0x01#8, BitVec.ofNat 8 r])).nandCmd 0xEE (ce ++ [0x01#8])) s
  { t with ftl := { t.ftl with array := true, rate := some r } }

/-! ### The map -/

/-- The address of the map entry of a logical unit (R419). -/
def mapAddr (lun : Nat) : Nat := 0x1400000 + 4 * lun

/-- The physical unit that the map gives, if any (R419). -/
def State.mapped (s : State) (lun : Nat) : Option Nat :=
  let v := s.mnat (mapAddr lun) 4
  if v = 0xFFFFFFFF then none else some (v % 2 ^ 19)

/-- The programmed unit that holds a logical unit. -/
def State.unitOf (s : State) (lun : Nat) : Option PUnit :=
  match s.mapped lun with
  | none => none
  | some p => (SMap.at? s.nand.units p).filter (fun u => decide (u.lun = lun))

/-- Whether a further dirty segment would be the ninth (R419). -/
def State.segFull (s : State) (lun : Nat) : Bool :=
  decide (8 ≤ s.ftl.dirty.length) && !(s.ftl.dirty.any (fun d => decide (d.1 = lun / 4096)))

/-- A map entry changed; its segment is dirty (R419). -/
def State.setMap (s : State) (lun val : Nat) : State :=
  let t := s.memWrite (mapAddr lun) (leBytes 4 val)
  let seg := lun / 4096
  if t.ftl.dirty.any (fun d => decide (d.1 = seg)) then t
  else { t with ftl := { t.ftl with dirty := t.ftl.dirty ++ [(seg, t.now, t.ftl.wseq)] } }

/-! ### Blocks -/

/-- The blocks of the main pool and those retired shown, and LOWSPARE with its event (R423, R440). -/
def State.syncSpare (s : State) : State :=
  let spare := (s.ftl.sys.map SysRec.spare).getD 0
  let t := s.setAll [(R.FTL_HLTH_SPARE, spare), (R.FTL_HLTH_RETIRED, (s.ftl.sys.map SysRec.retired).getD 0),
    (R.FTL_STAT_LOWSPARE, b2n (decide (spare ≤ 2)))]
  if spare ≤ 2 ∧ s.on R.FTL_STAT_LOWSPARE = false then t.raise 0x1002 16 1 [(0, 2, spare)] else t

/-- A block retired and replaced from the pool of its region (R420, R423): the EVENT region's blocks from its own reserve, the others, and the
system blocks, from the main pool.  Its valid units are to be moved. -/
def State.retire (s : State) (b : Nat) : State :=
  if s.nand.bad.contains b then s
  else
    let k := s.poolOf b
    let sys := s.ftl.sys.map (fun y =>
      let y := { y with retired := y.retired + 1 }
      if k = 1 then { y with evSpare := y.evSpare - 1 } else { y with spare := y.spare - 1 })
    let more := if k = 0 then ((List.range s.nand.geo.blocks).find? (fun c => s.blockFree c && decide (c ≠ b ∧ s.poolOf c = 2))).toList else []
    let t := { s with
      nand := { s.nand with bad := s.nand.bad ++ [b], sysBl := s.nand.sysBl ++ more },
      ftl := { s.ftl with sys := sys, sysDue := true, dest := s.ftl.dest.erase b } }
    ({ t with ftl := { t.ftl with victims := t.ftl.victims ++ [b] } }).syncSpare

/-- Bit-exact data bytes of a unit: 16,384 bytes. -/
def unitBytes (d : List Byte) : List Byte := sliceB d 0 16384

/-- A codeword of the unit is uncorrectable: more than 24 bit errors (R415, R417). -/
def PUnit.dead (u : PUnit) : Bool := u.errs.any (fun c => decide (24 < c))

/-- Metadata bytes 0-11 and 36-39, the additional data of a sealed unit (R416). -/
def unitAad (u : PUnit) : List Byte :=
  leBytes 4 u.lun ++ leBytes 8 u.wseq ++ [BitVec.ofNat 8 u.region, BitVec.ofNat 8 u.kind] ++ leBytes 2 u.seg

/-- The CRC-32 of a clear unit (R415). -/
def unitCrc (u : PUnit) : List Byte :=
  leBytes 4 (crc32 (u.data ++ leBytes 4 u.lun ++ leBytes 8 u.wseq ++ leBytes 8 u.ctr)) ++ List.replicate 12 0#8

/-- The page that holds the storage key: the first page owned by the NAND manager (R416, R443). -/
def State.storPage (s : State) : Option Nat := s.firstPage 8

/-- A unit's metadata and stored bytes (R415, R416): LEDGER and STATE units are sealed under the next counter of slot 0. -/
def State.sealUnit (s : State) (lun region kind seg : Nat) (data : List Byte) : Option PUnit × State :=
  let u : PUnit := { lun := lun, wseq := s.ftl.wseq, ctr := 0, tag := [], region := region, kind := kind, seg := seg,
                     data := unitBytes data }
  let t := { s with ftl := { s.ftl with wseq := s.ftl.wseq + 1 } }
  if 3 ≤ region ∧ kind = 1 then
    match t.storPage with
    | none => (none, s)
    | some p =>
      let key := (t.page p).key
      if key.isEmpty then (none, s)
      else
        let r := t.sealSlot p 0 (unitAad u) u.data
        (r.1.map (fun x => { u with ctr := x.1, data := x.2.1, tag := x.2.2 }), r.2)
  else (some { u with tag := unitCrc u }, t)

/-- The data bytes of a unit when its codewords can be corrected and its tag or CRC passes (R416, R417). -/
def State.openUnit (s : State) (u : PUnit) : Option (List Byte) :=
  if u.dead then none
  else if 3 ≤ u.region ∧ u.kind = 1 then
    match s.storPage with
    | none => none
    | some p =>
      let key := (s.page p).key
      let iv := nonceOf (s.slot 0).salt u.ctr
      if key.isEmpty = false ∧ gcmTag key iv (unitAad u) u.data = u.tag then some (gcmCrypt key iv u.data) else none
  else if unitCrc u = u.tag then some u.data else none

/-- The data bytes of a unit that a reader asks for (R416, R417): a sealed unit is opened by a job of the manager's cipher page. -/
def State.openJob (s : State) (u : PUnit) : Option (List Byte) × State :=
  if u.dead then (none, s)
  else if 3 ≤ u.region ∧ u.kind = 1 then
    match s.storPage with
    | none => (none, s)
    | some p =>
      if (s.page p).key.isEmpty then (none, s)
      else
        let key := (s.page p).key
        let iv := nonceOf (s.slot 0).salt u.ctr
        let f := s.forcedTag p
        if gcmTag key iv (unitAad u) u.data = u.tag ∧ f.1 = false then (some (gcmCrypt key iv u.data), f.2.endJob p 1)
        else (none, (f.2.bump R.CIP_CNT_AUTHFAIL).endJob p 2)
  else (if unitCrc u = u.tag then some u.data else none, s)

/-- The forced failure of PRT_NAND for a program of a class: 0 a plain one, 1 a garbage-collection destination, 2 a drydown
program (R522). -/
def State.forcedNand (s : State) (cls : Nat) : Bool × State :=
  let k := s.get R.PRT_NAND_KIND
  if s.on R.PRT_NAND_ARMED ∧ (k = 0 ∨ k = cls) then (true, s.set R.PRT_NAND_ARMED 0) else (false, s)

/-- One program of a sealed or clear unit at a place of its pool (R415, R420): on success the unit stands there and the map entry
moves; on failure the block is retired. -/
def State.programUnit (s : State) (cls lun region kind seg : Nat) (data : List Byte) (dst : Nat) (ok : Bool) :
    Bool × State :=
  if s.placeFor region dst = false ∨ (kind = 1 ∧ s.segFull lun = true) then (false, s)
  else
    let r := s.sealUnit lun region kind seg data
    match r.1 with
    | none => (false, r.2)
    | some u =>
      let f := r.2.forcedNand cls
      let f := (f.1, f.2.sendProgram dst u)
      if ok ∧ f.1 = false then
        let t := { f.2 with nand := { f.2.nand with units := SMap.ins f.2.nand.units dst u } }
        (true, if kind = 1 then t.setMap lun dst else t)
      else (false, (f.2.bump R.NND_CNT_PFAIL).retire (s.blockOf dst))

/-- The LUN of a block and of a physical unit. -/
def State.lunOfBlock (s : State) (b : Nat) : Nat := b / s.nand.geo.bpl
def State.lunOf (s : State) (pun : Nat) : Nat := s.lunOfBlock (s.blockOf pun)

/-- A place for a program again after one that failed in the LUN `f`: in a free block of another LUN where one exists (R420). -/
def State.againAt (s : State) (region : Nat) (f : Option Nat) (dst : Nat) : Bool :=
  match f with
  | none => true
  | some l => (decide (s.lunOf dst ≠ l) && s.blockFree (s.blockOf dst)) ||
      (List.range s.nand.geo.blocks).all (fun b =>
        !(s.blockFree b) || decide (s.poolOf b ≠ poolFor region) || decide (s.lunOfBlock b = l))

/-- The lowest place that a program of a region may take, after one that failed in the LUN `f`. -/
def State.freePlace (s : State) (region : Nat) (f : Option Nat) : Option Nat :=
  (List.range (s.nand.geo.blocks * s.nand.geo.upb)).find? (fun p => s.placeFor region p && s.againAt region f p)

/-- The LUN to avoid after an attempt at a place that did not succeed: that of the place when its program was begun, which retired
its block. -/
def State.avoidAfter (t : State) (s : State) (dst : Nat) (f : Option Nat) : Option Nat :=
  if t.nand.bad.contains (s.blockOf dst) then some (s.lunOf dst) else f

/-- A unit programmed with its attempts in order, each a place and what the array reports; a failed one is made again in another LUN
(R420).  Whether one succeeded, the LUN that the next is to avoid, and the state. -/
def State.programTry (s : State) (cls lun region kind seg : Nat) (data : List Byte) (f : Option Nat) :
    List (Nat × Bool) → Bool × Option Nat × State
  | [] => (false, f, s)
  | a :: l =>
    if s.againAt region f a.1 = false then s.programTry cls lun region kind seg data f l
    else
      let r := s.programUnit cls lun region kind seg data a.1 a.2
      if r.1 then (true, none, r.2) else r.2.programTry cls lun region kind seg data (r.2.avoidAfter s a.1 f) l

/-- Buffers outside the ledger's eight (R427): at most 24 hold programs of other units. -/
def State.bufferFree (s : State) : Bool :=
  decide ((s.ftl.progs.filter (fun p => match p.what with
    | .ledger _ => false
    | _ => true)).length < 24)

/-! ### System units -/

/-- The data bytes of the system record (R416, R419, R440); the layout is the model's own. -/
def sysBytes (y : SysRec) : List Byte :=
  [y.gen, y.units, y.spare, y.evSpare, y.retired, b2n y.ro].flatMap (leBytes 4) ++ ((List.range 16).map (fun k => nth y.hist k 0)).flatMap (leBytes 4)

/-- The system record of a unit's data bytes. -/
def sysParse (d : List Byte) : SysRec :=
  ⟨leAt d 0 4, leAt d 4 4, leAt d 8 4, leAt d 12 4, leAt d 16 4, (List.range 16).map (fun k => leAt d (24 + 4 * k) 4), decide (leAt d 20 4 ≠ 0)⟩

/-- The newest system record on the array whose unit reads and passes its CRC (R416, R419). -/
def State.newestSys (s : State) : Option (Nat × PUnit) :=
  s.nand.units.foldl (fun (m : Option (Nat × PUnit)) e =>
    if e.2.kind = 3 ∧ e.2.dead = false ∧ unitCrc e.2 = e.2.tag then
      match m with
      | none => some e
      | some u => if u.2.wseq < e.2.wseq then some e else some u
    else m) none

/-- The system record written in clear to a unit of a system block (R416), again in another LUN when the program fails (R420). -/
def State.writeSys (s : State) : State :=
  let one := fun (s : State) (f : Option Nat) => match s.ftl.sys, s.freePlace 0 f with
    | some y, some p => s.programTry 0 0xFFFFFFFF 0 3 0 (sysBytes y) f [(p, true)]
    | _, _ => (false, f, s)
  let r := one s none
  let r := if r.1 then r else one r.2.2 r.2.1
  { r.2.2 with ftl := { r.2.2.ftl with sysDue := !r.1 } }

/-- A system record that has changed is written in the commit phase. -/
def State.settleSys (s : State) : State := if s.ftl.sysDue = true ∧ s.ftl.mounted = true ∧ s.regionOpen 1 = true then s.writeSys else s

/-! ### Reading units -/

/-- A lost unit (R417). -/
def State.unitLost (s : State) (u : PUnit) : State :=
  (s.bump R.FTL_ECC_UNCORR).raise 0x1001 16 1 [(0, 4, u.lun), (4, 1, u.region)]

/-- The corrected codewords of a unit counted; with REFRESH or more bits in one of them its block is queued for relocation (R417). -/
def State.unitCorr (s : State) (pun : Nat) (errs : List Nat) : State :=
  let n := (errs.filter (fun c => decide (0 < c ∧ c ≤ 24))).length
  let t := s.set R.FTL_ECC_CORR (satAdd 24 (s.get R.FTL_ECC_CORR) n)
  let b := s.blockOf pun
  if errs.any (fun c => decide (s.get R.FTL_CFG_REFRESH ≤ c)) ∧ t.ftl.victims.contains b = false then
    { t with ftl := { t.ftl with victims := t.ftl.victims ++ [b] } } else t

/-- A programmed unit read (R417): its data bytes, or none when it is lost. -/
def State.readPun (s : State) (pun : Nat) (u : PUnit) : Option (List Byte) × State :=
  let r := ((s.sendRead pun).unitCorr pun u.errs).openJob u
  match r.1 with
  | some d => (some d, r.2)
  | none => (none, r.2.unitLost u)

/-- A unit read by its map entry (R417). -/
def State.readLun (s : State) (lun : Nat) : Option (List Byte) × State :=
  let t := s.touch (mapAddr lun) 4
  match t.unitOf lun, t.mapped lun with
  | some u, some pun => t.readPun pun u
  | _, _ => (none, t)

/-- What reading several logical units counts and reports (R417). -/
def State.readLuns (s : State) (l : List Nat) : State := l.foldl (fun (t : State) n => (t.readLun n).2) s

/-- The bit errors that a read or a read-back finds in the codewords: the corrected ones, and more than 24 in the first when some codeword is
uncorrectable. -/
def errsOf (corr : List Nat) (bad : Bool) : List Nat := if bad then 25 :: (corr.take 17).drop 1 else corr.take 17

/-- The bit errors of the unit at a place as a read finds them. -/
def State.putErrs (s : State) (pun : Nat) (errs : List Nat) : State :=
  { s with nand := { s.nand with units := s.nand.units.map (fun e => if e.1 = pun then (e.1, { e.2 with errs := errs }) else e) } }

/-- A unit read by its map entry (R417): `corr` corrected bits by codeword, `bad` some codeword uncorrectable. -/
def State.readUnit (s : State) (lun : Nat) (corr : List Nat) (bad : Bool) : Option (List Byte) × State :=
  match s.mapped lun with
  | some pun => (s.putErrs pun (errsOf corr bad)).readLun lun
  | none => s.readLun lun

/-- UNIT_READ (R417): the reader receives the data, or zeros with a LOST status. -/
def execUnitRead (lun : Nat) (corr : List Nat) (bad : Bool) (s : State) : Out :=
  .next (s.sense (.unitRead lun corr bad) (fun s =>
    if s.ftl.mounted = true ∧ (s.mapped lun).isSome then
      let r := s.readUnit lun corr bad
      { r.2 with ftl := { r.2.ftl with rdLost := r.1.isNone, rdData := unitBytes (r.1.getD []) } }
    else s))

/-! ### Map segments -/

/-- The bytes of a map segment as the map banks hold it (R419). -/
def State.segBytes (s : State) (seg : Nat) : List Byte := s.mrd (mapAddr (4096 * seg)) 16384

/-- The oldest dirty segment written to a system unit (R419); one that failed is written again in another LUN (R420). -/
def State.writeSegment (s : State) (cls dst : Nat) (ok : Bool) : State :=
  match s.ftl.dirty with
  | [] => s
  | d :: rest =>
    if s.againAt 0 s.ftl.segFail dst = false then s
    else
      let s := s.touch (mapAddr (4096 * d.1)) 16384
      let r := s.programUnit cls 0xFFFFFFFF 0 2 d.1 (s.segBytes d.1) dst ok
      if r.1 then { r.2 with ftl := { r.2.ftl with dirty := rest, segFail := none } }
      else { r.2 with ftl := { r.2.ftl with segFail := r.2.avoidAfter s dst s.ftl.segFail } }

/-- The oldest dirty segment written at the lowest place, again when that program fails (R419, R420). -/
def State.writeOldest (s : State) : State :=
  let one := fun (s : State) => match s.freePlace 0 s.ftl.segFail with
    | some p => s.writeSegment 0 p true
    | none => s
  let t := one s
  if t.ftl.dirty.length < s.ftl.dirty.length then t else one t

/-- The oldest dirty segment written at once, where a ninth would become dirty (R419). -/
def State.makeRoom (s : State) (lun : Nat) : State := if s.segFull lun then s.writeOldest else s

/-- A map entry changed, with room made for its segment (R419). -/
def State.moveMap (s : State) (lun val : Nat) : State := (s.makeRoom lun).setMap lun val

/-- MAP_SEGMENT_WRITE (R419, R435): the oldest dirty segment is written when a ninth would become dirty, after 1,024 unit
programs, and in WRITE-THROUGH within 64 ticks. -/
def execMapSegmentWrite (dst : Nat) (ok : Bool) (s : State) : Out :=
  .next (s.run (fun s =>
    match s.ftl.dirty with
    | [] => s
    | d :: _ =>
      if (decide (8 ≤ s.ftl.dirty.length ∨ d.2.2 + 1024 ≤ s.ftl.wseq ∨ s.stor = 2) || s.ftl.drain) && s.ftl.mounted
      then s.writeSegment 0 dst ok else s))

/-! ### Garbage collection -/

/-- Whether a physical unit is valid: the map points at it, or it is the newest copy of its map segment or of the system record. -/
def State.unitValid (s : State) (e : Nat × PUnit) : Bool :=
  if e.2.kind = 1 then decide (s.mapped e.2.lun = some e.1)
  else s.nand.units.all (fun o => decide (o.2.kind ≠ e.2.kind ∨ o.2.seg ≠ e.2.seg ∨ o.2.wseq ≤ e.2.wseq))

/-- The map entries of every unit on the array read, as the choice of a victim needs them (R27, R31, R421). -/
def State.readMap (s : State) : State :=
  (((s.nand.units.filter (fun e => decide (e.2.kind = 1))).map (fun e => mapAddr e.2.lun / 32)).eraseDups).foldl State.touchLine s

/-- The valid units of a block. -/
def State.validIn (s : State) (b : Nat) : List (Nat × PUnit) :=
  s.nand.units.filter (fun e => decide (s.blockOf e.1 = b) && s.unitValid e)

/-- The manager can read and write sealed units: its page holds the storage key (R416). -/
def State.storKeyed (s : State) : Bool :=
  match s.storPage with
  | some p => !(s.page p).key.isEmpty
  | none => false

/-- The valid units of a block can be moved: without the storage key only clear ones (R416, R438). -/
def State.movable (s : State) (b : Nat) : Bool :=
  s.storKeyed || (s.validIn b).all (fun e => decide (e.2.region < 3 ∨ e.2.kind ≠ 1))

/-- A place for a copy (R421): in a free block, or in one that collections have begun to fill, never in the victim. -/
def State.copyPlace (s : State) (victim region dst : Nat) : Bool :=
  s.placeFor region dst && decide (s.blockOf dst ≠ victim) && (s.blockFree (s.blockOf dst) || s.ftl.dest.contains (s.blockOf dst))

/-- A block that copies fill. -/
def State.openDest (s : State) (b : Nat) : State :=
  if s.ftl.dest.contains b then s else { s with ftl := { s.ftl with dest := s.ftl.dest ++ [b] } }

/-- A copy read back is verified: no codeword uncorrectable, none with more than 8 corrected bits, and the tag or CRC passes (R421). -/
def State.copyGood (s : State) (u : PUnit) : Bool := u.errs.all (fun c => decide (c ≤ 8)) && (s.openUnit u).isSome

/-- The data bytes that a copy carries: those read, and for a map segment what the map now holds, since a copy takes a new WSEQ. -/
def State.copyData (s : State) (u : PUnit) (d : List Byte) : List Byte := if u.kind = 2 then s.segBytes u.seg else d

/-- One copy of a unit with its data bytes (R421): programmed under the next WSEQ, read back, and mapped only when the copy verifies; a copy
that does not verify is not kept, and the next goes to another free block. -/
def State.copyUnit (s : State) (victim : Nat) (u : PUnit) (d : List Byte) : List CopyTry → Bool × State
  | [] => (false, s)
  | a :: l =>
    if s.copyPlace victim u.region a.dst = false ∨ (u.kind = 1 ∧ s.segFull u.lun = true) then s.copyUnit victim u d l
    else
      let r := s.sealUnit u.lun u.region u.kind u.seg d
      match r.1 with
      | none => (false, r.2)
      | some v =>
        let f := r.2.forcedNand 1
        let t := (f.2.openDest (s.blockOf a.dst)).sendProgram a.dst v
        if a.ok ∧ f.1 = false then
          let c := { v with errs := errsOf a.corr a.bad }
          let t := (t.sendRead a.dst).unitCorr a.dst c.errs
          if t.copyGood c then
            let t := { t with nand := { t.nand with units := SMap.ins t.nand.units a.dst c } }
            (true, if u.kind = 1 then t.setMap u.lun a.dst
              else if u.kind = 2 then { t with ftl := { t.ftl with dirty := t.ftl.dirty.filter (fun x => decide (x.1 ≠ u.seg)) } } else t)
          else (t.retire (s.blockOf a.dst)).copyUnit victim u d l
        else ((t.bump R.NND_CNT_PFAIL).retire (s.blockOf a.dst)).copyUnit victim u d l

/-- A valid unit of a victim read and copied (R421); one that is lost stays where it is (R417). -/
def State.moveUnit (s : State) (victim : Nat) (e : Nat × PUnit) (x : UnitMove) : Bool × State :=
  let t := s.putErrs e.1 (errsOf x.corr x.bad)
  let r := t.readPun e.1 { e.2 with errs := errsOf x.corr x.bad }
  match r.1 with
  | none => (false, r.2)
  | some d => r.2.copyUnit victim e.2 (r.2.copyData e.2 d) x.tries

/-- The valid units of a victim moved one after another (R421). -/
def State.moveUnits (s : State) (victim : Nat) : List (Nat × PUnit) → List UnitMove → Bool × State
  | [], _ => (true, s)
  | _ :: _, [] => (false, s)
  | e :: es, x :: xs =>
    let r := s.moveUnit victim e x
    if r.1 then r.2.moveUnits victim es xs else r

/-- Whether some block of the main pool can still be freed: an erased good block, or a good block with a programmed unit that is not valid. -/
def State.canFree (s : State) : Bool :=
  (List.range s.nand.geo.blocks).any (fun b =>
    !(s.nand.bad.contains b) && decide (s.poolOf b = 2) &&
      (let us := s.nand.units.filter (fun e => decide (s.blockOf e.1 = b))
       us.isEmpty || us.any (fun e => !(s.unitValid e)) || decide (us.length < s.nand.geo.upb)))

/-- The lanes, as LANEEN bits, that serve a queue of disposition LEDGER or BOTH. -/
def State.ledgerLanes (s : State) : Nat :=
  (List.range 4).foldl (fun m l =>
    if (List.range 32).any (fun q => decide (s.qLane q = l) && decide (s.qDisp q ≠ 1)) then m + 2 ^ l else m) 0

/-- LANEEN bits written by task 06h (R443). -/
def State.writeLanes (s : State) (bits : Nat) (v : Bool) : State :=
  let m := BitVec.ofNat 32 (bits * 2 ^ R.VAL_CTL_LANEEN.lo)
  s.taskWrite R.VAL_CTL m (if v then m else 0)

/-- Task 06h clears the LANEEN bits of the lanes that serve a queue of disposition LEDGER or BOTH, and keeps which were set (R425, R428,
R438). -/
def State.clearLedgerLanes (s : State) : State :=
  let off := s.get R.VAL_CTL_LANEEN &&& s.ledgerLanes
  let t := s.writeLanes off false
  { t with ftl := { t.ftl with lanes := t.ftl.lanes ||| off } }

/-- The cleared LANEEN bits restored (R428). -/
def State.restoreLanes (s : State) : State :=
  let t := s.writeLanes s.ftl.lanes true
  { t with ftl := { t.ftl with lanes := 0 } }

/-- The fences that are pending end FAILED (R429). -/
def State.failFences (s : State) : State :=
  s.ftl.fences.foldl (fun t f =>
    { (t.set R.FTL_FDONE_NUM f.1).bump R.FTL_CNT_FFAIL with
      ftl := { t.ftl with fences := t.ftl.fences.drop 1, failed := t.ftl.failed ++ [f.1] } }) s

/-- WRITE_REFUSED (R425); a checkpoint under way ends incomplete (R437).  The system record keeps that storage is READ-ONLY, which only FORMAT
ends (R424). -/
def State.writeRefused (s : State) : State :=
  let t := (s.bump R.FTL_CNT_REFUSED).set R.FTL_STAT_STATE 3
  let t := { t with ftl := { t.ftl with copy := none, sys := t.ftl.sys.map (fun (y : SysRec) => { y with ro := true }), sysDue := true } }
  (t.failFences.clearLedgerLanes).raise 0x1003 16 2 [(0, 2, t.get R.FTL_CNT_REFUSED)]

/-- Programmed units lie in a block. -/
def State.blockUsed (s : State) (b : Nat) : Bool := s.nand.units.any (fun e => decide (s.blockOf e.1 = b))

/-- A block that may be collected (R421, R424): of a pool that is written in the present state, used, not being erased, its valid units movable;
queued, or with the fewest valid units of its pool. -/
def State.mayCollect (s : State) (b : Nat) : Bool :=
  s.poolOpen (s.poolOf b) && s.blockUsed b && !(s.ftl.erasing.contains b) && s.movable b && (s.ftl.victims.contains b ||
    (List.range s.nand.geo.blocks).all (fun c => decide (s.poolOf c ≠ s.poolOf b) || !(s.blockUsed c) || s.nand.bad.contains c ||
      !(s.movable c) || decide ((s.validIn b).length ≤ (s.validIn c).length)))

/-- A victim whose units have all been moved: its erase begins; a retired block is not used again (R420, R421). -/
def State.endCollect (s : State) (b : Nat) : State :=
  let t := { s with ftl := { s.ftl with victims := s.ftl.victims.erase b } }
  if s.nand.bad.contains b then t else ({ t with ftl := { t.ftl with erasing := t.ftl.erasing ++ [b] } }).sendErase b

/-- The valid units of a block moved, and its erase begun (R421). -/
def State.collect (s : State) (b : Nat) (moves : List UnitMove) : State :=
  let r := s.moveUnits b (s.validIn b) moves
  if r.1 then r.2.endCollect b else r.2

/-- GARBAGE_COLLECTION (R421, R422, R425): the valid units of a victim block are copied, and its erase begins; with no block
that can be freed and no spare, a write that waits is refused. -/
def execGarbageCollection (victim : Option Nat) (moves : List UnitMove) (s : State) : Out :=
  .next (s.run (fun s =>
    if s.ftl.mounted = false ∨ s.isl.warned = true then s
    else match victim with
    | none =>
      if s.storWrites = true ∧ s.canFree = false ∧ (s.ftl.sys.map SysRec.spare).getD 0 = 0 ∧
          (s.ftl.progs.any (fun p => decide (p.region ≠ 1)) ∨ s.ftl.bufs ≠ []) then s.writeRefused else s
    | some b =>
      let t := s.readMap
      if t.mayCollect b then t.collect b moves else t))

/-- The erase count of a block. -/
def State.eraseCount (s : State) (b : Nat) : Nat := SMap.get zN s.nand.erases b

/-- The highest erase count and the mean wear shown (R440). -/
def State.syncWear (s : State) : State :=
  let bl := List.range s.nand.geo.blocks
  let hi := bl.foldl (fun m b => max m (s.eraseCount b)) 0
  let sum := bl.foldl (fun m b => m + s.eraseCount b) 0
  (s.set R.FTL_WEAR_MAXERASE (min hi 0xFFFF)).set R.FTL_WEAR_USED (min 0xFFFF (sum * 1000 / (max 1 bl.length * max 1 s.nand.geo.rated)))

/-- The block with the lowest erase count of those that hold valid data. -/
def State.leastWorn (s : State) : Option Nat :=
  ((List.range s.nand.geo.blocks).filter (fun b => !(s.validIn b).isEmpty)).foldl (fun (m : Option Nat) b => match m with
    | none => some b
    | some c => if s.eraseCount b < s.eraseCount c then some b else some c) none

/-- WEAR_LEVEL and the wear figures (R422, R440). -/
def State.wearLevel (s : State) : State :=
  let t := s.readMap.syncWear
  let hi := (List.range t.nand.geo.blocks).foldl (fun m b => max m (t.eraseCount b)) 0
  let n := t.ftl.wear + 1
  match t.leastWorn with
  | some b =>
    if t.eraseCount b + t.get R.FTL_CFG_SPREAD < hi ∧ 64 ≤ n ∧ t.ftl.victims.contains b = false then
      { t with ftl := { t.ftl with wear := 0, victims := t.ftl.victims ++ [b] } }
    else { t with ftl := { t.ftl with wear := n } }
  | none => { t with ftl := { t.ftl with wear := n } }

/-- A block erased: its units are gone, its erase count rises, and it is free again (R421). -/
def State.blockErased (s : State) (b : Nat) : State :=
  { s with
    ftl := { s.ftl with erasing := s.ftl.erasing.erase b, dest := s.ftl.dest.erase b }
    nand := { s.nand with
      units := s.nand.units.filter (fun e => decide (s.blockOf e.1 ≠ b))
      erases := SMap.put zN s.nand.erases b (s.eraseCount b + 1) } }

/-- A failed erase retires the block (R420). -/
def State.eraseFailed (s : State) (b : Nat) : State :=
  (({ s with ftl := { s.ftl with erasing := s.ftl.erasing.erase b } }).bump R.NND_CNT_EFAIL).retire b

/-- The map segments that moved out of a block are not all written: its erase has still to wait (R421). -/
def State.eraseWaits (s : State) (b : Nat) : Bool :=
  let moved := (s.nand.units.filter (fun e => decide (s.blockOf e.1 = b) && decide (e.2.kind = 1))).map (fun e => e.2.lun / 4096)
  s.ftl.dirty.any (fun d => moved.contains d.1)

/-! ### Hold-up check -/

/-- The steps 2 and 3 of the hold-up check (R434). -/
def State.holdMeasure (s : State) (fall time : Nat) : State :=
  let t := ((s.send (.pin "VHOLD_SINKEN") [1#8]).send (.pin "VHOLD_CHGEN") [0#8])
  let t := ((t.send (.pin "VHOLD_SINKEN") [0#8]).send (.pin "VHOLD_CHGEN") [1#8])
  let ich := nth [20, 50, 100, 100] (s.get R.DRY_CFG_ICH) 50
  let t := t.set R.DRY_CAP_C (min 0xFFFF (divOpen (ich * time : Nat) 3000).toNat)
  let t := t.set R.DRY_CAP_ESR (min 0xFFFF (divOpen (fall * 1000 : Nat) ich).toNat)
  { t with ftl := { t.ftl with hold := { t.ftl.hold with meas := some (time, fall) } } }

/-- HOLDUP_CHECK (R434 steps 1 to 3): VHOLD_SNS reached 4.95 V `reached` ticks after charging began, in time; 80 ticks later the sink gave
the fall of VHOLD_SNS at its enable in mV, and in `time` µs it fell from 4.90 V to 4.60 V. -/
def execHoldupCheck (reached fall time : Nat) (s : State) : Out :=
  .next (s.run (fun s =>
    match s.ftl.hold.start with
    | none => s
    | some a =>
      if s.isl.warned = false ∧ s.ftl.hold.meas = none ∧ reached ≤ s.get R.DRY_CFG_CHGTO * ticksPerSec ∧
          a + reached + 80 + time / 125 ≤ s.now then s.holdMeasure fall time
      else s))

/-- E_U in 0.1 mJ as numerator and denominator (R434 step 4): C = ICH × t / 0.30 V, V_m = 2.8 V + ESR × 0.4 A with ESR the
fall over ICH; `vm` is ICH × V_m. -/
def State.holdEnergy (s : State) (time fall : Nat) : Nat × Nat :=
  let ich := nth [20, 50, 100, 100] (s.get R.DRY_CFG_ICH) 50
  let vm := 2800000 * ich + fall * 400000
  (if vm < 5000000 * ich then ich * time * (25000000000000 * ich * ich - vm * vm) else 0, 600 * 10 ^ 14 * ich * ich)

/-- E_REQ in 0.1 mJ (R434 steps 5 and 6). -/
def State.holdRequired (s : State) : Nat :=
  let g := s.nand.geo
  let d := s.dataRate
  let t := (1000000 + ceilDiv 19 (max 1 g.luns) * g.tu * 1000) * d + 19 * 17408 * 1000
  4 * ceilDiv (s.get R.DRY_CFG_PDD * t) (10000000 * d)

/-- A decision of the hold-up check (R434): pass gives BUFFERED, fail WRITE-THROUGH. -/
def State.holdDecide (s : State) (pass : Bool) : State :=
  let t := s.set R.DRY_STAT_PASS (b2n pass)
  let t := if t.storWrites then t.set R.FTL_STAT_STATE (if pass then 1 else 2) else t
  { t with ftl := { t.ftl with hold := { start := none, meas := none, decided := some t.now } } }

/-- HOLDUP_CHARGE_TIMEOUT (R434 step 1): VHOLD_SNS has not reached 4.95 V in CHGTO seconds. -/
def execHoldupChargeTimeout (s : State) : Out :=
  .next (s.run (fun s => s.inCommit (fun s =>
    match s.ftl.hold.start with
    | none => s
    | some a =>
      if s.ftl.hold.meas = none ∧ a + s.get R.DRY_CFG_CHGTO * ticksPerSec ≤ s.now then s.holdDecide false else s)))

/-- HOLDUP_DECISION (R434): E_U is compared with E_REQ, once the parameter pages of the array have been read (R414). -/
def execHoldupDecision (s : State) : Out :=
  .next (s.run (fun s =>
    match (if s.ftl.array || !(s.on R.FTL_CTL_EN) then s.ftl.hold.meas else none) with
    | none => s
    | some m =>
      let e := s.holdEnergy m.1 m.2
      let r := s.holdRequired
      let t := (s.set R.DRY_ENERGY_EU (min 0xFFFF (divOpen e.1 e.2).toNat)).set R.DRY_ENERGY_EREQ (min 0xFFFF r)
      t.holdDecide (decide (r * e.2 ≤ e.1))))

/-- The hold-up check starts: charging is enabled (R434 step 1). -/
def State.holdStart (s : State) : State :=
  { s.send (.pin "VHOLD_CHGEN") [1#8] with ftl := { s.ftl with hold := { s.ftl.hold with start := some s.now, meas := none } } }

/-- The repeat of the check 691,200,000 ticks after a decision (R434). -/
def State.holdRepeat (s : State) : State :=
  match s.ftl.hold.decided with
  | some a => if a + 691200000 ≤ s.now ∧ s.ftl.hold.start = none ∧ s.isl.warned = false then s.holdStart else s
  | none => s

end Sys2Proof.Machine
end

