-- ==== Sys2Proof/Machine/Recorder.lean ====
section
/-!
DEFINITION. The event recorder (R444-R462): records and their bytes, merges, the full log, reading, clearing, and the programs
of event units.
-/
namespace Sys2Proof.Machine

/-- The mode in effect (R453): 0 HOLD, 1 BUFFERED, 2 IMMEDIATE. -/
def State.evMode (s : State) : Nat :=
  let byCtl := if s.on R.EVR_CTL_MODE then 2 else 1
  if s.stor = 1 then byCtl
  else if s.stor = 2 then 2
  else if s.stor = 3 ∨ s.stor = 4 then
    if s.ftl.hold.decided = none then 0 else if s.on R.DRY_STAT_PASS then byCtl else 2
  else 0

/-- Record places of the EVENT region (R448, R457). -/
def evPlaces : Nat := 524288

/-- The unit in which the next place lies, when records already stand in it: the open unit (R454, R459). -/
def State.evOpenUnit (s : State) : Option Nat := if s.evr.place % 512 = 0 then none else some (s.evr.place / 512)

/-- The record places left in a log, from the next place round to the oldest unit (R457). -/
def evLeftIn (log : List EvRec) (place : Nat) : Nat :=
  match log with
  | [] => evPlaces
  | r :: _ => (512 * (r.place / 512) + evPlaces - place) % evPlaces

/-- The record places left (R457); none are while recording has stopped. -/
def State.evLeft (s : State) : Nat := evLeftIn s.evr.log s.evr.place

/-- Bytes 0-27 of a record (R444), with the CRC flag as given. -/
def evHead (r : EvRec) (crc : Bool) : List Byte :=
  leBytes 2 r.ev.code ++ [BitVec.ofNat 8 r.ev.src, BitVec.ofNat 8 (r.ev.sev + (if crc then 4 else 0))] ++
    leBytes 4 r.ev.opsec ++ leBytes 2 r.ev.pcyc ++ leBytes 2 r.rep ++ leBytes 4 r.seq ++ leBytes 12 r.ev.data

/-- The 32 bytes of a record (R444, R446). -/
def evImage (r : EvRec) : List Byte := evHead r r.crc.isSome ++ leBytes 4 (r.crc.getD 0)

/-- A record read from its 32 bytes. -/
def evParse (place : Nat) (b : List Byte) : EvRec :=
  { ev := ⟨leAt b 0 2, leAt b 2 1, leAt b 3 1 % 4, leAt b 16 12, leAt b 4 4, leAt b 8 2, 0⟩
    seq := leAt b 12 4, rep := leAt b 10 2
    crc := if (leAt b 3 1).testBit 2 then some (leAt b 28 4) else none
    place := place, stored := true }

/-- A record with its CRC as R446 asks. -/
def State.evCrc (s : State) (r : EvRec) : EvRec :=
  if s.on R.EVR_CTL_CRC ∨ s.evMode = 2 then { r with crc := some (crc32 (evHead r true)) } else { r with crc := none }

/-- The line of BANK44 in which a record stands until it is programmed (R24). -/
def evAddr (place : Nat) : Nat := 0x1600000 + 32 * (place % 16384)

/-- A record written to the event buffer (R24). -/
def State.evBuffer (s : State) (r : EvRec) : State := s.memWrite (evAddr r.place) (evImage r)

/-- The bytes of a record as the recorder reads them: from the event buffer until the array holds them as they stand, then from its unit, zeros
when that is lost (R417). -/
def State.evBytes (s : State) (r : EvRec) : List Byte :=
  if r.stored && !r.stale then
    match s.unitOf (r.place / 512) with
    | some u => if u.dead then List.replicate 32 0#8 else evImage r
    | none => evImage r
  else s.mrd (evAddr r.place) 32

/-- What reading records counts and reports: their lines of the event buffer, and the units that hold them (R31, R417). -/
def State.evSeen (s : State) (rs : List EvRec) : State :=
  let t := (rs.filter (fun (r : EvRec) => !(r.stored && !r.stale))).foldl (fun (t : State) r => t.touch (evAddr r.place) 32) s
  t.readLuns ((rs.filter (fun (r : EvRec) => r.stored && !r.stale)).map (fun (r : EvRec) => r.place / 512)).eraseDups

/-- Records kept and not yet programmed (EVR_STAT.PEND). -/
def State.evPend (s : State) : Nat := (s.evr.log.filter (fun (r : EvRec) => !r.stored)).length

/-- The recorder's registers brought up to it (R453, R462). -/
def State.syncEvr (s : State) : State :=
  s.setAll [(R.EVR_STAT_EFF, s.evMode), (R.EVR_STAT_PEND, s.evPend), (R.EVR_USED_COUNT, s.evr.log.length),
    (R.EVR_OLDEST_SEQ, (s.evr.log.head?.map EvRec.seq).getD 0)]

/-- The SEQ after the last one issued (R449). -/
def State.nextSeq (s : State) : Nat := if s.get R.EVR_SEQ_SEQ = 0xFFFFFFFF then 1 else s.get R.EVR_SEQ_SEQ + 1

/-- The units of records that satisfy `p`, oldest first. -/
def State.evUnits (s : State) (p : EvRec → Bool) : List Nat := ((s.evr.log.filter p).map (fun (r : EvRec) => r.place / 512)).eraseDups

/-- The units that hold records awaiting a program. -/
def State.evWaiting (s : State) : List Nat := s.evUnits (fun (r : EvRec) => !r.stored)

/-- The units that drydown and a restart program: records that await a program, and merges that no program has carried (R436, R455). -/
def State.evOpen (s : State) : List Nat := (s.evUnits (fun (r : EvRec) => !r.stored || r.stale)).take 2

/-- A record entered at the next place with the next SEQ (R449); a FLUSH of the unit that it fills has nothing left to do, since a full unit
is programmed (R454). -/
def State.evEnter (s : State) (e : Ev) (rep : Nat := 0) : State :=
  let r := s.evCrc { ev := e, seq := s.nextSeq, place := s.evr.place, rep := rep }
  let next := (s.evr.place + 1) % evPlaces
  ((({ s with evr := { s.evr with log := s.evr.log ++ [r], place := next, flush := s.evr.flush && decide (next % 512 ≠ 0) } }).evBuffer r).set
    R.EVR_SEQ_SEQ r.seq).syncEvr

/-- An event discarded (R454, R457). -/
def State.evDiscard (s : State) : State := s.bump R.EVR_DISCARD_COUNT

/-- Whether a further record finds room in the buffer (R453, R454). -/
def State.evRoom (s : State) : Bool :=
  if s.evMode = 0 then decide (s.evPend < 16384)
  else
    let w := s.evWaiting
    decide (w.length < 2) || w.contains (s.evr.place / 512)

/-- LOG_FULL (R457): with one place left it takes that place and recording stops. -/
def State.evFull (s : State) (e : Ev) : State :=
  (((s.evDiscard.evEnter { e with code := 0x1104, src := 17, sev := 2, data := 0 })).set R.EVR_STAT_FULL 1)

/-- An event kept, or discarded for want of room (R449, R454, R457). -/
def State.evKeep (s : State) (e : Ev) : State :=
  if s.on R.EVR_STAT_FULL then s.evDiscard
  else if s.evRoom = false then s.evDiscard
  else if s.evLeft = 1 then s.evFull e
  else s.evEnter e

/-- Whether an event merges into the newest record (R450). -/
def State.evMerges (s : State) (e : Ev) : Bool :=
  match s.evr.log.getLast? with
  | none => false
  | some r => decide (r.ev.code = e.code ∧ r.ev.src = e.src ∧ r.ev.sev = e.sev ∧ r.ev.data = e.data ∧
      e.opsec ≤ r.ev.opsec + s.get R.EVR_CTL_MERGEWIN ∧ r.rep < 0xFFFF ∧ e.code ≠ 0x1103)

/-- EVENT_MERGE (R450): REPEAT of the newest record increments and its CRC is computed again. -/
def State.evMerge (s : State) : State :=
  match s.evr.log.getLast? with
  | none => s
  | some r =>
    let r' := s.evCrc { r with rep := r.rep + 1, stale := true, sent := false }
    ({ s with evr := { s.evr with log := s.evr.log.dropLast ++ [r'] } }).evBuffer r'

/-- An event that reaches the recorder (R449, R450, R456). -/
def State.evTake (s : State) (e : Ev) : State :=
  if s.isl.warned then s.set R.ISL_EVLOST_COUNT (satAdd 32 (s.get R.ISL_EVLOST_COUNT) 1)
  else if s.on R.EVR_STAT_FULL then s.evDiscard
  else if s.evMerges e then s.evMerge
  else s.evKeep e

/-- Raised events in the order in which the recorder takes them: by tick, the BARRIERs of a tick after its other events (R59, R449). -/
def evKey (e : Ev) : Nat := 2 * e.tick + (if e.code = 0x1103 then 1 else 0)
def evInsert (e : Ev) : List Ev → List Ev
  | [] => [e]
  | x :: l => if evKey e < evKey x then e :: x :: l else x :: evInsert e l
def evOrder (l : List Ev) : List Ev := l.foldl (fun m e => evInsert e m) []

/-- The events of earlier ticks reach the recorder before a record of this one (R59). -/
def State.evSettle (s : State) : State :=
  (evOrder (s.raised.filter (fun e => decide (e.tick < s.now)))).foldl State.evTake
    { s with raised := s.raised.filter (fun e => decide (s.now ≤ e.tick)) }

/-- A record that the recorder or start-up itself makes, in the tick in which it is made (R451, R458, R459). -/
def State.evMake (s : State) (code sev : Nat) (data : List (Nat × Nat × Nat)) : State :=
  s.evSettle.evTake ⟨code, 17, sev, evData data, s.get R.ISL_OPSEC_SEC, s.get R.ISL_PCYC_PCYC, s.now⟩

/-- Entry `k` of the raised events, when it may be the next: its tick has come, no earlier one of the same source waits,
and no BARRIER of an earlier tick (R38, R59, R449). -/
def State.nextRaised (s : State) (k : Nat) (barrier : Bool) : Option Ev :=
  match s.raised[k]? with
  | none => none
  | some e =>
    if e.tick ≤ s.now ∧ decide (e.code = 0x1103) = barrier ∧ (s.raised.take k).all (fun x => decide (x.src ≠ e.src ∨ x.code = 0x1103)) ∧
        s.raised.all (fun x => decide (x.code ≠ 0x1103 ∨ e.tick ≤ x.tick)) then some e
    else none

/-- The raised events without entry `k`. -/
def State.dropRaised (s : State) (k : Nat) : State := { s with raised := s.raised.eraseIdx k }

/-- EVENT_RECORD (R449, R450, R456, R457): an event reaches the recorder and is merged or kept. -/
def execEventRecord (k : Nat) (s : State) : Out :=
  .next (s.run (fun s =>
    match s.nextRaised k false with
    | none => s
    | some e => (s.dropRaised k).evTake e))

/-- BARRIER (R59, R448, R449): a source raises one; or entry `k` of the raised events, a BARRIER, receives its SEQ in the commit phase of its
tick, after every other event of the tick; what is raised from then on counts to the next tick. -/
def execBarrier (src : Option (Fin 22)) (k : Nat) (s : State) : Out :=
  .next (s.run (fun s =>
    match src with
    | some n => if n.val = 0 then s else s.barrier n
    | none =>
    match s.nextRaised k true with
    | none => s
    | some e =>
      if s.phase = .commit ∧ s.raised.all (fun x => decide (x.code = 0x1103 ∨ e.tick < x.tick)) then
        (s.dropRaised k).evTake e
      else s))

/-! ### Commands -/

/-- The copy that READ makes (R460). -/
def State.evRead (s : State) (seq : Nat) : State :=
  let r := s.evr.log.find? (fun (r : EvRec) => decide (r.seq = seq))
  let s := s.evSeen r.toList
  let b := (r.map s.evBytes).getD (List.replicate 32 0#8)
  let t := (List.range 8).foldl (fun t w => t.set (R.EVR_RDAT_DATA w) (leAt b (4 * w) 4)) s
  ((t.set R.EVR_RDSTAT_DONE 1).set R.EVR_RDSTAT_FOUND (b2n r.isSome)).wrap R.EVR_RDSTAT_SEQ

/-- The units that a CLEAR up to L frees: from the oldest on, each whose records all have SEQ up to L, never the open one. -/
def clearable (openUnit : Option Nat) (l : Nat) : List Nat → List EvRec → List Nat
  | [], _ => []
  | u :: us, log =>
    if some u ≠ openUnit ∧ (log.filter (fun (r : EvRec) => decide (r.place / 512 = u))).all (fun (r : EvRec) => decide (r.seq ≤ l)) then
      u :: clearable openUnit l us log
    else []

/-- The clearing of R459. -/
def State.evClear (s : State) (p : Path) (seq : Nat) : State :=
  let l := if s.on R.EVR_CTL_ACKCLR then min seq (s.get R.EVR_UPSEQ_SEQ) else seq
  let us := clearable s.evOpenUnit l ((s.evr.log.map (fun (r : EvRec) => r.place / 512)).eraseDups) s.evr.log
  let t := { s with
    evr := { s.evr with log := s.evr.log.filter (fun (r : EvRec) => !(us.contains (r.place / 512))) }
    ftl := { s.ftl with progs := s.ftl.progs.filter (fun p => match p.what with
      | .event u _ => !(us.contains u)
      | _ => true) } }
  let t := if t.ftl.mounted then us.foldl (fun t u => t.moveMap u 0xFFFFFFFF) t else t
  let t := if us.isEmpty then t else t.set R.EVR_STAT_FULL 0
  t.evMake 0x1105 0 [(0, 4, l), (4, 2, us.length), (6, 1, if p = .h then 1 else 2)]

/-- A write of EVR_CMD.OP committed (R449, R454, R459, R460, R462): BARRIER acts, FLUSH asks for a program of the open unit in BUFFERED mode;
READ and CLEAR run, with BUSY 1, and end in the commit phase of the tick that starts.  A reader waits for DONE, so READ clears it. -/
def State.evLatch (s : State) (p : Path) (op : Nat) : State :=
  if op = 1 then s.barrier 17
  else if op = 2 then { s with evr := { s.evr with flush := s.evr.flush || (decide (s.evMode = 1) && s.evOpenUnit.isSome) } }
  else if op = 3 then { s.setAll [(R.EVR_CMD_BUSY, 1), (R.EVR_RDSTAT_DONE, 0)] with evr := { s.evr with cmd := some (p, op, 0) } }
  else if op = 4 then { s.set R.EVR_CMD_BUSY 1 with evr := { s.evr with cmd := some (p, op, 0) } }
  else s

/-- EVR_ARG of a command latched in this commit, as all its writes leave it. -/
def State.evArgs (s : State) : State :=
  { s with evr := { s.evr with cmd := s.evr.cmd.map (fun c => (c.1, c.2.1, s.get R.EVR_ARG_SEQ)) } }

/-- The READ or CLEAR that runs ends (R459, R460). -/
def State.evCommit (s : State) : State :=
  match s.evr.cmd with
  | none => s
  | some (p, op, seq) =>
    let t := { s.set R.EVR_CMD_BUSY 0 with evr := { s.evr with cmd := none } }
    if op = 3 then t.evRead seq else t.evClear p seq

/-! ### Programs of event units -/

/-- The 16,384 bytes of an event unit: record r at offset 32r (R453). -/
def State.evUnitBytes (s : State) (u : Nat) : List Byte :=
  (s.evr.log.filter (fun (r : EvRec) => decide (r.place / 512 = u))).foldl (fun b r => overlay b (32 * (r.place % 512)) (s.evBytes r))
    (List.replicate 16384 0#8)

/-- How many records of a unit a program of it carries now. -/
def State.evCarried (s : State) (u : Nat) : Nat :=
  (s.evr.log.filter (fun (r : EvRec) => decide (r.place / 512 = u))).foldl (fun m (r : EvRec) => max m (r.place % 512 + 1)) 0

/-- The lines of a unit that its program reads from the event buffer (R31). -/
def State.evTouch (s : State) (u : Nat) : State :=
  (s.evr.log.filter (fun (r : EvRec) => decide (r.place / 512 = u) && !(r.stored && !r.stale))).foldl
    (fun (t : State) r => t.touch (evAddr r.place) 32) s

/-- A program of event unit u begins (R454, R455). -/
def State.evProgram (s : State) (u : Nat) : State :=
  let t := s.evTouch u
  let p : Prog := { what := .event u (t.evCarried u), lun := u, region := 1, data := t.evUnitBytes u }
  { t with ftl := { t.ftl with progs := t.ftl.progs ++ [p] },
           evr := { t.evr with flush := t.evr.flush && decide (t.evOpenUnit ≠ some u) } }

/-- A program of event unit u runs. -/
def State.evRunning (s : State) (u : Nat) : Bool :=
  s.ftl.progs.any (fun p => match p.what with
    | .event v _ => decide (v = u)
    | _ => false)

/-- Whether unit u is to be programmed now (R454, R455). -/
def State.evDue (s : State) (u : Nat) : Bool :=
  let rs := s.evr.log.filter (fun (r : EvRec) => decide (r.place / 512 = u))
  let new := rs.any (fun (r : EvRec) => !r.stored)
  let running := s.ftl.progs.any (fun p => decide (p.region = 1))
  if s.evMode = 2 then new && !running
  else if s.evMode = 1 then
    let isOpen := decide (s.evOpenUnit = some u)
    !(s.evRunning u) &&
      ((isOpen && s.evr.flush) ||
        (new && (!isOpen || rs.any (fun (r : EvRec) => !r.stored && decide (r.ev.sev = 2)))))
  else false

/-- The units that may be programmed next, oldest first: those with records that wait, and the open one once FLUSH asks for it (R454). -/
def State.evTurns (s : State) : List Nat :=
  s.evUnits (fun (r : EvRec) => !r.stored || (s.evr.flush && decide (s.evOpenUnit = some (r.place / 512))))

/-- EVENT_UNIT_PROGRAM (R454, R455): the oldest unit whose trigger has occurred begins its program. -/
def execEventUnitProgram (s : State) : Out :=
  .next (s.run (fun s =>
    if s.ftl.mounted = true ∧ s.regionOpen 1 = true ∧ s.isl.warned = false ∧ s.bufferFree = true then
      match s.evTurns.find? (fun u => s.evDue u) with
      | some u => s.evProgram u
      | none => s
    else s))

/-- An event unit has been programmed with these bytes and so many records: those are stored (R454, R455), and one that a later merge has
changed waits for the next program; a record whose line could not be read is gone.  From the warning onward they leave the number
held in the island (R456). -/
def State.evStored (s : State) (u recs : Nat) (data : List Byte) : State :=
  let carried := fun (r : EvRec) => decide (r.place / 512 = u) && decide (r.place % 512 < recs)
  let bytes := fun (r : EvRec) => sliceB data (32 * (r.place % 512)) 32
  let log := (s.evr.log.filter (fun (r : EvRec) => !(carried r) || decide (leAt (bytes r) 12 4 = r.seq))).map (fun (r : EvRec) =>
    if carried r then { r with stored := true, stale := decide (bytes r ≠ evImage r) } else r)
  let t := ({ s with evr := { s.evr with log := log } }).syncEvr
  if s.isl.warned then t.set R.ISL_EVLOST_COUNT (t.get R.ISL_EVLOST_COUNT - (s.evPend - t.evPend)) else t

/-- The records of the EVENT region as the array holds them (R449). -/
def State.evOnArray (s : State) : List EvRec :=
  (List.range 1024).flatMap (fun u => match s.unitOf u with
    | none => []
    | some x => match s.openUnit x with
      | none => []
      | some d => ((List.range 512).map (fun r => evParse (512 * u + r) (sliceB d (32 * r) 32))).filter (fun (r : EvRec) =>
          decide (r.seq ≠ 0)))

/-- A held record entered at a mount, under its new SEQ, as far as the log has room (R453, R457). -/
def State.evReenter (s : State) (r : EvRec) : State :=
  if s.on R.EVR_STAT_FULL then s.evDiscard
  else if s.evLeft = 1 then s.evFull r.ev
  else s.evEnter r.ev r.rep

/-- At mount the recorder continues from the highest SEQ found, with the log full when no place is left; the held records take the SEQs after
it, and their units are programmed in SEQ order, the open one too (R449, R453, R457). -/
def State.evMount (s : State) : State :=
  let s := s.readLuns (List.range 1024)
  let found := s.evOnArray
  let hi := found.foldl (fun m (r : EvRec) => max m r.seq) 0
  let last := (found.find? (fun (r : EvRec) => decide (r.seq = hi))).map EvRec.place
  let p0 := match last with
    | some p => p + 1
    | none => 0
  let old := found.mergeSort (fun a b => decide (a.seq ≤ b.seq))
  let held := s.evr.log.filter (fun (r : EvRec) => !r.stored)
  let up := (((old.filter (fun (r : EvRec) => decide (r.ev.code = 0x1107))).getLast?).map (fun (r : EvRec) => r.ev.data % 2 ^ 32)).getD 0
  let t := { s with evr := { s.evr with log := old, place := p0 % evPlaces, upAt := up, flush := false } }
  let t := t.setAll [(R.EVR_SEQ_SEQ, hi), (R.EVR_UPSEQ_SEQ, up), (R.EVR_STAT_FULL, b2n (decide (t.evLeft = 0)))]
  let t := held.foldl State.evReenter t
  ({ t with evr := { t.evr with flush := !held.isEmpty && t.evOpenUnit.isSome } }).syncEvr

/-- The number of records not programmed written to the island in each commit phase (R456). -/
def State.evToIsland (s : State) : State := if s.isl.warned then s else s.set R.ISL_EVLOST_COUNT s.evPend

/-- The highest SEQ in the EVENT units of the array (R456). -/
def State.evLastFound (s : State) : Nat :=
  s.nand.units.foldl (fun m e =>
    if e.2.region = 1 ∧ e.2.kind = 1 ∧ e.2.dead = false then
      (List.range 512).foldl (fun m r => max m (leAt e.2.data (32 * r + 12) 4)) m
    else m) 0

/-- BUFFER_LOST (R456) at a start that finds a number other than 0; the number is then cleared. -/
def State.evBufferLost (s : State) (pcyc : Nat) : State :=
  let n := s.get R.ISL_EVLOST_COUNT
  if n = 0 then s
  else (s.set R.ISL_EVLOST_COUNT 0).evMake 0x1106 1 [(0, 4, n), (4, 2, pcyc), (6, 4, s.evLastFound)]

/-- The anchor pairs of a power cycle, oldest first: the SEQ of the first record, OPSEC, and the device time in ns (R451). -/
def anchorsOf (log : List EvRec) (pcyc : Nat) : List (Nat × Nat × Nat) :=
  (log.zip (log.drop 1)).filterMap (fun p =>
    if p.1.ev.code = 0x1101 ∧ p.2.ev.code = 0x1102 ∧ p.2.seq = p.1.seq + 1 ∧ p.1.ev.pcyc = pcyc then
      some (p.1.seq, p.1.ev.opsec, p.2.ev.data % 2 ^ 48 * 1000000000 + p.2.ev.data / 2 ^ 48 % 2 ^ 32)
    else none)

/-- The device time of a record, in ns: that of the newest anchor pair of its power cycle with a lower SEQ, or of the oldest when none is
lower, with the operating seconds between; none without a kept pair (R452). -/
def evTimeIn (log : List EvRec) (r : EvRec) : Option Int :=
  let l := anchorsOf log r.ev.pcyc
  (((l.filter (fun a => decide (a.1 < r.seq))).getLast?).or l.head?).map (fun a =>
    (a.2.2 : Int) + ((r.ev.opsec : Int) - a.2.1) * 1000000000)

/-- The UTC second of a device time in ns, while TIM_UTC has an offset (R293, R452). -/
def State.utcSecond (s : State) (t : Int) : Option Int :=
  if s.on R.TIM_UTC_UVALID then some (t / 1000000000 - sgn 16 (s.get R.TIM_UTC_OFS)) else none

/-- An anchor pair (R451): two records with consecutive SEQs. -/
def State.evAnchor (s : State) (rtcLow sec ns cause gen : Nat) : State :=
  (s.evMake 0x1101 0 [(0, 8, s.now), (8, 4, rtcLow)]).evMake 0x1102 0 [(0, 6, sec), (6, 4, ns), (10, 1, cause), (11, 1, gen)]

end Sys2Proof.Machine
end

