-- ==== Sys2Proof/Machine/Ledger.lean ====
section
/-!
DEFINITION. The ledger, its fences, holds and acknowledgements, checkpoints, mount and format (R418-R433, R438-R440).
-/
namespace Sys2Proof.Machine

/-! ### Numbers of the ledger -/

/-- A 64-bit number in two registers. -/
def State.get64 (s : State) (lo hi : Fld) : Nat := s.get lo + 2 ^ 32 * s.get hi

/-- A 64-bit number placed in two registers. -/
def State.set64 (s : State) (lo hi : Fld) (n : Nat) : State := (s.set lo (n % 2 ^ 32)).set hi (n / 2 ^ 32 % 2 ^ 32)

/-- The next LSN (R427). -/
def State.lsn (s : State) : Nat := s.get64 R.FTL_LSNLO_LSN R.FTL_LSNHI_LSN

/-- ACKLSN: the lowest LSN that awaits acknowledgement, or the next LSN when none does (R430). -/
def State.ackLsn (s : State) : Nat := s.ftl.await.headD s.lsn

/-- FTL_ACKLO and FTL_ACKHI brought up to ACKLSN. -/
def State.syncAck (s : State) : State := s.set64 R.FTL_ACKLO_LSN R.FTL_ACKHI_LSN s.ackLsn

/-- Units of the LEDGER region (R418). -/
def State.ledUnits (s : State) : Nat := (s.ftl.sys.map SysRec.units).getD 0

/-- Free units of the LEDGER region (R428). -/
def State.ledFree (s : State) : Nat := s.ledUnits - (s.ftl.units.length + s.ftl.bufs.length)

/-- The LUNUM after one in the circle of the LEDGER region (R418). -/
def State.ledAfter (s : State) (lun : Nat) : Nat := if lun + 1 < 2576 + s.ledUnits then lun + 1 else 2576

/-! ### Entries -/

/-- A FREE slot (R426). -/
def freeEntry : Entry := ⟨0, 0, 0, 0, 0, false, 0⟩

/-- The descriptor of an entry (R426). -/
def Entry.desc (e : Entry) : Nat :=
  e.kind + e.verdict * 2 ^ 4 + e.reason * 2 ^ 8 + e.queue * 2 ^ 16 + e.part * 2 ^ 21 + b2n e.ackreq * 2 ^ 23

/-- An entry from its descriptor and slot (R426). -/
def Entry.of (d : Nat) (r : Rec) : Entry :=
  ⟨bitsOf d 0 4, bitsOf d 4 4, bitsOf d 8 8, bitsOf d 16 5, bitsOf d 21 2, d.testBit 23, r⟩

/-- The 16,384 bytes of a ledger unit (R426). -/
def ledgerImage (lsn : Nat) (es : List Entry) : List Byte :=
  let pad := List.replicate (240 - es.length) freeEntry
  label4 0x4C 0x44 0x47 0x31 ++ [1#8, 0#8] ++ leBytes 2 es.length ++ leBytes 8 lsn ++ List.replicate 48 0#8 ++
    (es ++ pad).flatMap (fun e => recBytes e.data) ++ (es ++ pad).flatMap (fun e => leBytes 4 e.desc)

/-- The LSN of slot 0 and the entries of a ledger unit's bytes (R426). -/
def ledgerParse (d : List Byte) : Option (Nat × List Entry) :=
  if d.take 4 = label4 0x4C 0x44 0x47 0x31 then
    some (leAt d 8 8, (List.range (leAt d 6 2)).map (fun i =>
      Entry.of (leAt d (15424 + 4 * i) 4) (recOf (sliceB d (64 + 64 * i) 64))))
  else none

/-- The buffer that takes the next entry, opened when none is open (R427); `none` when no buffer or no unit is free. -/
def State.openBuf (s : State) (room : Nat) : Option LBuf × State :=
  match s.ftl.bufs.getLast? with
  | some b =>
    if b.busy = false ∧ b.ents.length + room ≤ 240 then (some b, s)
    else if s.ftl.bufs.length < 8 ∧ 0 < s.ledFree then
      let n : LBuf := ⟨s.ftl.ledNext, s.lsn, [], s.now, false⟩
      (some n, { s with ftl := { s.ftl with bufs := s.ftl.bufs ++ [n], ledNext := s.ledAfter s.ftl.ledNext } })
    else (none, s)
  | none =>
    if 0 < s.ledFree then
      let n : LBuf := ⟨s.ftl.ledNext, s.lsn, [], s.now, false⟩
      (some n, { s with ftl := { s.ftl with bufs := [n], ledNext := s.ledAfter s.ftl.ledNext } })
    else (none, s)

/-- The open buffer padded with FREE slots when an entry of several slots would not fit (R426, R427). -/
def State.padBuf (s : State) (room : Nat) : State :=
  match s.ftl.bufs.getLast? with
  | some b =>
    if b.busy = false ∧ b.ents.length < 240 ∧ 240 < b.ents.length + room then
      let k := 240 - b.ents.length
      let t := { s with ftl := { s.ftl with bufs := s.ftl.bufs.dropLast ++ [{ b with ents := b.ents ++ List.replicate k freeEntry }] } }
      t.set64 R.FTL_LSNLO_LSN R.FTL_LSNHI_LSN (s.lsn + k)
    else s
  | none => s

/-- LEDGER_ENTRY_ACCEPT (R427): the slots of an entry placed in an open unit buffer; the LSN of the first.  Nothing is
accepted while storage does not write the LEDGER region. -/
def State.accept (s : State) (es : List Entry) : Option Nat × State :=
  if s.storWrites = false then (none, s)
  else
    let s := s.padBuf es.length
    let r := s.openBuf es.length
    match r.1 with
    | none => (none, s)
    | some b =>
      let l := r.2.lsn
      let f := r.2.ftl
      let b' := { b with ents := b.ents ++ es, first := if b.ents.isEmpty then r.2.now else b.first }
      let ack := es.any Entry.ackreq
      let t := { r.2 with ftl := { f with bufs := f.bufs.dropLast ++ [b'], ckptN := f.ckptN + 1,
                                          await := if ack then f.await ++ [l] else f.await } }
      (some l, (t.set64 R.FTL_LSNLO_LSN R.FTL_LSNHI_LSN (l + es.length)).syncAck)

/-- An entry of one slot (R426). -/
def State.acceptOne (s : State) (kind verdict reason queue : Nat) (ackreq : Bool) (data : Rec) : Option Nat × State :=
  s.accept [⟨kind, verdict, reason, queue, 0, ackreq, data⟩]

/-- A record's entry offered: it is accepted at the end of the tick of its verdict, after the entries of firmware (R427). -/
def State.offer (s : State) (e : Entry) : State :=
  if s.storWrites then { s with ftl := { s.ftl with offered := s.ftl.offered ++ [e] } } else s

/-- One record entry that was offered accepted, unless one before it still waits for a buffer; where storage no longer writes the ledger, it is
gone (R425, R427). -/
def State.acceptNext (s : State) (e : Entry) : State :=
  if s.storWrites = false then s
  else
    let r := if s.ftl.offered.isEmpty then s.accept [e] else (none, s)
    if r.1.isSome then r.2 else { r.2 with ftl := { r.2.ftl with offered := r.2.ftl.offered ++ [e] } }

/-- The record entries offered in this tick accepted, in order (R427). -/
def State.acceptOffered (s : State) : State :=
  s.ftl.offered.foldl State.acceptNext { s with ftl := { s.ftl with offered := [] } }

/-- ACKMARK (R430): the acknowledgement point written to the ledger. -/
def State.ackMark (s : State) : State :=
  let t := (s.acceptOne 6 0 0 0 false (recOf (leBytes 8 s.ackLsn))).2
  { t with ftl := { t.ftl with marked := s.ackLsn } }

/-- Entries acknowledged (R430): ACKLSN advances over them, and an ACKMARK follows every 4,096. -/
def State.ledgerAck (s : State) (lsns : List Nat) : State :=
  let t := ({ s with ftl := { s.ftl with await := s.ftl.await.filter (fun l => !(lsns.contains l)) } }).syncAck
  if t.ftl.marked + 4096 ≤ t.ackLsn then t.ackMark else t

/-- DIRCMD (R426): a completed directory command that changed an entry. -/
def State.acceptDirCmd (s : State) (op res : Nat) (args : List Nat) : State :=
  (s.acceptOne 5 0 0 0 false (recOf ([BitVec.ofNat 8 op, BitVec.ofNat 8 res, 0#8, 0#8] ++ args.flatMap (leBytes 4)))).2

/-- The entries of a ledger unit on the array, when its storage key opens it. -/
def State.unitEntries (s : State) (lun : Nat) : Option (Nat × List Entry) :=
  match s.unitOf lun with
  | none => none
  | some u => match s.openUnit u with
    | none => none
    | some d => ledgerParse d

/-- The entry at an LSN, from a buffer or from the array. -/
def State.entryAt (s : State) (l : Nat) : Option Entry :=
  match s.ftl.bufs.find? (fun b => decide (b.lsn ≤ l ∧ l < b.lsn + b.ents.length)) with
  | some b => b.ents[l - b.lsn]?
  | none => match s.ftl.units.find? (fun u => decide (u.lsn ≤ l ∧ l < u.lsn + u.used)) with
    | none => none
    | some u => match s.unitEntries u.lun with
      | none => none
      | some e => e.2[l - u.lsn]?

/-! ### Flushes and programs -/

/-- Whether a unit buffer is to be programmed now (R427, R429, R435, R419). -/
def State.bufDue (s : State) (b : LBuf) : Bool :=
  let wait := if s.stor = 1 then s.get R.FTL_CTL_FLUSHB else s.get R.FTL_CTL_FLUSHW
  decide (b.busy = false) && !b.ents.isEmpty &&
    (decide (b.ents.length = 240 ∨ b.first + wait ≤ s.now) || s.ftl.fences.any (fun f => decide (b.lsn < f.2)) ||
      s.ftl.drain || decide (s.ftl.bufs.getLast? ≠ some b))

/-- LEDGER_UNIT_FLUSH (R427, R435): the first buffer that is due begins its program. -/
def execLedgerUnitFlush (s : State) : Out :=
  .next (s.run (fun s =>
    if s.storWrites = true ∧ s.isl.warned = false then
      match s.ftl.bufs.find? (fun b => s.bufDue b) with
      | none => s
      | some b =>
        { s with ftl := { s.ftl with
          bufs := s.ftl.bufs.map (fun c => if c.lsn = b.lsn then { c with busy := true } else c)
          progs := s.ftl.progs ++ [{ what := .ledger b.lsn, lun := b.lun, region := 4, data := ledgerImage b.lsn b.ents }] } }
    else s))

/-- What follows the success of a program (R420, R427, R455). -/
def State.progDone (s : State) (p : Prog) : State :=
  match p.what with
  | .ledger l =>
    let used := ((s.ftl.bufs.find? (fun b => decide (b.lsn = l))).map (fun b => b.ents.length)).getD 0
    { s with ftl := { s.ftl with bufs := s.ftl.bufs.filter (fun b => decide (b.lsn ≠ l)),
                                 units := s.ftl.units ++ [⟨p.lun, l, used⟩] } }
  | .snap => s
  | .event u n => s.evStored u n p.data

/-- A program in progress ends at `dst` with what the array reports; a failed one stays, to be made again in another LUN where one has a
free place (R420). -/
def State.endProgram (s : State) (cls k dst : Nat) (ok : Bool) : State :=
  match s.ftl.progs[k]? with
  | none => s
  | some p =>
    if s.againAt p.region p.failed dst = false then s
    else
      let r := s.programUnit cls p.lun p.region 1 0 p.data dst ok
      if r.1 then
        ({ r.2 with ftl := { r.2.ftl with progs := r.2.ftl.progs.eraseIdx k } }).progDone p
      else
        { r.2 with ftl := { r.2.ftl with progs := r.2.ftl.progs.set k { p with failed := r.2.avoidAfter s dst p.failed } } }

/-- NAND_PROGRAM_DONE (R51, R420): entry `k` of the programs in progress, as they stand when its LUN is seen ready. -/
def execNandProgramDone (k dst : Nat) (ok : Bool) (s : State) : Out :=
  .next (s.sense (.nandProgramDone k dst ok) (fun s =>
    match s.ftl.progs[k]? with
    | none => s
    | some p => if s.regionOpen p.region then s.endProgram 0 k dst ok else s))

/-! ### Fences -/

/-- A fence issued (R429): pending, or FAILED at once while storage does not write. -/
def State.issueFence (s : State) : State :=
  let n := (s.get R.FTL_FISS_NUM + 1) % 2 ^ 32
  let t := s.set R.FTL_FISS_NUM n
  let t := { t with ftl := { t.ftl with fences := t.ftl.fences ++ [(n, t.lsn)] } }
  if s.storWrites then t else t.failFences

/-- A write of 1 to FTL_FENCE.ISSUE, firmware writing an ACKMARK first (R430). -/
def State.fenceBy (s : State) (p : Path) : State := (if p = .fw then s.ackMark else s).issueFence

/-- Every entry below an LSN has been programmed (R429). -/
def State.durableTo (s : State) (l : Nat) : Bool := s.ftl.bufs.all (fun b => b.ents.isEmpty || decide (l ≤ b.lsn))

/-- FENCE_COMPLETE (R58, R429, R437): the oldest pending fence ends; after the power-fail warning its completion is not reported. -/
def execFenceComplete (s : State) : Out :=
  .next (s.run (fun s =>
    match if s.isl.warned then [] else s.ftl.fences with
    | [] => s
    | f :: rest =>
      if s.storWrites = false then s.failFences
      else if s.durableTo f.2 then
        { s.set R.FTL_FDONE_NUM f.1 with ftl := { s.ftl with fences := rest } }
      else s))

/-- Whether fence n has ended complete (R429, R58). -/
def State.fenceOk (s : State) (n : Nat) : Bool :=
  !(s.ftl.fences.any (fun f => decide (f.1 = n))) && !(s.ftl.failed.contains n)

/-- Whether fence n has ended. -/
def State.fenceEnded (s : State) (n : Nat) : Bool := !(s.ftl.fences.any (fun f => decide (f.1 = n)))

/-! ### Holds and releases -/

/-- LEDGER_HOLD (R428). -/
def execLedgerHold (s : State) : Out :=
  .next (s.run (fun s =>
    if s.ftl.mounted = true ∧ s.storWrites = true ∧ s.on R.FTL_STAT_HOLD = false ∧ s.ledFree ≤ s.get R.FTL_HOLD_HOLDU then
      (s.set R.FTL_STAT_HOLD 1).clearLedgerLanes
    else s))

/-- LEDGER_HOLD_END (R428). -/
def execLedgerHoldEnd (s : State) : Out :=
  .next (s.run (fun s =>
    if s.on R.FTL_STAT_HOLD = true ∧ s.storWrites = true ∧ 2 * s.get R.FTL_HOLD_HOLDU ≤ s.ledFree then
      (s.set R.FTL_STAT_HOLD 0).restoreLanes
    else s))

/-- The entries of a unit that must be written again before it is released (R430): newest receipts, and DIRCMD and CKPT entries
not older than the newest CKPT. -/
def State.mustRewrite (s : State) (u : LUnit) (es : List Entry) : List (Nat × Entry) :=
  let c := (s.ftl.ckpt.map Prod.fst).getD 0
  ((List.range es.length).zip es).filter (fun e =>
    let l := u.lsn + e.1
    (decide (e.2.kind = 3) && s.ftl.receipt.any (fun r => decide (r.2 = l + 1))) ||
      (decide (e.2.kind = 5 ∨ e.2.kind = 7) && decide (c ≤ l) && !(s.ftl.again.contains l)))

/-- One entry written again (R430). -/
def State.rewriteEntry (u : LUnit) (s : State) (e : Nat × Entry) : State :=
  let r := s.accept [e.2]
  match r.1 with
  | none => s
  | some n =>
    let l := u.lsn + e.1
    let f := r.2.ftl
    let rc := f.receipt.map (fun x => if x.2 = l + 1 then (x.1, n + 1) else x)
    let ck := f.ckpt.map (fun c => if c.1 = l then (n, c.2) else c)
    { r.2 with ftl := { f with receipt := rc, ckpt := ck, again := f.again ++ [l] } }

/-- LEDGER_UNIT_RELEASE (R430): the oldest unit, once every ACKREQ entry in it lies below ACKLSN; what it still holds of use is
written again first. -/
def execLedgerUnitRelease (s : State) : Out :=
  .next (s.run (fun s =>
    match s.ftl.units with
    | [] => s
    | u :: rest =>
      if s.storWrites = false ∨ s.ftl.await.any (fun l => decide (l < u.lsn + u.used)) = true then s
      else
        let s := s.readLuns [u.lun]
        let es := ((s.unitEntries u.lun).map Prod.snd).getD []
        let m := s.mustRewrite u es
        if m ≠ [] then m.foldl (State.rewriteEntry u) s
        else
          let t := s.moveMap u.lun 0xFFFFFFFF
          { t with ftl := { t.ftl with units := rest, again := t.ftl.again.filter (fun l => decide (u.lsn + u.used ≤ l)) } }))

/-! ### Checkpoints -/

/-- The lines of BANK08 to BANK31 as 768 units: 512 of the directory and 256 of the replay table (R418, R431). -/
def State.tableUnit (s : State) (i : Nat) : List Byte := s.mrd (0x400000 + 16384 * i) 16384

/-- The slot that does not hold the newest complete checkpoint (R431). -/
def State.ckptSlot (s : State) : Nat :=
  match s.ftl.ckpt with
  | some c => 1 - c.2.1
  | none => 0

/-- A checkpoint begins (R431). -/
def State.ckptStart (s : State) : State :=
  { s with ftl := { s.ftl with ckptAt := s.now, ckptN := 0, copy := some (s.ckptSlot, 0, s.lsn) } }

/-- A completed copy recorded by a CKPT entry with its slot and its start LSN (R431). -/
def State.ckptDone (s : State) (slot start : Nat) : State :=
  let t := { s with ftl := { s.ftl with copy := none } }
  let a := t.acceptOne 7 0 0 0 false (recOf ([BitVec.ofNat 8 slot] ++ List.replicate 7 0#8 ++ leBytes 8 start))
  match a.1 with
  | some l => { a.2 with ftl := { a.2.ftl with ckpt := some (l, slot, start) } }
  | none => a.2

/-- One command window of a copy (R125, R431): 512 lines read and programmed as the next unit; after the 768th the copy is complete. -/
def State.ckptWindow (s : State) (tries : List (Nat × Bool)) : State :=
  match s.ftl.copy with
  | none => s
  | some (slot, i, start) =>
    let r := (s.touch (0x400000 + 16384 * i) 16384).programTry 0 (1040 + 768 * slot + i) 3 1 0 (s.tableUnit i) s.ftl.ckFail tries
    let t := { r.2.2 with ftl := { r.2.2.ftl with ckFail := r.2.1 } }
    if r.1 = false then t
    else if i + 1 = 768 then t.ckptDone slot start
    else { t with ftl := { t.ftl with copy := some (slot, i + 1, start) } }

/-- A checkpoint is due: SEC seconds after the start of the one before, or after REC × 65,536 entries (R431). -/
def State.ckptDue (s : State) : Bool :=
  decide (s.ftl.ckptAt + s.get R.FTL_CKPT_SEC * ticksPerSec ≤ s.now ∨ s.get R.FTL_CKPT_REC * 65536 ≤ s.ftl.ckptN)

/-- A completed SETEPOCH, WEPOCH, REMOVE or DIRFIX starts a copy under way again from its first line (R431). -/
def State.ckptAgain (s : State) : State :=
  { s with ftl := { s.ftl with copy := s.ftl.copy.map (fun c => (c.1, 0, s.lsn)) } }

/-- CHECKPOINT (R431): a copy that is due begins, and one that is under way takes its next command window; both wait while a window is
zeroed. -/
def execCheckpoint (tries : List (Nat × Bool)) (s : State) : Out :=
  .next (s.run (fun s =>
    if s.storWrites = true ∧ s.on R.FTL_STAT_RESTORED = true ∧ s.on R.RPL_STAT_ZEROING = false ∧ s.isl.warned = false ∧ s.bufferFree = true then
      if s.ftl.copy.isSome then s.ckptWindow tries
      else if s.ckptDue then s.ckptStart.ckptWindow tries
      else s
    else s))

/-! ### Mount and format -/

/-- Chip enables that CEMASK names (R441). -/
def chipsUsed (mask : Nat) : Nat := ((List.range 4).filter (fun c => mask.testBit c)).length

/-- ARRAY_ACCEPT (R413, R414): one parameter page of every chip enable used, every one accepted and all alike. -/
def arrayAccept (mask : Nat) (pages : List ParamPage) : Option Geo :=
  match pages with
  | [] => none
  | p :: _ =>
    let luns := pages.foldl (fun n q => n + q.luns) 0
    let same := pages.all (fun q => q.crcOk &&
      decide (q.page = p.page ∧ q.spare = p.spare ∧ q.ppb = p.ppb ∧ q.bpl = p.bpl ∧ q.bits = 1 ∧ 1 ≤ q.luns ∧ q.luns ≤ 2))
    let fits := decide (pages.length = chipsUsed mask ∧ (p.page = 4096 ∨ p.page = 8192 ∨ p.page = 16384) ∧ 48 * (p.page / 1024) ≤ p.spare ∧
      luns ≤ 8 ∧ luns * p.bpl * p.ppb * p.page ≤ 2 ^ 33 ∧ 16384 ≤ p.ppb * p.page)
    if same && fits then
      some { luns := luns, upb := p.ppb * p.page / 16384, bpl := p.bpl, page := p.page, spare := p.spare
             tprog := pages.foldl (fun n q => max n q.tprog) 0, tr := pages.foldl (fun n q => max n q.tr) 0
             rated := p.rated }
    else none

/-- Storage enters KEYLESS (R438): ledger buffers are discarded, fences end FAILED, and the lanes are cleared. -/
def State.keyless (s : State) : State :=
  let t := { s with ftl := { s.ftl with
    bufs := [], offered := [], copy := none, progs := s.ftl.progs.filter (fun p => decide (p.region ≤ 2)) } }
  (t.set R.FTL_STAT_STATE 4).failFences.clearLedgerLanes

/-- STORAGE_KEY_LOAD (R438): the key of the system record's generation, or KEYLESS; otherwise the state that the hold-up check
gives, or READ-ONLY where the system record keeps it (R424). -/
def State.storKey (s : State) (gen : Nat) : State :=
  match s.storPage with
  | none => s.keyless
  | some p =>
    let r := (s.nameSlot p 0).loadKey 8 p 1 gen
    let ro := (s.ftl.sys.map SysRec.ro).getD false
    if r.1 = 1 then r.2.set R.FTL_STAT_STATE (if ro then 3 else if s.on R.DRY_STAT_PASS then 1 else 2) else r.2.keyless

/-- System blocks set apart at a format: room for two copies of the 128 map segments and of the system record, and two blocks more.  DESIGN
CHOICE (assumption 126): R418 gives no number. -/
def Geo.sysBlocks (g : Geo) : Nat := ceilDiv 258 g.upb + 2

/-- The blocks of the EVENT region: those of its 1,024 units, and its reserve of 4 (R418, R423). -/
def Geo.evBlocks (g : Geo) : Nat := ceilDiv 1024 g.upb + 4

/-- FORMAT begins (R429, R439): pending fences end FAILED, all that the array held is given up, and every block that is not bad is erased. -/
def State.formatBegin (s : State) : State :=
  let t := s.failFences
  let good := (List.range t.nand.geo.blocks).filter (fun b => !(t.nand.bad.contains b))
  let t := { t with nand := { t.nand with sysBl := [], evBl := [] }, evr := {},
                    ftl := { hold := t.ftl.hold, histAt := t.ftl.histAt, array := t.ftl.array, rate := t.ftl.rate, lanes := t.ftl.lanes,
                             failed := t.ftl.failed, erasing := good, format := some 0 } }
  let t := (t.setAll [(R.FTL_STAT_STATE, 0), (R.EVR_SEQ_SEQ, 0), (R.EVR_STAT_FULL, 0)]).syncEvr
  let t := (List.range 128).foldl (fun t i => t.memWrite (mapAddr (4096 * i)) (List.replicate 16384 0xFF#8)) t
  good.foldl State.sendErase t

/-- The storage note derived at generation `gen` from the selected Base note, and its key loaded (R439). -/
def State.formatKey (s : State) (gen : Nat) : State :=
  match s.baseNote with
  | none => s.keyless
  | some b =>
    let q := match s.isl.keys.ident with
      | some i => i.2
      | none => []
    (s.putKeys { s.isl.keys with note := some (storageNote b q gen) }).storKey gen

/-- FORMAT ends (R418, R423, R439): the blocks are erased, `failed` of them retired; system blocks, the EVENT region's own and the spare pool are
set apart, a new storage note is derived and its key loaded, and the system record is written. -/
def State.formatEnd (s : State) (failed : Nat) : State :=
  let g := s.nand.geo
  let good := (List.range g.blocks).filter (fun b => !(s.nand.bad.contains b))
  let spare := max 8 (good.length * s.get R.FTL_CFG_SPAREPCT / 100)
  let units := (good.length - g.sysBlocks - g.evBlocks - spare) * g.upb - 1552
  let t := { s with nand := { s.nand with sysBl := good.take g.sysBlocks, evBl := (good.drop g.sysBlocks).take g.evBlocks },
                    ftl := { s.ftl with format := none } }
  if units < 4096 then t.syncWear.set R.FTL_STAT_STATE 5
  else
    let gen := (s.slot 0).gen + 1
    let t := { t with ftl := { t.ftl with mounted := true, sys := some ⟨gen, units, spare, 4, failed, List.replicate 16 0, false⟩, sysDue := true } }
    let t := (((t.set64 R.FTL_LSNLO_LSN R.FTL_LSNHI_LSN 0).syncAck).syncSpare.syncWear).formatKey gen
    let t := if t.storWrites = true ∧ t.on R.FTL_STAT_HOLD = false ∧ t.ftl.lanes ≠ 0 then t.restoreLanes else t
    t.evMount

/-- A block erase of a FORMAT ends (R420, R439): one that fails retires its block. -/
def State.formatErase (s : State) (failed block : Nat) (ok : Bool) : State :=
  let n := if ok then failed else failed + 1
  let t := if ok then s.blockErased block
    else
      { s.bump R.NND_CNT_EFAIL with
        nand := { s.nand with bad := s.nand.bad ++ [block] }, ftl := { s.ftl with erasing := s.ftl.erasing.erase block } }
  let t := { t with ftl := { t.ftl with format := some n } }
  if t.ftl.erasing = [] then t.formatEnd n else t

/-- NAND_ERASE_DONE (R51, R420-R422, R439): a block erase completes, or fails and retires the block.  The erase of a victim waits until
its moved map segments have been written. -/
def execNandEraseDone (block : Nat) (ok : Bool) (s : State) : Out :=
  .next (s.sense (.nandEraseDone block ok) (fun s =>
    if s.ftl.erasing.contains block then
      match s.ftl.format with
      | some n => s.formatErase n block ok
      | none => if s.eraseWaits block then s else if ok then (s.blockErased block).wearLevel else s.eraseFailed block
    else s))

/-- The life-cycle states that take FORMAT (R439). -/
def State.formatOpen (s : State) : Bool := decide (s.lc = lcTest ∨ s.lc = 3)

/-- FORMAT carried out (R439, R441); the recorder starts again with SEQ 1 (R449). -/
def State.formatRun (s : State) : State :=
  if s.nand.geo.luns = 0 ∨ s.on R.FTL_CTL_EN = false ∨ s.ftl.hold.decided = none then s else s.formatBegin

/-- The newest valid copy of map segment n and its place (R419). -/
def State.newestSeg (s : State) (n : Nat) : Option (Nat × PUnit) :=
  s.nand.units.foldl (fun (m : Option (Nat × PUnit)) e =>
    if e.2.kind = 2 ∧ e.2.seg = n ∧ e.2.dead = false ∧ unitCrc e.2 = e.2.tag then
      match m with
      | none => some e
      | some u => if u.2.wseq < e.2.wseq then some e else some u
    else m) none

/-- The metadata codeword of a unit can be read (R415). -/
def PUnit.known (u : PUnit) : Bool := decide (nth u.errs 16 0 ≤ 24)

/-- The map rebuilt (R419): the newest copy of each segment, then for each LUNUM the unit of highest WSEQ among those
programmed after the oldest segment; a segment is dirty where that changes an entry. -/
def State.loadMap (s : State) : State :=
  let segs := (List.range 128).map (fun n => (n, s.newestSeg n))
  let t := segs.foldl (fun (t : State) e =>
    let u := match e.2 with
      | some x => (t.readPun x.1 x.2).2
      | none => t
    u.memWrite (mapAddr (4096 * e.1)) (match e.2 with
      | some x => unitBytes x.2.data
      | none => List.replicate 16384 0xFF#8)) s
  let oldest := if segs.all (fun e => e.2.isSome) then
      segs.foldl (fun m e => match e.2 with
        | some x => min m x.2.wseq
        | none => m) s.ftl.wseq
    else 0
  let seen := s.nand.units.filter (fun e => decide (oldest < e.2.wseq))
  let t := seen.foldl (fun (t : State) e => (t.sendRead e.1).unitCorr e.1 (e.2.errs.drop 16)) t
  let newer := seen.filter (fun e => decide (e.2.kind = 1) && e.2.known &&
    s.nand.units.all (fun o => decide (o.2.kind ≠ 1 ∨ o.2.lun ≠ e.2.lun ∨ o.2.wseq ≤ e.2.wseq) || !o.2.known))
  newer.foldl (fun t e => if t.mapped e.2.lun = some e.1 then t else t.moveMap e.2.lun e.1) t

/-- The ledger units on the array, by LSN, and the LSN after them. -/
def State.findLedger (s : State) : List LUnit :=
  ((List.range s.ledUnits).filterMap (fun i =>
    match s.unitEntries (2576 + i) with
    | some e => some ⟨2576 + i, e.1, e.2.length⟩
    | none => none)).mergeSort (fun a b => decide (a.lsn ≤ b.lsn))

/-- The place in the rotation after the newest SNAP unit that the map gives (R418). -/
def State.snapNext (s : State) : Nat :=
  let last := (List.range 16).foldl (fun (m : Option (Nat × Nat)) i => match s.unitOf (1024 + i), m with
    | some u, some x => if x.1 < u.wseq then some (u.wseq, i) else m
    | some u, none => some (u.wseq, i)
    | none, _ => m) none
  match last with
  | some x => (x.2 + 1) % 16
  | none => 0

/-- The histogram at a mount (R440, R506): that of the system record, or of a snapshot of drydown written after it.  A snapshot holds it first,
after its head of 16 bytes. -/
def State.mountHist (s : State) (y : SysRec) (w : Nat) : List Nat :=
  ((List.range 16).foldl (fun (m : Nat × List Nat) i => match s.unitOf (1024 + i) with
    | some u => match s.openUnit u with
      | some d => if m.1 < u.wseq ∧ leAt d 0 1 = 2 then (u.wseq, (List.range 16).map (fun k => leAt d (16 + 4 * k) 4)) else m
      | none => m
    | none => m) (w, y.hist)).2

/-- Storage mounted on an accepted array with a system record (R419, R438). -/
def State.mountArray (s : State) (e : Nat × PUnit) : State :=
  let w := s.nand.units.foldl (fun m e => max m (e.2.wseq + 1)) 1
  let y := sysParse e.2.data
  let t := ((s.readPun e.1 e.2).2)
  let t := ({ t with ftl := { t.ftl with mounted := true, wseq := w, sys := some y } }).loadMap
  let t := t.readLuns ((List.range 16).map (fun i => 1024 + i))
  let hist := t.mountHist y e.2.wseq
  let t := { t with ftl := { t.ftl with sys := some { y with hist := hist }, snapAt := t.snapNext } }
  let t := (List.range 16).foldl (fun t k => t.set (R.FTL_THIST_MIN k) (nth hist k 0)) t
  let t := t.syncSpare.syncWear.storKey y.gen
  let us := t.findLedger
  let t := { t with ftl := { t.ftl with units := us, ledNext := (us.getLast?.map (fun (u : LUnit) => t.ledAfter u.lun)).getD 2576 } }
  (t.set64 R.FTL_LSNLO_LSN R.FTL_LSNHI_LSN ((us.getLast?.map (fun (u : LUnit) => u.lsn + u.used)).getD 0)).syncAck

/-- The parameter pages of an array that R413 accepts: its geometry and its factory bad blocks, the data rate set, and the persistence rate
(R413, R414, R433). -/
def State.takeGeo (s : State) (g : Geo) (bad : List Nat) : State :=
  let t := s.sendStart
  let t := { t with nand := { t.nand with geo := g, bad := t.nand.bad ++ bad.filter (fun b => !(t.nand.bad.contains b)) } }
  let t := t.setAll [(R.NND_GEOM_LUNS, g.luns),
    (R.NND_GEOM_PAGE, if g.page = 4096 then 1 else if g.page = 8192 then 2 else 3), (R.NND_GEOM_TPROG, min 0xFFFF g.tprog)]
  t.set R.FTL_RATE_RATE (min 0xFFFFFFFF t.ledgerRate)

/-- The mount proper, once the hold-up check has decided: the newest system record, or a format where there is none; in FIELD and END storage
then has FAILED (R419, R439). -/
def State.mountRun (s : State) : State :=
  match s.newestSys with
  | some e => (s.mountArray e).evMount
  | none => if s.lc = 2 ∨ s.lc = 4 then s.set R.FTL_STAT_STATE 5 else s.formatBegin

/-- MOUNT (R414, R419, R433, R438, R439): the parameter pages are read once at a storage start, and the array is mounted once the hold-up check
has decided. -/
def execMount (pages : List ParamPage) (bad : List Nat) (s : State) : Out :=
  .next (s.run (fun s =>
    if s.on R.FTL_CTL_EN = true ∧ s.stor = 0 ∧ s.ftl.mounted = false ∧ s.ftl.format = none ∧ s.isl.warned = false then
      let t := if s.ftl.array then s else
        match arrayAccept (s.get R.NND_CTL_CEMASK) pages with
        | none => s.sendStart.set R.FTL_STAT_STATE 5
        | some g => s.takeGeo g bad
      if t.stor = 0 ∧ t.ftl.hold.decided ≠ none then t.mountRun else t
    else s))

/-! ### Health -/

/-- The bin of a die temperature in 0.1 °C (R440). -/
def tempBin (t : Int) : Nat := if t < -300 then 0 else if 1100 ≤ t then 15 else ((t + 400) / 100).toNat

/-- TEMPERATURE_HISTOGRAM (R440): once per hour, the die temperature of each minute since the last write is counted and the
histogram goes to the system record. -/
def execTemperatureHistogram (temps : List Int) (s : State) : Out :=
  .next (s.run (fun s =>
    if s.ftl.histAt + 3600 * ticksPerSec ≤ s.now then
      let t := temps.foldl (fun (t : State) x =>
        let f := R.FTL_THIST_MIN (tempBin x)
        t.set f (satAdd 32 (t.get f) 1)) s
      let hist := (List.range 16).map (fun k => t.get (R.FTL_THIST_MIN k))
      { t with ftl := { t.ftl with histAt := s.now, sys := t.ftl.sys.map (fun (y : SysRec) => { y with hist := hist }), sysDue := true } }
    else s))

end Sys2Proof.Machine
end

