-- ==== Sys2Proof/Machine/Metering.lean ====
section
/-!
DEFINITION. Metering front end and energy computation (R157-R191): samples and their correction, per-second values, cycles,
the island's cumulative registers, pulses, phase sequence and neutral, and Sillage watch.
-/
namespace Sys2Proof.Machine

/-! ### Groups and channels -/

/-- Group g is measured (R158). -/
def State.groupOn (s : State) (g : Nat) : Bool := (s.get R.MTR_CTL_GEN).testBit g

/-- The voltage channel of phase p of group g (R158). -/
def State.vref (s : State) (g p : Nat) : Nat :=
  s.get (if p = 0 then R.MTR_GCFG_VREF1 g else if p = 1 then R.MTR_GCFG_VREF2 g else R.MTR_GCFG_VREF3 g)

/-- A corrected sample of the current tick: current channel 4g + r, voltage channel 16 + v. -/
def State.sample (s : State) (c : Nat) : Int := SMap.get zI s.mtr.xs c

/-- The groups. -/
def groups : List Nat := [0, 1, 2, 3]

/-- Group and phase pairs. -/
def groupPhases : List (Nat × Nat) := groups.flatMap (fun g => [(g, 0), (g, 1), (g, 2)])

/-! ### Sampling and correction -/

/-- Whether some channel is advanced against the others (R163 step 2). -/
def State.phaseAdvance (s : State) : Bool :=
  (List.range 24).any (fun c => decide (256 ≤ s.get (R.MTR_PHC_PHC c)))

/-- Step 2 of R163 in 1/256 units: x1 of channel c, now `x`, delayed by PHC / 256 of a sample, and by one further sample when
some channel has a negative PHC. -/
def State.phased (s : State) (c : Nat) (x : Int) : Int :=
  let d : Int := sgn 10 (s.get (R.MTR_PHC_PHC c)) + (if s.phaseAdvance then 256 else 0)
  let h := [x, SMap.get zI s.mtr.x1 c, SMap.get zI s.mtr.x1b c]
  let k := (d / 256).toNat
  let f := d % 256
  (256 - f) * nth h k 0 + f * nth h (k + 1) 0

/-- Steps 3 of R163: the gained value in units of 2^-38 mA or mV. -/
def State.gained (s : State) (c : Nat) (x : Int) : Int := s.phased c x * s.get (R.MTR_GAIN_GAIN c)

/-- 32 bits hold a corrected value (R163): beyond them it saturates (DESIGN CHOICE, assumption 130). -/
def hold32 (i : Int) : Int := clampI (-(2 ^ 31)) (2 ^ 31 - 1) i

/-- Steps 1 to 5 of R163 for channel c. -/
def State.correct (s : State) (x1 : Nat → Int) (c : Nat) : Int :=
  if 16 ≤ c then hold32 (divOpen (s.gained c (x1 c)) (2 ^ 38))
  else
    let g := c / 4
    let r := c % 4
    let x4 := [0, 1, 2, 3].foldl (fun a k =>
      a + sgn 32 (s.get (R.MTR_XT_XT g r k)) * s.gained (4 * g + k) (x1 (4 * g + k))) (0 : Int)
    hold32 (divOpen (x4 * (10 ^ 10 + SMap.get zI s.mtr.fac g)) (2 ^ 66 * 10 ^ 10))

/-- A raw sample at either end of its range (R162): MTR_CLIP, and at most one event per channel and device second. -/
def State.clip (s : State) (c : Nat) (raw : Int) : State :=
  if raw = 2 ^ 23 - 1 ∨ raw = -(2 ^ 23) then
    let sec := s.now / ticksPerSec + 1
    let t := s.flagBit R.MTR_CLIP_CLIP c
    if SMap.get zN s.mtr.clipSec c = sec then t
    else ({ t with mtr := { t.mtr with clipSec := SMap.put zN t.mtr.clipSec c sec } }).raise 0x0702 7 1 [(0, 1, c)]
  else s

/-- The excitation current of group g in 0.1 mA (R159), monitored while the group is enabled (DESIGN CHOICE, assumption 130). -/
def State.excitation (s : State) (g : Nat) (cur : Nat) : State :=
  if s.groupOn g then
    if cur < 5 ∨ 240 < cur then
      let t := s.setBit R.MTR_STAT_EXCFLT g true
      if (s.get R.MTR_STAT_EXCFLT).testBit g then t else t.raise 0x0701 7 1 [(0, 1, g), (1, 2, cur)]
    else s.setBit R.MTR_STAT_EXCFLT g false
  else s

/-- SAMPLE_LATCH and SAMPLE_CORRECTION (R160-R163): the 24 raw samples of the tick, corrected in the same tick.  DESIGN CHOICE (assumption
130): a raw sample that is discarded, or of a channel that is not enabled, is judged for clipping too. -/
def State.latchSamples (s : State) (raw : List Int) : State :=
  if s.mtr.started then
    let x1 := fun c => nth raw c 0 - sgn 24 (s.get (R.MTR_OFS_OFS c))
    let xs := (List.range 24).foldl (fun m c => SMap.put zI m c (s.correct x1 c)) []
    let x1m := (List.range 24).foldl (fun m c => SMap.put zI m c (x1 c)) []
    let t := { s with mtr := { s.mtr with xs := xs, x1 := x1m, x1b := s.mtr.x1, seen := s.mtr.seen + 1 } }
    (List.range 24).foldl (fun t c => t.clip c (nth raw c 0)) t
  else s

/-! ### Energy -/

/-- v × i of the tick for phase p of group g, in units of 125 pJ (R171). -/
def State.vi (s : State) (g p : Nat) : Int := s.sample (16 + s.vref g p) * s.sample (4 * g + p)

/-- The sign that INV gives a phase (R171). -/
def State.inv (s : State) (g p : Nat) : Int :=
  if (s.get (R.MTR_GCFG_INV g)).testBit p then -1 else 1

/-- The default cycle. -/
def cycle0 (_ : Nat) : Cycle := {}

/-- The sample of the tick added to the open cycle of one phase (R169). -/
def State.addToCycle (s : State) (gp : Nat × Nat) : State :=
  if s.groupOn gp.1 then
    let k := 4 * gp.1 + gp.2
    let c := SMap.get cycle0 s.mtr.cycles k
    let i := s.sample (4 * gp.1 + gp.2)
    let c' : Cycle := { e := c.e + s.vi gp.1 gp.2, i2 := c.i2 + (i * i).toNat, ticks := c.ticks + 1 }
    { s with mtr := { s.mtr with cycles := SMap.put cycle0 s.mtr.cycles k c' } }
  else s

/-- The sample of the tick added to the sums of the device second (R168). -/
def State.addToSecond (s : State) : State :=
  let a := s.mtr.sec
  let sq := (List.range 24).foldl (fun m c =>
    SMap.put zN m c (SMap.get zN m c + (s.sample c * s.sample c).toNat)) a.sq
  let pwr := groupPhases.foldl (fun m gp =>
    SMap.put zI m (4 * gp.1 + gp.2) (SMap.get zI m (4 * gp.1 + gp.2) + s.inv gp.1 gp.2 * s.vi gp.1 gp.2)) a.pwr
  let isum := groups.foldl (fun m g =>
    let i := s.sample (4 * g) + s.sample (4 * g + 1) + s.sample (4 * g + 2)
    SMap.put zN m g (SMap.get zN m g + (i * i).toNat)) a.isum
  { s with mtr := { s.mtr with sec := { n := a.n + 1, sq := sq, pwr := pwr, isum := isum } } }

/-- The samples of a valid tick taken into cycles and seconds (R161, R168, R169). -/
def State.useSamples (s : State) : State := (groupPhases.foldl State.addToCycle s).addToSecond

/-- A device second of ticks has ended: its sums wait for executor 10h (R168). -/
def State.endSecond (s : State) : State :=
  if s.now % ticksPerSec = 0 then
    { s with mtr := { s.mtr with done := (if s.mtr.sec.n = 0 then s.mtr.done else some s.mtr.sec), sec := {} } }
  else s

/-- 0.1 Wh in units of 125 pJ (R175). -/
def unitsPerTenthWh : Nat := 2880000000000

/-- 1 mWh in units of 125 pJ. -/
def unitsPerMilliWh : Nat := 28800000000

/-- The cumulative register of a phase: import with `dir` 0, export with 1 (R175). -/
def State.cum (s : State) (g p dir : Nat) : Nat :=
  if dir = 0 then s.get (R.NRG_CILO_LO g p) + 2 ^ 32 * s.get (R.NRG_CIHI_HI g p)
  else s.get (R.NRG_CELO_LO g p) + 2 ^ 32 * s.get (R.NRG_CEHI_HI g p)

/-- A cumulative register given a value modulo 2^64 (R175). -/
def State.setCum (s : State) (g p dir n : Nat) : State :=
  if dir = 0 then (s.set (R.NRG_CILO_LO g p) n).set (R.NRG_CIHI_HI g p) (n / 2 ^ 32)
  else (s.set (R.NRG_CELO_LO g p) n).set (R.NRG_CEHI_HI g p) (n / 2 ^ 32)

/-- Energy of a cycle entered into the register that its sign chooses, the remainder carried (R171, R173, R174); import on a phase of
an outlet's metering group is energy that the outlet gave (R139, R403). -/
def State.addEnergy (s : State) (g p : Nat) (e : Int) : State :=
  let dir := if e < 0 then 1 else 0
  let k := 2 * (4 * g + p) + dir
  let tot := SMap.get zN s.isl.remE k + e.natAbs
  let t := s.setCum g p dir (s.cum g p dir + tot / unitsPerTenthWh)
  let out := fun (m : SMap Nat) o =>
    if s.on (R.CHG_CTL_EN o) ∧ s.get (R.CHG_CTL_MGRP o) = g ∧ (s.get (R.CHG_CTL_PHASES o)).testBit p = true ∧ 0 < e then
      SMap.put zN m (4 * o + p) (SMap.get zN m (4 * o + p) + e.natAbs)
    else m
  { t with
    isl := { t.isl with remE := SMap.put zN t.isl.remE k (tot % unitsPerTenthWh) },
    chg := { t.chg with intE := [0, 1].foldl out t.chg.intE } }

/-- The default pulse output. -/
def pulse0 (_ : Nat) : Pulse := {}

/-- Whether pulse output k follows phase p of group g (R180). -/
def State.pulseFollows (s : State) (k g p : Nat) : Bool :=
  s.on (R.NRG_PCFG_EN k) && decide (s.get (R.NRG_PCFG_GROUP k) = g) &&
    (decide (s.get (R.NRG_PCFG_PHASE k) = 0) || decide (s.get (R.NRG_PCFG_PHASE k) = p + 1))

/-- At the close of a cycle of a followed phase a negative accumulator is set to 0 (R181). -/
def State.pulseFloor (g p : Nat) (s : State) (k : Nat) : State :=
  let u := SMap.get pulse0 s.mtr.pulses k
  if s.pulseFollows k g p ∧ u.acc < 0 then
    { s with mtr := { s.mtr with pulses := SMap.put pulse0 s.mtr.pulses k { u with acc := 0 } } }
  else s

/-- A cycle of a phase closes (R169-R171): its energy and I2T wait for the commit phase of the tick. -/
def State.closeCycle (s : State) (g p : Nat) : State :=
  let k := 4 * g + p
  let c := SMap.get cycle0 s.mtr.cycles k
  { s with mtr := { s.mtr with cycles := SMap.put cycle0 s.mtr.cycles k {}, due := s.mtr.due ++ [(g, p, s.inv g p * c.e, c.i2)] } }

/-- A closed cycle enters the island register, the interval that is current, and the pulses that follow its phase (R172, R173, R181). -/
def State.enterCycle (s : State) (d : Nat × Nat × Int × Nat) : State :=
  let k := 4 * d.1 + d.2.1
  let t := s.addEnergy d.1 d.2.1 d.2.2.1
  let t := { t with mtr := { t.mtr with i2acc := SMap.put zN t.mtr.i2acc k (SMap.get zN t.mtr.i2acc k + d.2.2.2) } }
  [0, 1, 2, 3].foldl (State.pulseFloor d.1 d.2.1) t

/-- The cycles that closed in the tick enter their registers in its commit phase (R173). -/
def State.enterCycles (s : State) : State :=
  let t := s.mtr.due.foldl State.enterCycle s
  { t with mtr := { t.mtr with due := [] } }

/-- Every open cycle closes as a partial cycle (R176). -/
def State.closePartial (s : State) : State :=
  groupPhases.foldl (fun s gp => if s.groupOn gp.1 then s.closeCycle gp.1 gp.2 else s) s

/-- METERING_VALID (R161): the first three samples after a start are discarded; the fourth is the first valid one. -/
def execMeteringValid (s : State) : Out :=
  .next (s.run (fun s =>
    if s.mtr.started ∧ 4 ≤ s.mtr.seen ∧ s.on R.MTR_STAT_VALID = false then
      (s.set R.MTR_STAT_VALID 1).useSamples
    else s))

/-- The temperatures of the die and of the board taken, and the factor of each group computed (R164).  DESIGN CHOICE (assumption 130):
before the first reading of the board sensor, in the first 80,000 ticks, the die sensor is used and TFALL stays 0. -/
def State.temperatureRead (s : State) (die : Int) (board : Option Int) : State :=
  let m := match board with
    | some b => { s.mtr with board := b, boardAt := some s.now }
    | none => s.mtr
  let boardOk := match m.boardAt with
    | some a => decide (s.now < a + 80000)
    | none => false
  let fall := match m.boardAt with
    | some a => decide (a + 80000 ≤ s.now)
    | none => decide (80000 ≤ s.now)
  let temp := fun g => if s.on (R.MTR_GCFG_TSRC g) ∧ boardOk = true then m.board else die
  let fac := groups.foldl (fun f g =>
    let dt := temp g - sgn 16 (s.get (R.MTR_TPA_T0 g))
    SMap.put zI f g (sgn 16 (s.get (R.MTR_TPA_A1 g)) * dt * 100 + sgn 16 (s.get (R.MTR_TPB_A2 g)) * dt * dt)) []
  let uses := decide (s.on (R.MTR_GCFG_TSRC 0) = true ∧ boardOk = true)
  let wants := groups.any (fun g => s.on (R.MTR_GCFG_TSRC g))
  ((({ s with mtr := { m with fac := fac } }).set R.MTR_TEMP_TEMP (unsgn 16 (temp 0))).set R.MTR_TEMP_SRC (b2n uses)).set
    R.MTR_STAT_TFALL (b2n (wants && fall))

/-- TEMPERATURE_FACTOR_UPDATE (R164): task 01h reads the die sensor and, when it answers, the first board sensor, in 0.1 °C,
and computes the factor of each group. -/
def execTemperatureFactorUpdate (die : Int) (board : Option Int) (s : State) : Out :=
  .next (s.run (fun s =>
    s.temperatureRead die board))

/-! ### Per-second values -/

/-- The whole number next to the square root of a / n, where no rounding is stated. -/
def rmsOpen (a n : Nat) : Nat :=
  let r := isqrt (a / n)
  if r * r * n = a then r else if Config.roundsUp a n then r + 1 else r

/-- The neutral condition of a second (R183).  DESIGN CHOICE (assumption 106): with a mean of 0 the asymmetry, a division by zero, does
not hold. -/
def State.neutralMet (s : State) (a : SecSums) (g : Nat) : Bool :=
  let isum := rmsOpen (SMap.get zN a.isum g) a.n
  let inn := s.get (R.MTR_IRMS_IRMS g 3)
  let vs := [0, 1, 2].map (fun p => s.get (R.MTR_VRMS_VRMS (s.vref g p)))
  let hi := vs.foldl max 0
  let lo := vs.foldl min (nth vs 0 0)
  let sum := vs.foldl (· + ·) 0
  let asym := decide (s.get R.MTR_NTHR_ASYMMIN * sum ≤ (hi - lo) * 3000) && decide (0 < sum)
  let v7 := (s.get R.MTR_CTL_VEN).testBit 7 && decide (s.get R.MTR_NTHR_VNEMIN * 10 ≤ s.get (R.MTR_VRMS_VRMS 7))
  if s.on (R.MTR_GCFG_NEN g) then
    decide (s.get R.MTR_NTHR2_ISUMMIN * 100 ≤ isum) && decide (inn * 100 ≤ s.get R.MTR_NTHR2_INRATIO * isum) && (v7 || asym)
  else v7 && asym

/-- The asymmetry in the event data, per mille (R183): the quotient next below or above, which the manual does not say; with a mean of
0 an open value (assumption 106). -/
def State.asymmetry (s : State) (g : Nat) : Nat × State :=
  let vs := [0, 1, 2].map (fun p => s.get (R.MTR_VRMS_VRMS (s.vref g p)))
  let sum : Nat := vs.foldl (fun m v => m + v) 0
  if sum = 0 then (s.draw.1.toNat % 65536, s.draw.2)
  else ((divOpen (((vs.foldl max 0 - vs.foldl min (nth vs 0 0)) * 3000 : Nat) : Int) sum).toNat, s)

/-- NEUTRAL_JUDGEMENT (R183) of one group. -/
def State.judgeNeutral (a : SecSums) (s : State) (g : Nat) : State :=
  if s.groupOn g then
    let met := s.neutralMet a g
    let r := SMap.get (fun _ => (false, 0)) s.mtr.neutRun g
    let n := if r.1 = met then r.2 + 1 else 1
    let t := { s with mtr := { s.mtr with neutRun := SMap.put (fun _ => (false, 0)) s.mtr.neutRun g (met, n) } }
    let have1 := (s.get R.MTR_EVSTAT_NEUTMISS).testBit g
    if s.get R.MTR_EVCFG_NEUTN ≤ n then
      if met = true ∧ have1 = false then
        let a := t.asymmetry g
        (a.2.setBit R.MTR_EVSTAT_NEUTMISS g true).raise 0x0705 7 2
          [(0, 1, g), (1, 4, s.get (R.MTR_VRMS_VRMS 7)), (5, 2, a.1)]
      else if met = false ∧ have1 = true then
        (t.setBit R.MTR_EVSTAT_NEUTMISS g false).raise 0x0706 7 0 [(0, 1, g)]
      else t
    else t
  else s

/-- The values of a device second of sums `a`, then the neutral judgement (R168, R183).  DESIGN CHOICE (assumption 107): an rms wider than
its field keeps its low bits, since R188 gives these fields no saturation. -/
def State.putSecond (s : State) (a : SecSums) : State :=
  let t := groups.foldl (fun t g => if s.groupOn g then
      [0, 1, 2, 3].foldl (fun t r => t.set (R.MTR_IRMS_IRMS g r) (rmsOpen (SMap.get zN a.sq (4 * g + r)) a.n)) t
    else t) s
  let t := (List.range 8).foldl (fun t v => if (s.get R.MTR_CTL_VEN).testBit v then
      t.set (R.MTR_VRMS_VRMS v) (rmsOpen (SMap.get zN a.sq (16 + v)) (100 * a.n)) else t) t
  let t := groupPhases.foldl (fun t gp => if s.groupOn gp.1 then
      t.set (R.MTR_P_P gp.1 gp.2) (unsgn 32 (divOpen (SMap.get zI a.pwr (4 * gp.1 + gp.2)) (1000000 * a.n)))
    else t) t
  let t := groups.foldl (State.judgeNeutral a) t
  { t with mtr := { t.mtr with done := none }, chgSecond := some (t.now, true) }

/-- PER_SECOND_VALUES (R168): the values of the last device second, then the neutral judgement of R183; a second without a sample has no
value (R397). -/
def execPerSecondValues (s : State) : Out :=
  .next (s.run (fun s =>
    match s.mtr.done with
    | none => s
    | some a =>
      if a.n = 0 then { s with mtr := { s.mtr with done := none }, chgSecond := some (s.now, false) }
      else
        s.putSecond a))

/-! ### Pseudo-cycles and phase sequence -/

/-- PHASE_SEQUENCE_CHECK (R182): the class of an L1 cycle from `t0` to `t1`, the crossings of L2 and L3 given. -/
def seqClass (t0 t1 : Int) (x2 x3 : Option Int) : Nat :=
  let pos := fun (x : Option Int) (num : Int) => match x with
    | none => false
    | some z => decide (t0 < z ∧ z ≤ t1) && decide ((num - 1) * (t1 - t0) ≤ 12 * (z - t0)) &&
        decide (12 * (z - t0) ≤ (num + 1) * (t1 - t0))
  if pos x2 4 && pos x3 8 then 0 else if pos x2 8 && pos x3 4 then 1 else 2

/-- One classed cycle counted; after SEQN of a kind SEQERR sets or clears (R182). -/
def State.countSequence (s : State) (g cls : Nat) : State :=
  let r := SMap.get (fun _ => (0, 0)) s.mtr.seqRun g
  let bad := decide (cls ≠ 0)
  let n := if decide (r.1 ≠ 0) = bad then r.2 + 1 else 1
  let t := { s with mtr := { s.mtr with seqRun := SMap.put (fun _ => (0, 0)) s.mtr.seqRun g (cls, n) } }
  let have1 := (s.get R.MTR_EVSTAT_SEQERR).testBit g
  if s.get R.MTR_EVCFG_SEQN ≤ n then
    if bad = true ∧ have1 = false then
      (t.setBit R.MTR_EVSTAT_SEQERR g true).raise 0x0703 7 1 [(0, 1, g), (1, 1, cls)]
    else if bad = false ∧ have1 = true then
      (t.setBit R.MTR_EVSTAT_SEQERR g false).raise 0x0704 7 0 [(0, 1, g)]
    else t
  else t

/-- PSEUDO_CYCLE (R170): without lock a cycle closes in its 160th tick, with lock in its 200th. -/
def execPseudoCycle (g : Fin 4) (p : Fin 3) (s : State) : Out :=
  .next (s.run (fun s =>
    let c := SMap.get cycle0 s.mtr.cycles (4 * g + p)
    let lim := if s.on (R.ZCX_STAT_LOCK (s.vref g p)) then 200 else 160
    if s.groupOn g ∧ s.on R.MTR_STAT_VALID ∧ lim ≤ c.ticks then
      let t := s.closeCycle g p
      if p.val = 0 then t.countSequence g 2 else t
    else s))

/-! ### Saves and the restored base -/

/-- The cumulative registers and their remainders, as a save or snapshot holds them (R177, R506). -/
def State.energyImage (s : State) : List (Nat × Nat) :=
  groupPhases.flatMap (fun gp => [0, 1].map (fun d =>
    (s.cum gp.1 gp.2 d, SMap.get zN s.isl.remE (2 * (4 * gp.1 + gp.2) + d))))

/-- The value written for a register of the restore (NRG_A registers, R178). -/
def State.addValue (s : State) (g p dir : Nat) : Nat :=
  if dir = 0 then s.get (R.NRG_AILO_ADDV g p) + 2 ^ 32 * s.get (R.NRG_AIHI_ADDV g p)
  else s.get (R.NRG_AELO_ADDV g p) + 2 ^ 32 * s.get (R.NRG_AEHI_ADDV g p)

/-- The base of one register added to it and to its interval-start value (R178). -/
def State.addBase (s : State) (e : (Nat × Nat) × Nat) : State :=
  let g := e.1.1
  let p := e.1.2
  let d := e.2
  let v := s.addValue g p d
  let k := 2 * (4 * g + p) + d
  let t := s.setCum g p d (s.cum g p d + v)
  { t with mtr := { t.mtr with base := SMap.put zN t.mtr.base k ((SMap.get zN t.mtr.base k + v) % 2 ^ 64) } }

/-- The addition of the base (R178): once; a second one is counted as an RWL violation. -/
def State.baseAdd (s : State) (p : Path) : State :=
  if s.on R.NRG_STAT_BASED then s.refuse .lock p R.NRG_CTL
  else
    (groupPhases.flatMap (fun gp => [(gp, 0), (gp, 1)])).foldl State.addBase (s.set R.NRG_STAT_BASED 1)

/-! ### Pulses -/

/-- The delay of PRT_PJIT for the next pulse of output k: a pseudorandom 0 to J ticks (R522). -/
def State.jitter (s : State) (k : Nat) : Nat × State :=
  let j := s.get ⟨R.PRT_PJIT, 4 * k, 4⟩
  if j = 0 then (0, s)
  else
    let r := s.draw
    (r.1.toNat % (j + 1), r.2)

/-- PULSE_ACCUMULATE (R181) of output k in the commit phase: the tick's energy is added, and a pulse falls due at K. -/
def State.pulseTick (s : State) (k : Nat) : State :=
  if s.on (R.NRG_PCFG_EN k) ∧ s.on R.MTR_STAT_VALID then
    let g := s.get (R.NRG_PCFG_GROUP k)
    let e := [0, 1, 2].foldl (fun a p => if s.pulseFollows k g p then a + s.inv g p * s.vi g p else a) (0 : Int)
    let u := SMap.get pulse0 s.mtr.pulses k
    let acc := u.acc + (if s.on (R.NRG_PCFG_DIR k) then -e else e)
    let kk : Int := s.get (R.NRG_PK_K k) * unitsPerMilliWh
    let putP := fun (t : State) (u : Pulse) =>
      { t with mtr := { t.mtr with pulses := SMap.put pulse0 t.mtr.pulses k u } }
    if kk ≤ acc then
      let free := match u.start with
        | none => true
        | some a => decide (a + 2 * s.get (R.NRG_PCFG_WIDTH k) ≤ s.now + 1)
      if free = true ∧ u.ready = false ∧ s.get (R.NRG_PSTAT_BACKLOG k) = 0 then
        let j := s.jitter k
        putP j.2 { u with acc := acc - kk, ready := true, hold := s.now + 1 + j.1 }
      else if s.get (R.NRG_PSTAT_BACKLOG k) < 255 then
        putP (s.set (R.NRG_PSTAT_BACKLOG k) (s.get (R.NRG_PSTAT_BACKLOG k) + 1)) { u with acc := acc - kk }
      else putP (s.bump (R.NRG_PSTAT_OVER k)) { u with acc := acc - kk }
    else putP s { u with acc := acc }
  else s

/-- The level that a pulse output takes at cycle 0 of the next tick (R37, R181). -/
def State.pulsePin (s : State) (k : Nat) (active : Bool) : State :=
  s.drive (.pin ("PULSE" ++ toString k))
    [BitVec.ofNat 8 (if active then s.get (R.NRG_PCFG_POL k) else 1 - s.get (R.NRG_PCFG_POL k))]

/-- A due pulse starts, or one of the backlog (R181, R522). -/
def State.startPulse (s : State) (k : Nat) : State :=
  let u := SMap.get pulse0 s.mtr.pulses k
  let b := s.get (R.NRG_PSTAT_BACKLOG k)
  let j := s.jitter k
  let t := if u.ready then j.2 else j.2.set (R.NRG_PSTAT_BACKLOG k) (b - 1)
  let u' := { u with
    ready := false, start := some (s.now + 1), active := true, hold := s.now + 1 + 2 * s.get (R.NRG_PCFG_WIDTH k) + j.1 }
  ({ t with mtr := { t.mtr with pulses := SMap.put pulse0 t.mtr.pulses k u' } }).pulsePin k true

/-- PULSE_START (R37, R181, R522): in a commit phase, for cycle 0 of the next tick: a due pulse starts once WIDTH ticks at the inactive level
have followed the previous one. -/
def execPulseStart (k : Fin 4) (s : State) : Out :=
  .next (s.inCommit (fun s =>
    let u := SMap.get pulse0 s.mtr.pulses k
    let free := match u.start with
      | none => true
      | some a => decide (a + 2 * s.get (R.NRG_PCFG_WIDTH k) ≤ s.now + 1)
    let b := s.get (R.NRG_PSTAT_BACKLOG k)
    if free = true ∧ u.active = false ∧ u.hold ≤ s.now + 1 ∧ (u.ready = true ∨ 0 < b) then
      s.startPulse k
    else s))

/-- PULSE_END (R37, R181): after WIDTH ticks the output returns to its inactive level, at cycle 0 of the next tick. -/
def execPulseEnd (k : Fin 4) (s : State) : Out :=
  .next (s.inCommit (fun s =>
    let u := SMap.get pulse0 s.mtr.pulses k
    match u.start with
    | none => s
    | some a =>
      if u.active = true ∧ a + s.get (R.NRG_PCFG_WIDTH k) ≤ s.now + 1 then
        ({ s with mtr := { s.mtr with pulses := SMap.put pulse0 s.mtr.pulses k { u with active := false } } }).pulsePin k false
      else s))

/-! ### Delivery to the balance -/

/-- Interval-start values taken from the cumulative registers as they stand, I2T from 0 (R146, R173). -/
def State.startIntervalValues (s : State) : State :=
  groupPhases.foldl (fun s gp => [0, 1].foldl (fun (s : State) d =>
    { s with mtr := { s.mtr with
      base := SMap.put zN s.mtr.base (2 * (4 * gp.1 + gp.2) + d) (s.cum gp.1 gp.2 d)
      i2acc := SMap.put zN s.mtr.i2acc (4 * gp.1 + gp.2) 0 } }) s) s

/-- 1 A²·s in mA² ticks (R173). -/
def i2Unit : Nat := 8000000000

/-- FEEDER_DELIVERY (R138, R173) for one phase: F_imp, F_exp and I2T of the interval that ends, and their mirrors. -/
def State.feederOf (s : State) (g p : Nat) : Nat × Nat × Nat :=
  let k := 4 * g + p
  let d := fun dir => (s.cum g p dir + 2 ^ 64 - SMap.get zN s.mtr.base (2 * k + dir)) % 2 ^ 64
  (d 0, d 1, SMap.get zN s.mtr.i2acc k / i2Unit)

/-- The mirrors NRG_FI, NRG_FE and NRG_I2T of the delivered values, and the start of the next interval (R173). -/
def State.deliverFeeder (s : State) (n : Nat) : State :=
  groupPhases.foldl (fun s gp =>
    let f := s.feederOf gp.1 gp.2
    let k := 4 * gp.1 + gp.2
    let t := (((s.set (R.NRG_FI_F gp.1 gp.2) f.1).set (R.NRG_FE_F gp.1 gp.2) f.2.1).set (R.NRG_I2T_I2T gp.1 gp.2)
      (min f.2.2 0xFFFFFFFF))
    { t with mtr := { t.mtr with
      base := SMap.put zN (SMap.put zN t.mtr.base (2 * k) (s.cum gp.1 gp.2 0)) (2 * k + 1) (s.cum gp.1 gp.2 1)
      i2acc := SMap.put zN t.mtr.i2acc k (SMap.get zN s.mtr.i2acc k % i2Unit) } })
    (s.set R.NRG_LASTINT_INT n)

/-! ### Sillage watch -/

/-- Sillage watch runs: on battery, enabled, and the island alive (R184). -/
def State.sillageOn (s : State) : Bool := s.isl.battery && !s.isl.dead && s.on R.SIL_CTL_EN

/-- The mAh that a block's sums add to a register with remainder `r`: 1.1107 × mean × 0.8 s (R186). -/
def sillageUnit : Nat := 46080000000

/-- One counting block added to the registers (R186).  DESIGN CHOICE (assumption 130): SIL_TOTAL has a remainder of its own, over the three
phases and across periods. -/
def State.sillageAdd (s : State) (sums : List Nat) : State :=
  let one := fun (s : State) p =>
    let n := nth s.isl.sil.rem p 0 + 11107 * nth sums p 0 * 8
    let t := s.set (R.SIL_AH_AH p) (satAdd 32 (s.get (R.SIL_AH_AH p)) (n / sillageUnit))
    { t with isl := { t.isl with sil := { t.isl.sil with rem := setNth t.isl.sil.rem p (n % sillageUnit) } } }
  let t := [0, 1, 2].foldl one s
  let n := t.isl.sil.remT + 11107 * (nth sums 0 0 + nth sums 1 0 + nth sums 2 0) * 8
  let t := t.set R.SIL_TOTAL_TOTAL (satAdd 32 (t.get R.SIL_TOTAL_TOTAL) (n / sillageUnit))
  { t with isl := { t.isl with sil := { t.isl.sil with remT := n % sillageUnit } } }

/-- The next block of a battery period starts. -/
def State.nextBlock (s : State) : State :=
  let t := s.set R.SIL_STAT_BLOCKS (satAdd 16 (s.get R.SIL_STAT_BLOCKS) 1)
  { t with isl := { t.isl with sil := { t.isl.sil with sums := [0, 0, 0], window := 0 } } }

/-- Counting blocks in a row that have not yet raised the condition (R186). -/
def State.putBlocks (s : State) (run : List (List Nat)) : State := { s with isl := { s.isl with sil := { s.isl.sil with run := run } } }

/-- The estimates of a block, and the condition of R186.  DESIGN CHOICE (assumption 130): a block with suspended windows is a block like any
other. -/
def State.closeSillage (s : State) : State :=
  let sums := s.isl.sil.sums
  let counts := sums.any (fun n => decide (s.get R.SIL_CTL_THR * 100 * 1280000 ≤ 11107 * n))
  let t := s.nextBlock
  if s.on R.SIL_STAT_LFWV then (if counts then t.sillageAdd sums else t)
  else if counts then
    let run := s.isl.sil.run ++ [sums]
    if s.get R.SIL_CTL_CONF ≤ run.length then (run.foldl State.sillageAdd (t.set R.SIL_STAT_LFWV 1)).putBlocks []
    else t.putBlocks run
  else t.putBlocks []

/-- The next window of the battery period (R185): window k belongs to block k div 16, whether or not it runs.  Its sums of |i| are added
to those of its block; a block that is over closes first. -/
def State.sillageWindow (s : State) (sums : List Nat) : State :=
  let t := if s.isl.sil.window = 16 then s.closeSillage else s
  { t with isl := { t.isl with sil := { t.isl.sil with
    window := t.isl.sil.window + 1, sums := List.zipWith (· + ·) t.isl.sil.sums sums } } }

/-- SILLAGE_WINDOW (R185): one window's 8 samples of each phase, in mA.  Below 2.9 V of VBAT no window runs, and what its samples would
have added to the mean of R186 is open (DESIGN CHOICE, assumption 105). -/
def execSillageWindow (samples : List (List Int)) (s : State) : Out :=
  .next (
    if s.sillageOn then
      if s.get R.BAT_STAT_VBAT < 2900 then
        let d := (s.set R.SIL_STAT_SUSP 1).draw
        d.2.sillageWindow ([0, 1, 2].map (fun p => d.1.toNat / 2 ^ (32 * p) % 2 ^ 26))
      else s.sillageWindow ([0, 1, 2].map (fun p => ((nth samples p []).take 8).foldl (fun a i => a + i.natAbs) 0))
    else s)

/-- SILLAGE_BLOCK_END (R186): after 16 windows the estimates are formed and the condition is judged. -/
def execSillageBlockEnd (s : State) : Out :=
  .next (
    if s.sillageOn ∧ s.isl.sil.window = 16 then
      s.closeSillage
    else s)

/-- BATTERY_PERIOD_START (R187): the values of the period clear. -/
def State.sillageStart (s : State) : State :=
  let t := [0, 1, 2].foldl (fun t p => t.set (R.SIL_AH_AH p) 0) s
  let t := ((t.set R.SIL_STAT_LFWV 0).set R.SIL_STAT_SUSP 0).set R.SIL_STAT_BLOCKS 0
  { t with isl := { t.isl with sil := { t.isl.sil with window := 0, sums := [0, 0, 0], run := [], rem := [0, 0, 0] } } }

end Sys2Proof.Machine
end

