-- ==== Sys2Proof/Machine/Balance.lean ====
section
/-!
DEFINITION. The balance engine (R134-R156): interval numbers, counting of readings, closing arithmetic, reports.
-/
namespace Sys2Proof.Machine

/-! ### Interval numbers -/

/-- 1 s in units of 2^-49 ns. -/
def secUnits : Nat := 1000000000 * 2 ^ 49

/-- ORIGIN in device seconds (R134). -/
def State.origin (s : State) : Nat := s.get R.BAL_ORGLO_ORGLO + 2 ^ 32 * s.get R.BAL_ORGHI_ORGHI

/-- The length of an interval in seconds (R134). -/
def State.intSecs (s : State) : Nat := 60 * s.get R.BAL_CTL_INTLEN

/-- The interval number that holds a device time at or after ORIGIN (R134). -/
def State.intervalAt (s : State) (t : Nat) : Nat := (t / secUnits - s.origin) / s.intSecs % 2 ^ 32

/-- A device time at or after ORIGIN (R136). -/
def State.afterOrigin (s : State) (t : Nat) : Bool := decide (s.origin * secUnits ≤ t)

/-- The current interval number (R135). -/
def State.curInt (s : State) : Nat := s.get R.BAL_CUR_CUR

/-- The group is balanced (R137). -/
def State.balanced (s : State) (g : Nat) : Bool := (s.get R.BAL_CTL_GEN).testBit g

/-! ### Columns -/

/-- The default column. -/
def col0 (_ : Nat) : BCol := {}

/-- Column c of group g of an interval. -/
def Intv.col (i : Intv) (g c : Nat) : BCol := SMap.get col0 i.cols (4 * g + c)

/-- A column replaced. -/
def Intv.setCol (i : Intv) (g c : Nat) (b : BCol) : Intv := { i with cols := SMap.put col0 i.cols (4 * g + c) b }

/-- A change made in a column and in SUM (R141, R143). -/
def Intv.both (i : Intv) (g c : Nat) (f : BCol → BCol) : Intv :=
  let i' := if c = 3 then i else i.setCol g c (f (i.col g c))
  i'.setCol g 3 (f (i'.col g 3))

/-- A 32-bit saturating sum and whether it saturated (R149). -/
def sum32 (a n : Nat) : Nat × Bool := (min (a + n) 0xFFFFFFFF, decide (0xFFFFFFFF < a + n))

/-- Import and export added to a column's meter sums (R141, R149). -/
def BCol.addM (b : BCol) (imp exp : Nat) : BCol :=
  let x := sum32 b.mImp imp
  let y := sum32 b.mExp exp
  { b with mImp := x.1, mExp := y.1, sat := b.sat || x.2 || y.2 }

/-- Feeder energies placed in a column (R138, R149). -/
def BCol.addF (b : BCol) (imp exp : Nat) : BCol :=
  let x := sum32 b.fImp imp
  let y := sum32 b.fExp exp
  { b with fImp := x.1, fExp := y.1, sat := b.sat || x.2 || y.2 }

/-- I2T placed in a phase column; SUM has none (R137, R147, R149). -/
def BCol.addI (b : BCol) (i2t : Nat) : BCol :=
  let z := sum32 b.i2t i2t
  { b with i2t := z.1, sat := b.sat || z.2 }

/-- The feeder values of phase p of group g entered: energies in its column and in SUM, I2T in its column (R137, R138). -/
def Intv.addFeeder (i : Intv) (g p : Nat) (f : Nat × Nat × Nat) : Intv :=
  let i' := i.both g p (fun b => b.addF f.1 f.2.1)
  i'.setCol g p ((i'.col g p).addI f.2.2)

/-- The open interval n replaced by its image under `f`. -/
def State.onInt (s : State) (n : Nat) (f : Intv → Intv) : State :=
  { s with bal := { s.bal with ivs := s.bal.ivs.map (fun i => if i.n = n then f i else i) } }

/-- Whether interval n is open (R144). -/
def State.isOpen (s : State) (n : Nat) : Bool := s.bal.ivs.any (fun i => decide (i.n = n))

/-- The column of a PHASE code: 00b three-phase in SUM only, 01b to 11b L1 to L3 (R104, R137). -/
def phaseCol (phase : Nat) : Nat := if phase = 0 then 3 else phase - 1

/-! ### Assigned meters -/

/-- A of column c of group g changed by one entry (R140). -/
def State.asgBump (s : State) (g c : Nat) (up : Bool) : State :=
  let n := s.get (R.BAL_ASG_COUNT g c)
  s.set (R.BAL_ASG_COUNT g c) (if up then n + 1 else n - 1)

/-- BALANCE_COUNT_UPDATE (R140): an entry with this METER, status and assignment enters or leaves the counts. -/
def State.asgEntry (s : State) (meter status asg : Nat) (up : Bool) : State :=
  if meter ≠ 0 ∧ status = 0 ∧ asg.testBit 5 = true then
    let g := asg % 4
    let c := phaseCol (asg / 4 % 4)
    let t := if c = 3 then s else s.asgBump g c up
    t.asgBump g 3 up
  else s

/-- The coverage bit of an entry index in the place of interval n (R142). -/
def State.covered (s : State) (n idx : Nat) : Bool := SMap.get zB s.bal.cover (65536 * (n % 8) + idx)

/-- A coverage bit given a value (R142). -/
def State.setCover (s : State) (n idx : Nat) (b : Bool) : State :=
  { s with bal := { s.bal with cover := SMap.put zB s.bal.cover (65536 * (n % 8) + idx) b } }

/-- REMOVE and DIRFIX clear the bits of an entry in every place (R142). -/
def State.clearCover (s : State) (idx : Nat) : State :=
  { s with bal := { s.bal with cover := SMap.keep (fun k => decide (k % 65536 ≠ idx)) s.bal.cover } }

/-! ### Counting -/

/-- READING_COUNT (R141) and the CONSEXP count of R143 for an ACCEPT of type 01h with INBAL. -/
def State.countReading (s : State) (r : Rec) (g phase idx : Nat) (cons : Bool) : State :=
  let n := recAt r 12 4
  let c := phaseCol phase
  if s.on R.BAL_STAT_RUN = false then s.bump R.BAL_STAT_DROP
  else if s.balanced g = false then s
  else if s.curInt < n then s.bump (R.BAL_CNT_EARLY g)
  else if s.isOpen n = false then s.bump (R.BAL_CNT_LATE g)
  else if recAt r 44 2 ≠ s.get R.BAL_CTL_INTLEN then
    s.onInt n (fun i => i.both g c (fun b => { b with mismatch := satAdd 16 b.mismatch 1 }))
  else if s.covered n idx then
    s.onInt n (fun i => i.both g c (fun b => { b with rept := satAdd 16 b.rept 1 }))
  else
    let exp := recAt r 20 4
    let t := (s.onInt n (fun i => i.both g c (fun b => { b.addM (recAt r 16 4) exp with cov := b.cov + 1 }))).setCover n idx true
    if cons ∧ (s.get (R.BAL_EXP_EXPMIN g) < exp ∨ (recAt r 46 1).testBit 2 = true) then
      (t.onInt n (fun i => i.both g c (fun b => { b with consexp := satAdd 16 b.consexp 1 }))).raise 0x0602 6 1
        [(0, 4, n), (4, 2, idx), (6, 4, exp)]
    else t

/-- The TAMPER count of R143 for an ACCEPT with INBAL. -/
def State.countTamper (s : State) (r : Rec) (g phase : Nat) : State :=
  let n := recAt r 12 4
  let ty := recAt r 0 1
  let hit := decide ((ty = 1 ∨ ty = 2) ∧ (recAt r 2 2).testBit 1 = true) ||
    decide (ty = 2 ∧ 1 ≤ recAt r 16 2 ∧ recAt r 16 2 ≤ 4)
  if hit = true ∧ s.on R.BAL_STAT_RUN = true ∧ s.balanced g = true ∧ s.isOpen n = true then
    s.onInt n (fun i => i.both g (phaseCol phase) (fun b => { b with tamper := satAdd 16 b.tamper 1 }))
  else s

/-! ### Opening -/

/-- FEEDER_DELIVERY (R138) and OUTLET_ENERGY_DELIVERY (R139) of interval n at the boundary that ends it. -/
def State.deliverInterval (s : State) (n : Nat) : State :=
  let t := groupPhases.foldl (fun t gp =>
    if s.balanced gp.1 then
      t.onInt n (fun i => i.addFeeder gp.1 gp.2 (s.feederOf gp.1 gp.2))
    else t) s
  let t := [0, 1].foldl (fun t o =>
    if s.on (R.BAL_OUT_EN o) then
      [0, 1, 2].foldl (fun t p =>
        let e := SMap.get zN s.chg.intE (4 * o + p) / unitsPerTenthWh
        t.onInt n (fun i => { i.both (s.get (R.BAL_OUT_GROUP o)) p (fun b => b.addM e 0) with
          charge := i.charge || decide (e ≠ 0) })) t
    else t) t
  let left := (List.range 8).foldl (fun m k => SMap.put zN m k (SMap.get zN s.chg.intE k % unitsPerTenthWh)) []
  let t := ({ t with chg := { t.chg with intE := left } }).deliverFeeder n
  t.onInt n (fun i => { i with t1 := some t.now })

/-- The places of R142 cleared for interval n, and the interval entered (R144). -/
def State.enterInt (s : State) (n : Nat) (broken : Bool) (t0 : Nat) : State :=
  let i : Intv := { n := n, broken := broken, stepped := s.bal.marks.contains n, t0 := t0 }
  { s with bal := { s.bal with ivs := s.bal.ivs ++ [i], last := some n, marks := s.bal.marks.erase n,
                               cover := SMap.keep (fun k => decide (k / 65536 ≠ n % 8)) s.bal.cover } }

/-- INTERVAL_NUMBER_UPDATE (R135): the number of the interval that holds the tick's start; never a smaller one.  While RUN is 0
after a restart that kept the numbering, the front end and the charging controller pass its boundaries alone: what they deliver for the
interval that ends finds no open interval, and the next one starts complete (R138, R139, R146, R173). -/
def State.numberUpdate (s : State) : State :=
  if s.afterOrigin s.tim.start then
    let n := s.intervalAt s.tim.start
    if s.on R.BAL_STAT_RUN then
      (if s.curInt < n then { s.set R.BAL_CUR_CUR n with bal := { s.bal with bound := some s.now } } else s)
    else if s.bal.kept ∧ s.mtr.baseN < n then
      let t := s.deliverInterval s.mtr.baseN
      { t with mtr := { t.mtr with baseN := n, baseT := t.now } }
    else s
  else s

/-- INTERVAL_OPEN (R138, R139, R144): at B(n) interval n opens; the interval before it receives its feeder values. -/
def execIntervalOpen (s : State) : Out :=
  .next (s.run (fun s =>
    if s.on R.BAL_STAT_RUN then
      match s.bal.last with
      | none => s
      | some m =>
        if m < s.curInt then
          let t := s.deliverInterval m
          let t : State := { t with mtr := { t.mtr with baseN := s.curInt, baseT := s.now } }
          t.enterInt s.curInt false s.now
        else s
    else s))

/-- The run starts in the interval then current, which opens BROKEN (R136, R146). -/
def State.startRun (s : State) : State :=
  let n := s.intervalAt s.tim.start
  let t := (s.set R.BAL_STAT_RUN 1).set R.BAL_CUR_CUR n
  if s.bal.kept then
    t.enterInt n true s.mtr.baseT
  else
    let t := t.startIntervalValues
    ({ t with mtr := { t.mtr with baseN := n, baseT := t.now }, chg := { t.chg with intE := [] } }).enterInt n true t.now

/-- BALANCE_RUN_START (R136, R146): the interval that is then current opens BROKEN. -/
def execBalanceRunStart (s : State) : Out :=
  .next (s.run (fun s =>
    if s.on R.BAL_STAT_RUN = false ∧ s.on R.TIM_STAT_VALID = true ∧ s.afterOrigin s.tim.start = true then
      s.startRun
    else s))

/-! ### Reports -/

/-- BAL_RPTSTAT.COUNT and BAL_RPTw brought up to the report queue (R154). -/
def State.syncReports (s : State) : State :=
  let r := s.bal.reports.headD []
  (List.range 52).foldl (fun t w => t.set (R.BAL_RPT_DATA w) (leAt r (4 * w) 4))
    (s.set R.BAL_RPTSTAT_COUNT s.bal.reports.length)

/-- A report entered, or discarded when the queue is full (R154). -/
def State.enterReport (s : State) (r : List Byte) : State :=
  if 16 ≤ s.bal.reports.length then s.bump R.BAL_RPTSTAT_LOST
  else ({ s with bal := { s.bal with reports := s.bal.reports ++ [r] } }).syncReports

/-- The header of a report (R153). -/
def reportHead (n span g flags sil t : Nat) : List Byte :=
  leBytes 4 n ++ leBytes 4 span ++ leBytes 1 g ++ leBytes 1 flags ++ leBytes 2 sil ++ leBytes 4 t

/-- GAP_REPORT (R135, R154): intervals `first` to `first + span - 1` were never opened. -/
def State.gapReports (s : State) (first span : Nat) : State :=
  groups.foldl (fun t g => if s.balanced g then t.enterReport (reportHead first span g 4 0 0 ++ List.replicate 192 0#8) else t) s

/-- Technical loss of a phase column (R147). -/
def State.techLoss (s : State) (g p i2t t : Nat) : Nat :=
  s.get (R.BAL_KCU_KCU g p) * i2t / 360000000 + s.get (R.BAL_KFIX_KFIX g p) * t / 2880000000

/-- A signed value held to 32 bits and whether it saturated (R149). -/
def hold32s (i : Int) : Int × Bool := (hold32 i, decide (hold32 i ≠ i))

/-- What the close of an interval computes for one column (R147-R151). -/
structure Closed where
  l      : Nat
  uImp   : Int
  uExp   : Int
  a      : Nat
  pm     : Nat
  flags  : Nat
  loss   : Bool
  export1 : Bool
  deriving DecidableEq, Repr

/-- U_imp and U_exp of a column (R148). -/
def unaccounted (fImp fExp mImp mExp l : Nat) : Int × Int :=
  ((fImp : Int) + max 0 ((mExp : Int) - fExp) - mImp - l, (fExp : Int) - mExp)

/-- The close of column c of group g (R147-R151). -/
def State.closeCol (s : State) (i : Intv) (g c : Nat) : Closed :=
  let t := i.t1.getD s.now - i.t0
  let b := i.col g c
  let ls := [0, 1, 2].map (fun p => s.techLoss g p (i.col g p).i2t t)
  let l0 := if c = 3 then ls.foldl (· + ·) 0 else nth ls c 0
  let l := sum32 0 l0
  let u := unaccounted b.fImp b.fExp b.mImp b.mExp l.1
  let ui := hold32s u.1
  let ue := hold32s u.2
  let a := s.get (R.BAL_ASG_COUNT g c)
  let sum := [0, 1, 2].foldl (fun n p => n + s.get (R.BAL_ASG_COUNT g p)) 0
  let three := decide (s.get (R.BAL_ASG_COUNT g 3) ≠ sum)
  let pm := if a = 0 then 0 else min 1000 (1000 * b.cov / a)
  let evald := decide (a ≠ 0) && (decide (c = 3) || !three) && !i.broken && !i.stepped &&
    decide (s.get (R.BAL_GCTL_COVMIN g) ≤ pm)
  let loss := evald && decide ((max (s.get (R.BAL_ABSI_ABSI g)) (s.get (R.BAL_GCTL_RELIMP g) * b.fImp / 1000) : Nat) < ui.1)
  let exp1 := evald && decide ((max (s.get (R.BAL_ABSE_ABSE g)) (s.get (R.BAL_EXP_RELEXP g) * b.fExp / 1000) : Nat) < ue.1)
  { l := l.1, uImp := ui.1, uExp := ue.1, a := a, pm := pm, loss := loss, export1 := exp1
    flags := b2n loss + 2 * b2n exp1 + 4 * b2n (decide (a ≠ 0 ∧ pm < s.get (R.BAL_GCTL_COVMIN g))) + 8 * b2n (decide (a = 0)) +
      16 * b2n (decide (c ≠ 3) && three) + 32 * b2n (decide (b.tamper ≠ 0)) + 64 * b2n (decide (b.consexp ≠ 0)) +
      128 * b2n (b.sat || l.2 || ui.2 || ue.2) }

/-- The 48 bytes of a column (R153). -/
def colBytes (b : BCol) (k : Closed) : List Byte :=
  leBytes 4 b.fImp ++ leBytes 4 b.fExp ++ leBytes 4 b.mImp ++ leBytes 4 b.mExp ++ leBytes 4 k.l ++ leBytes 4 (unsgn 32 k.uImp) ++
    leBytes 4 (unsgn 32 k.uExp) ++ leBytes 4 k.a ++ leBytes 4 b.cov ++ leBytes 2 k.pm ++ leBytes 2 k.flags ++
    leBytes 2 b.tamper ++ leBytes 2 b.consexp ++ leBytes 2 b.rept ++ leBytes 2 b.mismatch

/-- The close of an interval for one group: its report and its alarms (R145, R150, R152, R153).  CHARGE is an interval flag (R139) and so
stands in the report of every enabled group (DESIGN CHOICE, assumption 108). -/
def State.closeGroup (s : State) (i : Intv) (g : Nat) : State :=
  let t := i.t1.getD s.now - i.t0
  let sil := if g = 0 then s.bal.sil else none
  let flags := b2n i.broken + 2 * b2n i.stepped + 8 * b2n sil.isSome + 16 * b2n i.charge
  let ks := [0, 1, 2, 3].map (fun c => (c, s.closeCol i g c))
  let r := reportHead i.n 1 g flags (min 0xFFFF (sil.getD 0)) t ++ ks.flatMap (fun k => colBytes (i.col g k.1) k.2)
  let u := s.enterReport r
  let u := if g = 0 then { u with bal := { u.bal with sil := none } } else u
  ks.foldl (fun u k =>
    let u := if k.2.loss then u.raise 0x0601 6 2 [(0, 4, i.n), (4, 1, g), (5, 1, k.1), (6, 1, 0), (8, 4, unsgn 32 k.2.uImp)] else u
    if k.2.export1 then u.raise 0x0601 6 2 [(0, 4, i.n), (4, 1, g), (5, 1, k.1), (6, 1, 1), (8, 4, unsgn 32 k.2.uExp)] else u) u

/-- INTERVAL_CLOSE (R144, R145, R150, R153): in the commit phase of B(n + 1 + S) the oldest open interval closes. -/
def execIntervalClose (s : State) : Out :=
  .next (s.run (fun s =>
    match s.bal.ivs with
    | [] => s
    | i :: rest =>
      if s.phase = .commit ∧ s.bal.last = some s.curInt ∧ i.n + 1 + s.get R.BAL_CTL_SETTLE ≤ s.curInt then
        let t := groups.foldl (fun t g => if s.balanced g then t.closeGroup i g else t) s
        { t with bal := { t.bal with ivs := rest } }
      else s))

/-- The oldest report removed (R154). -/
def State.popReport (s : State) : State :=
  ({ s with bal := { s.bal with reports := s.bal.reports.drop 1 } }).syncReports

/-- The REPORT entry of a report: four slots (R426). -/
def reportEntries (r : List Byte) : List Entry :=
  [0, 1, 2, 3].map (fun k => ⟨4, 0, 0, 0, k, true, recOf (sliceB r (64 * k) 64)⟩)

/-- A write of 1 to BAL_RPTPOP (R154, R156): firmware task 07h first writes the report to the ledger, and removes
it only when the ledger has taken it, or, while storage writes none, when the head end has acknowledged it. -/
def State.reportPop (s : State) (p : Path) : State :=
  match s.bal.reports with
  | [] => s
  | r :: _ =>
    if p = .fw then
      let a := s.accept (reportEntries r)
      if a.1.isSome then a.2.popReport else a.2
    else s.popReport

end Sys2Proof.Machine
end

