-- ==== Sys2Proof/Machine/Directory.lean ====
section
/-!
DEFINITION. The directory, the replay table and the heart-note table (R100-R111): where an entry and a replay word lie, how a
meter is found and placed, how Heart notes are entered, filled and derived again.
-/
namespace Sys2Proof.Machine

/-! ### Addresses -/

/-- The address of directory entry i (R101). -/
def dirAddr (i : Nat) : Nat := (8 + i % 16) * 0x80000 + i / 16 * 128

/-- The address of replay entry s (R102). -/
def rplAddr (slot : Nat) : Nat := 0xC00000 + 4 * slot

/-- Bucket b1 of a METER (R103). -/
def bucket1 (meter : Nat) : Nat := 2 * bitsOf (meter * 0x9E3779B1 % 2 ^ 32) 20 12

/-- Bucket b2 of a METER (R103). -/
def bucket2 (meter : Nat) : Nat := 2 * bitsOf (meter * 0x85EBCA6B % 2 ^ 32) 20 12 + 1

/-- The entries of a bucket (R103). -/
def bucketEntries (b : Nat) : List Nat := (List.range 8).map (fun i => 8 * b + i)

/-- The 16 candidate entries of a METER (R103). -/
def candidates (meter : Nat) : List Nat := bucketEntries (bucket1 meter) ++ bucketEntries (bucket2 meter)

/-- METER of an entry; 0 for a free one (R104). -/
def State.dirMeter (s : State) (i : Nat) : Nat := s.mnat (dirAddr i) 4

/-- Bytes `off` to `off + n - 1` of an entry as a number. -/
def State.dirNat (s : State) (i off n : Nat) : Nat := s.mnat (dirAddr i + off) n

/-- The replay word of a slot. -/
def State.rpl (s : State) (slot : Nat) : Nat := s.mnat (rplAddr slot) 4

/-- The line of an address. -/
def lineOf (a : Nat) : Nat := a / 32

/-- The first lines of the candidates read (R99, R31): damaged ones are counted and captured. -/
def State.readCandidates (s : State) (meter : Nat) : State :=
  (candidates meter).foldl (fun t i => t.touchLine (lineOf (dirAddr i))) s

/-- Whether a candidate's first line is uncorrectable (R120, R127). -/
def State.candBad (s : State) (meter : Nat) : Bool := (candidates meter).any (fun i => s.engBad (lineOf (dirAddr i)))

/-- The entry that holds a METER (R103). -/
def State.dirFind (s : State) (meter : Nat) : Option Nat :=
  (candidates meter).find? (fun i => !(s.engBad (lineOf (dirAddr i))) && decide (s.dirMeter i = meter))

/-! ### Windows -/

/-- The domain of a METER (R63). -/
def domainOf (meter : Nat) : Nat := meter / 2 ^ 20

/-- The index of a METER in its domain (R63). -/
def indexOf (meter : Nat) : Nat := meter % 2 ^ 20

/-- The window descriptor that a METER matches (R100). -/
def State.windowOf (s : State) (meter : Nat) : Option Nat :=
  (List.range 16).find? (fun k =>
    decide (s.get (R.VAL_WINA_DOMAIN k) = domainOf meter ∧ s.get (R.VAL_WINC_COUNT k) ≠ 0 ∧
      s.get (R.VAL_WINB_FIRST k) ≤ indexOf meter ∧
      indexOf meter < s.get (R.VAL_WINB_FIRST k) + s.get (R.VAL_WINC_COUNT k)))

/-- A slot inside the slot range of a window with COUNT not 0 (R106). -/
def State.slotInWindow (s : State) (slot : Nat) : Bool :=
  (List.range 16).any (fun k =>
    decide (s.get (R.VAL_WINC_COUNT k) ≠ 0 ∧ s.get (R.VAL_WIND_BASE k) ≤ slot ∧
      slot < s.get (R.VAL_WIND_BASE k) + s.get (R.VAL_WINC_COUNT k)))

/-! ### Heart notes -/

/-- VAL_STAT.HUSED brought up to the table (R130). -/
def State.putHearts (s : State) (hs : List Heart) : State :=
  ({ s with val := { s.val with hearts := hs } }).set R.VAL_STAT_HUSED hs.length

/-- The table entry of a pair (R109). -/
def State.heartOf (s : State) (dom epoch : Nat) : Option Heart :=
  s.val.hearts.find? (fun h => decide (h.dom = dom ∧ h.epoch = epoch))

/-- A pair entered without its note; whether it is in the table afterwards (R109, R111). -/
def State.enterPair (s : State) (dom epoch : Nat) : Bool × State :=
  match s.heartOf dom epoch with
  | some _ => (true, s)
  | none =>
    if 256 ≤ s.val.hearts.length then (false, s.set R.VAL_STAT_HFULL 1)
    else (true, s.putHearts (s.val.hearts ++ [⟨dom, epoch, none⟩]))

/-- The notes of up to `n` pairs derived, in table order (R111, R364). -/
def deriveNotes (base : List Byte) : Nat → List Heart → List Heart
  | _, [] => []
  | n, h :: t =>
    match h.note, n with
    | some _, _ => h :: deriveNotes base n t
    | none, 0 => h :: t
    | none, k + 1 => { h with note := some (heartNote base h.dom h.epoch) } :: deriveNotes base k t

/-- The pair that a command needs, entered and derived in its window (R109, R359): false gives NOHEART. -/
def State.needPair (s : State) (dom epoch : Nat) : Bool × State :=
  match s.heartOf dom epoch, s.baseNote with
  | some h, some b =>
    (true, if h.note.isSome then s else s.putHearts (s.val.hearts.map (fun x =>
      if x.dom = dom ∧ x.epoch = epoch then { x with note := some (heartNote b dom epoch) } else x)))
  | some _, none => (true, s)
  | none, none => (false, s.set R.VAL_STAT_HFULL 1)
  | none, some b =>
    if 256 ≤ s.val.hearts.length then (false, s.set R.VAL_STAT_HFULL 1)
    else (true, s.putHearts (s.val.hearts ++ [⟨dom, epoch, some (heartNote b dom epoch)⟩]))

/-- KEY_STAT.REDERIVE (R111, R364). -/
def State.syncRederive (s : State) : State := s.set R.KEY_STAT_REDERIVE (b2n (s.val.rederive || s.val.fill.isSome))

/-- Up to 16 notes derived in one command window, which the fill and the re-derivation share (R111, R364). -/
def State.deriveWindow (s : State) : State :=
  match s.baseNote with
  | none => s
  | some b =>
    if s.val.deriveFrom ≤ s.now then
      let t := s.putHearts (deriveNotes b 16 s.val.hearts)
      { t with val := { t.val with deriveFrom := s.now + 1 } }
    else s

/-- A fill starts (R111); none runs while no selected root is present. -/
def State.startFill (s : State) : State :=
  if s.baseNote.isSome then ({ s with val := { s.val with fill := some 0 } }).syncRederive else s

/-- The pair of a window descriptor entered (R111). -/
def State.fillWindow (s : State) (k : Nat) : State :=
  if s.get (R.VAL_WINC_COUNT k) = 0 then s
  else (s.enterPair (s.get (R.VAL_WINA_DOMAIN k)) (s.get (R.VAL_WINA_EPOCH k))).2

/-- The pair of a directory entry entered (R111); the second part says that the table was full. -/
def State.fillEntry (r : Bool × State) (i : Nat) : Bool × State :=
  if r.1 then r
  else
    let s := r.2.touchLine (lineOf (dirAddr i))
    let m := s.dirMeter i
    if m = 0 ∨ s.dirNat i 9 1 = 2 then (false, s)
    else
      let p := s.enterPair (domainOf m) (s.dirNat i 10 2)
      (!p.1, p.2)

/-- One command window of a fill of the heart-note table, from directory entry `i` on (R111). -/
def State.fillStep (s : State) (i : Nat) : State :=
  let s := if i = 0 then (List.range 16).foldl State.fillWindow s else s
  let r := ((List.range 4096).map (fun k => i + k)).foldl State.fillEntry (decide (65536 ≤ i), s)
  let next := if r.1 then 65536 else i + 4096
  let t := r.2.deriveWindow
  let done := decide (65536 ≤ next) && t.val.hearts.all (fun h => h.note.isSome)
  ({ t with val := { t.val with fill := if done then none else some next, scanFrom := s.now + 1 } }).syncRederive

/-- HEART_FILL (R111): one command window of a fill. -/
def execHeartFill (s : State) : Out :=
  .next (s.run (fun s =>
    match s.val.fill with
    | none => s
    | some i =>
      if s.baseNote = none then ({ s with val := { s.val with fill := none } }).syncRederive
      else if s.val.scanFrom ≤ s.now then s.fillStep i
      else s))

/-- HEART_REDERIVE (R364): one command window of the re-derivation, from the tick after the write commits. -/
def execHeartRederive (s : State) : Out :=
  .next (s.run (fun s =>
    if s.val.rederive = true ∧ s.val.deriveFrom ≤ s.now then
      let t := s.deriveWindow
      ({ t with val := { t.val with rederive := t.val.hearts.any (fun h => h.note.isNone) && t.baseNote.isSome } }).syncRederive
    else s))

/-! ### Placement -/

/-- A placement under way (R105): what each changed entry is to hold, newest first; the positions that were filled, in order; the lines
read for the moves; whether an uncorrectable one was met (R127), or 32 moves led nowhere. -/
structure Placement where
  mods  : List (Nat × List Byte) := []
  path  : List Nat := []
  reads : List Nat := []
  bad   : Bool := false
  full  : Bool := false
  deriving DecidableEq, Repr

/-- The bytes of an entry under a placement. -/
def State.placed (s : State) (p : Placement) (i : Nat) : List Byte :=
  ((p.mods.find? (fun m => decide (m.1 = i))).map Prod.snd).getD (s.mrd (dirAddr i) 128)

/-- The lowest-numbered free entry of a bucket (R105). -/
def State.freeIn (s : State) (p : Placement) (b : Nat) : Option Nat :=
  (bucketEntries b).find? (fun i => decide (leAt (s.placed p i) 0 4 = 0))

/-- The first lines of a bucket's entries. -/
def bucketLines (b : Nat) : List Nat := (bucketEntries b).map (fun i => lineOf (dirAddr i))

/-- The lines of an entry. -/
def entryLines (i : Nat) : List Nat := (List.range 4).map (fun k => lineOf (dirAddr i) + k)

/-- Whether a line of an entry is uncorrectable. -/
def State.entryBad (s : State) (i : Nat) : Bool := (entryLines i).any s.engBad

/-- An entry placed at i. -/
def Placement.at (p : Placement) (i : Nat) (bs : List Byte) : Placement := { p with mods := (i, bs) :: p.mods, path := p.path ++ [i] }

/-- The moves of R105 with bucket `b` as the current one and `m` moves made: the entry at position m mod 8 gives way to `new`. -/
def State.evict (s : State) : Nat → Nat → Nat → Placement → List Byte → Placement
  | 0, _, _, p, _ => { p with full := true }
  | f + 1, m, b, p, new =>
    let i := 8 * b + m % 8
    let out := s.placed p i
    let mt := leAt out 0 4
    let ob := if b % 2 = 0 then bucket2 mt else bucket1 mt
    let ls := entryLines i ++ bucketLines ob
    let p := { p.at i new with reads := p.reads ++ ls, bad := p.bad || ls.any s.engBad }
    if p.bad then p
    else match s.freeIn p ob with
      | some j => p.at j out
      | none => s.evict f (m + 1) ob p out

/-- The placement of a new entry (R105), with every move. -/
def State.place (s : State) (meter : Nat) (bs : List Byte) : Placement :=
  match s.freeIn {} (bucket1 meter) with
  | some i => Placement.at {} i bs
  | none => match s.freeIn {} (bucket2 meter) with
    | some i => Placement.at {} i bs
    | none => s.evict 32 0 (bucket1 meter) {} bs

/-- The entries that a placement changes, each with what it holds in the end. -/
def Placement.final (p : Placement) : List (Nat × List Byte) :=
  p.mods.foldr (fun m l => (m.1, m.2) :: l.filter (fun x => decide (x.1 ≠ m.1))) []

/-- Where a METER lies after a placement. -/
def Placement.where1 (p : Placement) (meter : Nat) : Nat :=
  ((p.final.find? (fun m => decide (leAt m.2 0 4 = meter))).map Prod.fst).getD 0

/-- COVERAGE_MOVE (R142): each entry moved along the path takes its coverage bits with it; the new entry has none. -/
def State.carryCover (s : State) (path : List Nat) : State :=
  (path.foldl (fun (r : List Bool × State) i =>
    ((List.range 8).map (fun n => r.2.covered n i),
      (List.range 8).foldl (fun t n => t.setCover n i (nth r.1 n false)) r.2)) ([], s)).2

/-- A placement carried out: entries written whole, coverage bits moved with them (R105, R142). -/
def State.doPlace (s : State) (p : Placement) : State :=
  (p.final.foldr (fun m t => t.memWrite (dirAddr m.1) m.2) s).carryCover p.path

end Sys2Proof.Machine
end

