-- ==== Sys2Proof/Machine/DirCmd.lean ====
section
/-!
DEFINITION. Directory commands (R125-R129): INSERT to HFREE, their results, the ledger entries they make, and the zeroing of a
window.
-/
namespace Sys2Proof.Machine

/-- What a directory command answers: RESULT (R127), INDEX, the state, and whether it changed an entry. -/
structure DirOut where
  res   : Nat
  idx   : Nat := 0
  st    : State
  wrote : Bool := false

/-- Port codes of R104 that are not reserved. -/
def portLegal (p : Nat) : Bool := decide (p ≤ 0x11 ∨ p = 0x20 ∨ p = 0xFF)

/-- DIR_DAT as bytes. -/
def State.dirDat (s : State) (w n : Nat) : List Byte :=
  (List.range n).flatMap (fun i => leBytes 4 (s.get (R.DIR_DAT_DATA (w + i))))

/-- Bytes copied to DIR_DAT0 on. -/
def State.toDirDat (s : State) (bs : List Byte) : State :=
  (List.range (bs.length / 4)).foldl (fun t w => t.set (R.DIR_DAT_DATA w) (leAt bs (4 * w) 4)) s

/-- The line of a replay entry read (R31, R120). -/
def State.touchReplay (s : State) (slot : Nat) : State := s.touchLine (lineOf (rplAddr slot))

/-- A command that names a meter by ARG0 (R103, R127). -/
def State.dirNamed (s : State) (meter : Nat) (f : State → Nat → DirOut) : DirOut :=
  if meter = 0 then ⟨6, 0, s, false⟩
  else
    let s := s.readCandidates meter
    match s.dirFind meter with
    | some i => f s i
    | none => ⟨if s.candBad meter then 7 else 1, 0, s, false⟩

/-- The count of entries with METER not 0 changed (R131). -/
def State.usedBump (s : State) (up : Bool) : State :=
  s.set R.DIR_USED_COUNT (if up then s.get R.DIR_USED_COUNT + 1 else s.get R.DIR_USED_COUNT - 1)

/-- The entry's part in the balance counts (R140). -/
def State.asgOf (s : State) (i : Nat) (up : Bool) : State :=
  s.asgEntry (s.dirMeter i) (s.dirNat i 9 1) (s.dirNat i 8 1) up

/-- Bytes of an entry written; an uncorrectable line met gives TABLEERR (R32, R127). -/
def State.dirPut (s : State) (i off : Nat) (bs : List Byte) : DirOut :=
  let ls := linesOf (dirAddr i + off) bs.length
  let whole := off % 32 = 0 ∧ bs.length % 32 = 0
  let t := if whole then s else ls.foldl State.touchLine s
  if ¬ whole ∧ ls.any t.engBad = true then ⟨7, 0, t, false⟩
  else ⟨0, i, t.memWrite (dirAddr i + off) bs, true⟩

/-- INSERT (R105, R106, R109, R126): order of the results BADARG, TABLEERR, EXISTS, NOHEART, NOSPACE.  A pair that the command has
entered stays in the table whatever the result, since only HFREE and an erase take one out (R109; DEDUCED, assumption 44). -/
def State.dirInsert (s : State) (d : DirArgs) : DirOut :=
  let slot := d.a1 % 2 ^ 20
  let port := bitsOf d.a1 24 8
  let asg := bitsOf d.a2 0 8
  let st := bitsOf d.a2 8 8
  let epoch := bitsOf d.a2 16 16
  if d.a0 = 0 ∨ portLegal port = false ∨ 64 ≤ asg ∨ 2 < st ∨ bitsOf d.a1 20 4 ≠ 0 ∨ s.slotInWindow slot then ⟨6, 0, s, false⟩
  else
    let s := s.readCandidates d.a0
    if s.candBad d.a0 then ⟨7, 0, s, false⟩
    else match s.dirFind d.a0 with
      | some i => ⟨2, i, s, false⟩
      | none =>
        let h := if st = 2 then (true, s) else s.needPair (domainOf d.a0) epoch
        if h.1 = false then ⟨5, 0, h.2, false⟩
        else
          let bs := sliceB (leBytes 4 d.a0 ++ leBytes 4 d.a1 ++ [BitVec.ofNat 8 asg, BitVec.ofNat 8 st] ++ leBytes 2 epoch ++
            leBytes 4 d.a3) 0 128
          let p := s.place d.a0 bs
          let t := p.reads.foldl State.touchLine h.2
          if p.bad then ⟨7, 0, t, false⟩
          else if p.full then ⟨3, 0, t, false⟩
          else ⟨0, p.where1 d.a0, ((t.doPlace p).usedBump true).asgEntry d.a0 st asg true, true⟩

/-- REMOVE (R126, R142). -/
def State.dirRemove (s : State) (d : DirArgs) : DirOut :=
  s.dirNamed d.a0 (fun s i =>
    ⟨0, i, (((s.asgOf i false).memWrite (dirAddr i) (List.replicate 128 0#8)).usedBump false).clearCover i, true⟩)

/-- SETSTAT (R126). -/
def State.dirSetstat (s : State) (d : DirArgs) : DirOut :=
  let st := bitsOf d.a2 8 8
  if 2 < st then ⟨6, 0, s, false⟩
  else s.dirNamed d.a0 (fun s i =>
    let o := (s.asgOf i false).dirPut i 9 [BitVec.ofNat 8 st]
    { o with st := o.st.asgOf i true })

/-- SETEPOCH (R109, R119). -/
def State.dirSetepoch (s : State) (d : DirArgs) : DirOut :=
  let epoch := bitsOf d.a2 16 16
  s.dirNamed d.a0 (fun s i =>
    if epoch ≤ s.dirNat i 10 2 then ⟨4, 0, s, false⟩
    else
      let slot := s.dirNat i 4 4 % 2 ^ 20
      let s := s.touchReplay slot
      if s.engBad (lineOf (rplAddr slot)) then ⟨7, 0, s, false⟩
      else
        let h := if s.dirNat i 9 1 = 2 then (true, s) else s.needPair (domainOf d.a0) epoch
        if h.1 = false then ⟨5, 0, h.2, false⟩
        else h.2.memWrite (rplAddr slot) [0#8, 0#8, 0#8, 0#8] |>.dirPut i 10 (leBytes 2 epoch))

/-- SETASSIGN (R126, R140). -/
def State.dirSetassign (s : State) (d : DirArgs) : DirOut :=
  let asg := bitsOf d.a2 0 8
  if 64 ≤ asg then ⟨6, 0, s, false⟩
  else s.dirNamed d.a0 (fun s i =>
    let o := (s.asgOf i false).dirPut i 8 [BitVec.ofNat 8 asg]
    { o with st := o.st.asgOf i true })

/-- SETLINK (R126). -/
def State.dirSetlink (s : State) (d : DirArgs) : DirOut :=
  let port := bitsOf d.a1 24 8
  if portLegal port = false then ⟨6, 0, s, false⟩
  else s.dirNamed d.a0 (fun s i =>
    let o := s.dirPut i 7 [BitVec.ofNat 8 port]
    if o.res = 0 then o.st.dirPut i 12 (leBytes 4 d.a3) else o)

/-- FIND (R126). -/
def State.dirFindCmd (s : State) (d : DirArgs) : DirOut :=
  s.dirNamed d.a0 (fun s i =>
    let r := s.memRead (dirAddr i) 128
    if r.2.entryBad i then ⟨7, 0, r.2, false⟩ else ⟨0, i, r.2.toDirDat r.1, false⟩)

/-- SETDOWN (R126). -/
def State.dirSetdown (s : State) (d : DirArgs) : DirOut :=
  if sramEnd ≤ d.a1 then ⟨6, 0, s, false⟩
  else s.dirNamed d.a0 (fun s i => s.dirPut i 64 (leBytes 4 d.a1 ++ leBytes 2 d.a3))

/-- WRSTAT (R126). -/
def State.dirWrstat (s : State) (d : DirArgs) : DirOut :=
  s.dirNamed d.a0 (fun s i => s.dirPut i 72 (s.dirDat 18 14))

/-- RPLREAD (R102, R126). -/
def State.dirRplread (s : State) (d : DirArgs) : DirOut :=
  let a := rplAddr (d.a1 / 8 * 8)
  let t := s.touchReplay d.a1
  if t.engBad (lineOf a) then ⟨7, 0, t, false⟩ else ⟨0, 0, t.toDirDat (t.mrd a 32), false⟩

/-- RPLMAX (R126): the entry takes the larger of its value and the counter. -/
def State.dirRplmax (s : State) (slot ctr : Nat) : DirOut :=
  let s := s.touchReplay slot
  if s.engBad (lineOf (rplAddr slot)) then ⟨7, 0, s, false⟩
  else ⟨0, 0, if s.rpl slot < ctr then s.memWrite (rplAddr slot) (leBytes 4 ctr) else s, false⟩

/-- RPLLINE (R102, R126). -/
def State.dirRplline (s : State) (d : DirArgs) : DirOut :=
  ⟨0, 0, s.memWrite (rplAddr (d.a1 / 8 * 8)) (s.dirDat 0 8), false⟩

/-- The number that `n` bytes of SRAM hold, read with no check of their lines. -/
def State.heldNat (s : State) (a n : Nat) : Nat := leNat ((List.range n).map (fun k => s.byte (a + k)))

/-- DIRFIX (R126, R142): the whole entry written with zeros, its lines sound again.  The counts of R131 and R140 lose the entry that was
placed there, also when a line of it can no longer be read (DEDUCED, assumption 44). -/
def State.dirDirfix (s : State) (d : DirArgs) : DirOut :=
  let i := d.a1 % 65536
  let a := dirAddr i
  let meter := s.heldNat a 4
  if 65536 ≤ d.a1 then ⟨6, i, s, false⟩
  else
    let t := if meter = 0 ∨ s.served (bankOf a) = false then s
      else (s.asgEntry meter (s.heldNat (a + 9) 1) (s.heldNat (a + 8) 1) false).usedBump false
    ⟨0, i, (t.memWrite a (List.replicate 128 0#8)).clearCover i, true⟩

/-- WEPOCH (R119, R126, R128). -/
def State.dirWepoch (s : State) (d : DirArgs) : DirOut :=
  let k := d.a1 % 16
  let epoch := bitsOf d.a2 16 16
  let count := s.get (R.VAL_WINC_COUNT k)
  let b := s.get (R.VAL_WIND_BASE k)
  if count = 0 then ⟨6, 0, s, false⟩
  else if s.on R.RPL_STAT_ZEROING then ⟨8, 0, s, false⟩
  else if epoch ≤ s.get (R.VAL_WINA_EPOCH k) then ⟨4, 0, s, false⟩
  else
    let h := s.needPair (s.get (R.VAL_WINA_DOMAIN k)) epoch
    if h.1 = false then ⟨5, 0, h.2, false⟩
    else
      let t := h.2.setAll [(R.VAL_WINA_EPOCH k, epoch), (R.RPL_STAT_ZEROING, 1), (R.RPL_STAT_WIN, k),
        (R.RPL_STAT_LEFT, (b + count - 1) / 8 - b / 8 + 1)]
      ⟨0, 0, { t with val := { t.val with zeroAt := b / 8 } }, false⟩

/-- HFREE (R109, R126). -/
def State.dirHfree (s : State) (d : DirArgs) : DirOut :=
  let dom := d.a0 % 4096
  let epoch := bitsOf d.a2 16 16
  match s.heartOf dom epoch with
  | none => ⟨1, 0, s, false⟩
  | some _ =>
    ⟨0, 0, (s.putHearts (s.val.hearts.filter (fun h => !(decide (h.dom = dom ∧ h.epoch = epoch))))).set R.VAL_STAT_HFULL 0, false⟩

/-- The command of an OP code (R126). -/
def State.dirRun (s : State) (op : Nat) (d : DirArgs) : DirOut :=
  match op with
  | 1 => s.dirInsert d
  | 2 => s.dirRemove d
  | 3 => s.dirSetstat d
  | 4 => s.dirSetepoch d
  | 5 => s.dirSetassign d
  | 6 => s.dirSetlink d
  | 7 => s.dirFindCmd d
  | 8 => s.dirSetdown d
  | 9 => s.dirWrstat d
  | 10 => if d.a1 < 2 ^ 20 then s.dirRplread d else ⟨6, 0, s, false⟩
  | 11 => if d.a1 < 2 ^ 20 then s.dirRplmax d.a1 d.a3 else ⟨6, 0, s, false⟩
  | 12 => if d.a1 < 2 ^ 20 then s.dirRplline d else ⟨6, 0, s, false⟩
  | 13 => s.dirDirfix d
  | 14 => s.dirWepoch d
  | 15 => s.dirHfree d
  | _ => ⟨6, 0, s, false⟩

/-- Firmware enters a completed command that changed an entry in the ledger (R426). -/
def State.dirLedger (o : DirOut) (op : Nat) (d : DirArgs) : State :=
  if o.wrote ∧ o.res = 0 then o.st.acceptDirCmd op o.res [d.a0, d.a1, d.a2, d.a3] else o.st

/-- Commands whose completion starts a checkpoint under way again (R431): REMOVE, SETEPOCH, DIRFIX, WEPOCH. -/
def recopies (op : Nat) : Bool := decide (op = 2 ∨ op = 4 ∨ op = 13 ∨ op = 14)

/-! ### Commands of firmware -/

/-- The result of a command that has run: DIR_RES with its SEQ (R127), and the ledger entry of one that changed an entry (R426). -/
def State.dirDone (o : DirOut) (op : Nat) (d : DirArgs) : State :=
  State.dirLedger { o with
    st := (o.st.setAll [(R.DIR_RES_RESULT, o.res), (R.DIR_RES_INDEX, o.idx)]).wrap R.DIR_RES_SEQ } op d

/-- A directory command that a link-layer task of firmware issues for its own work (R125, R133): none while the test interface holds the
directory (R524).  DESIGN CHOICE (assumption 45): it runs at once. -/
def State.fwDir (s : State) (op : Nat) (d : DirArgs) : State :=
  if s.on R.PRT_CTL_DIRHOLD then s else State.dirDone (s.dirRun op d) op d

/-- The serving port of an entry (R104). -/
def State.servingPort (s : State) (i : Nat) : Nat := s.dirNat i 7 1

/-- How the statistics of a serving port are laid out (R252, R267). -/
def statLayout (port : Nat) : Nat := if port < 4 then 0 else if port = 12 ∨ port = 13 then 1 else 2

/-- Link statistics of an entry as its serving port lays them out (R252, R267): bytes that the layout reserves are 0. -/
def State.statBytes (s : State) (i : Nat) : List Byte :=
  let b := s.mrd (dirAddr i + 72) 56
  match statLayout (s.servingPort i) with
  | 0 => b.take 22 ++ List.replicate 34 0#8
  | 1 => b.take 10 ++ List.replicate 46 0#8
  | _ => b.take 6 ++ List.replicate 50 0#8

/-- Link statistics of an entry replaced at an offset of bytes 72-127 by firmware with WRSTAT (R252, R267). -/
def State.putStat (s : State) (i : Nat) (l : List (Nat × List Byte)) : State :=
  let new := l.foldl (fun b e => overlay b (e.1 - 72) e.2) (s.statBytes i)
  let t := (List.range 14).foldl (fun (t : State) w => t.set (R.DIR_DAT_DATA (18 + w)) (leAt new (4 * w) 4)) s
  t.fwDir 9 ⟨s.dirMeter i, 0, 0, 0⟩

/-- After a SETLINK, whoever issued it, firmware clears bytes 78-127 with WRSTAT of an entry whose port now lays its statistics out otherwise
than the port of layout `was` did (R267). -/
def State.relink (s : State) (meter : Nat) (was : Option Nat) : State :=
  match s.dirFind meter with
  | some i => if was = some (statLayout (s.servingPort i)) then s else s.putStat i [(78, List.replicate 50 0#8)]
  | none => s

/-- The layout of the statistics of a meter's entry. -/
def State.layoutOf (s : State) (meter : Nat) : Option Nat := (s.dirFind meter).map (fun i => statLayout (s.servingPort i))

/-- SETLINK by firmware (R126, R267). -/
def State.fwLink (s : State) (d : DirArgs) : State := (s.fwDir 6 d).relink d.a0 (s.layoutOf d.a0)

/-- The result of a command that firmware carried out for an item of a management message: it stands in the item's place, with the words
that FIND and RPLREAD copied to DIR_DAT (R324). -/
def State.dirReply (s : State) (op res idx : Nat) : State :=
  let n := if op = 7 then 32 else if op = 10 then 8 else 0
  let words := (List.range n).flatMap (fun w => leBytes 4 (s.get (R.DIR_DAT_DATA w)))
  { s with sup := { s.sup with reqs := s.sup.reqs.map (fun r => match r.cur with
      | some i => { r with cur := none, resp := overlay r.resp (8 * i) ([0#8, BitVec.ofNat 8 res] ++ leBytes 2 idx) ++ words }
      | none => r) } }

/-- A command completed (R125, R127): DIR_RES, SEQ, BUSY, its ledger entry, the answer to a management message whose item it was, and what
it means for a checkpoint under way. -/
def State.dirFinish (s : State) (op : Nat) (d : DirArgs) : State :=
  let o := s.dirRun op d
  let t := (State.dirDone o op d).set R.DIR_CMD_BUSY 0
  let u := ({ t with val := { t.val with dirCmd := none } }).dirReply op o.res o.idx
  let u := if op = 6 ∧ o.res = 0 then u.relink d.a0 (s.layoutOf d.a0) else u
  if recopies op then u.ckptAgain else u

/-- A directory command in its command window (R125, R133, R524): the one that DIR_CMD latched, with its arguments; or, with none
latched, one that firmware issues, which it does not while the test interface holds the directory. -/
def State.dirCommand (s : State) (op : Nat) (d : DirArgs) : State :=
  let d : DirArgs := ⟨d.a0 % 2 ^ 32, d.a1 % 2 ^ 32, d.a2 % 2 ^ 32, d.a3 % 2 ^ 32⟩
  match s.val.dirCmd with
  | some c => if c = (op, d.a0, d.a1, d.a2, d.a3, c.2.2.2.2.2) ∧ c.2.2.2.2.2 ≤ s.now then s.dirFinish op d else s
  | none => if s.on R.PRT_CTL_DIRHOLD then s else s.dirFinish op d

/-- A command latched for the command window of this tick that has not run yet: the window ends with the compute phase (R125). -/
def State.dirWindow (s : State) : State :=
  match s.val.dirCmd with
  | some (op, a0, a1, a2, a3, k) => if k ≤ s.now then s.dirFinish op ⟨a0, a1, a2, a3⟩ else s
  | none => s

/-- The next directory item of the management message under way: firmware writes DIR_ARG and DIR_CMD once the command before it has
completed, and not while the test interface holds the directory (R125, R133, R324, R524). -/
def State.dirIssue (s : State) : State :=
  if s.on R.PRT_CTL_DIRHOLD ∨ s.val.dirCmd ≠ none then s
  else match s.sup.reqs.find? (fun r => r.started && r.cur.isNone && !r.dirs.isEmpty) with
    | none => s
    | some r =>
      let i := nth r.dirs 0 0
      let it := sliceB r.body (20 * i) 20
      let a := fun n => leAt it (4 + 4 * n) 4
      let t := (List.range 4).foldl (fun (t : State) n => t.set (R.DIR_ARG_ARG n) (a n)) (s.set R.DIR_CMD_BUSY 1)
      { t with
        val := { t.val with dirCmd := some (leAt it 1 1, a 0, a 1, a 2, a 3, s.now + 1) },
        sup := { t.sup with reqs := t.sup.reqs.map (fun x =>
          if x.reqid = r.reqid ∧ x.sess = r.sess then { x with cur := some i, dirs := x.dirs.drop 1 } else x) } }

/-! ### Commands -/

/-- INSERT (R105, R126). -/
def execInsert (d : DirArgs) (s : State) : Out := .next (s.run (fun s => s.dirCommand 1 d))

/-- REMOVE (R126). -/
def execRemove (d : DirArgs) (s : State) : Out := .next (s.run (fun s => s.dirCommand 2 d))

/-- SETSTAT (R126). -/
def execSetstat (d : DirArgs) (s : State) : Out := .next (s.run (fun s => s.dirCommand 3 d))

/-- SETEPOCH (R119, R126). -/
def execSetepoch (d : DirArgs) (s : State) : Out := .next (s.run (fun s => s.dirCommand 4 d))

/-- SETASSIGN (R126). -/
def execSetassign (d : DirArgs) (s : State) : Out := .next (s.run (fun s => s.dirCommand 5 d))

/-- SETLINK (R126). -/
def execSetlink (d : DirArgs) (s : State) : Out := .next (s.run (fun s => s.dirCommand 6 d))

/-- FIND (R126). -/
def execFind (d : DirArgs) (s : State) : Out := .next (s.run (fun s => s.dirCommand 7 d))

/-- SETDOWN (R126). -/
def execSetdown (d : DirArgs) (s : State) : Out := .next (s.run (fun s => s.dirCommand 8 d))

/-- WRSTAT (R126). -/
def execWrstat (d : DirArgs) (s : State) : Out := .next (s.run (fun s => s.dirCommand 9 d))

/-- RPLREAD (R102, R126). -/
def execRplread (d : DirArgs) (s : State) : Out := .next (s.run (fun s => s.dirCommand 10 d))

/-- RPLMAX (R126). -/
def execRplmax (d : DirArgs) (s : State) : Out := .next (s.run (fun s => s.dirCommand 11 d))

/-- RPLLINE (R102, R126). -/
def execRplline (d : DirArgs) (s : State) : Out := .next (s.run (fun s => s.dirCommand 12 d))

/-- DIRFIX (R126). -/
def execDirfix (d : DirArgs) (s : State) : Out := .next (s.run (fun s => s.dirCommand 13 d))

/-- WEPOCH (R119, R126, R128). -/
def execWepoch (d : DirArgs) (s : State) : Out := .next (s.run (fun s => s.dirCommand 14 d))

/-- HFREE (R109, R126). -/
def execHfree (d : DirArgs) (s : State) : Out := .next (s.run (fun s => s.dirCommand 15 d))

/-- One line of a window zeroed (R128): whole when it lies in the window, its words of the window alone at either end; an edge
line that reads uncorrectable stays, counted and captured. -/
def State.zeroLine (b count : Nat) (s : State) (l : Nat) : State :=
  let lo := max b (8 * l)
  let hi := min (b + count) (8 * l + 8)
  s.memWrite (rplAddr lo) (List.replicate (4 * (hi - lo)) 0#8)

/-- One command window of the zeroing of a window table (R128). -/
def State.zeroWindow (s : State) (lines : Nat) : State :=
  let k := s.get R.RPL_STAT_WIN
  let left := s.get R.RPL_STAT_LEFT
  let n := min left (max 1400 lines)
  let t := ((List.range n).map (fun i => s.val.zeroAt + i)).foldl
    (State.zeroLine (s.get (R.VAL_WIND_BASE k)) (s.get (R.VAL_WINC_COUNT k))) s
  let t := { t with val := { t.val with zeroAt := s.val.zeroAt + n } }
  (t.set R.RPL_STAT_LEFT (left - n)).set R.RPL_STAT_ZEROING (b2n (decide (left ≠ n)))

/-- WINDOW_ZEROING (R128): at least 1,400 lines in one command window. -/
def execWindowZeroing (lines : Nat) (s : State) : Out :=
  .next (s.run (fun s =>
    if s.on R.RPL_STAT_ZEROING then
      s.zeroWindow lines
    else s))

end Sys2Proof.Machine
end

