-- ==== Sys2Proof/Machine/Validate.lean ====
section
/-!
DEFINITION. The validation of one record (R63-R67, R100, R108, R112-R120): well-formedness, slot resolution, tag, replay
comparison, and what each verdict writes.
-/
namespace Sys2Proof.Machine

/-! ### Record form -/

/-- TYPE of a record (R63). -/
def recType (r : Rec) : Nat := recAt r 0 1

/-- LEN of a record (R63). -/
def recLen (r : Rec) : Nat := recAt r 1 1

/-- METER of a record (R63). -/
def recMeter (r : Rec) : Nat := recAt r 4 4

/-- CTR of a record (R63). -/
def recCtr (r : Rec) : Nat := recAt r 8 4

/-- FENCE (R66). -/
def isFence (r : Rec) : Bool := decide (recType r = 14)

/-- PAD (R66). -/
def isPad (r : Rec) : Bool := decide (recType r = 15)

/-- LEN within the range of R66 for its type. -/
def lenOk (ty len : Nat) : Bool :=
  if ty = 1 then decide (len = 32) else if ty = 2 then decide (len = 16) else if ty = 3 then decide (len = 20)
  else if ty = 4 then decide (len = 40) else decide (5 ≤ len ∧ len ≤ 40)

/-- The payload bytes and bits that R70 to R74 mark "Reserved, 0" are zero. -/
def reservedOk (r : Rec) : Bool :=
  let ty := recType r
  if ty = 1 then decide (recAt r 46 1 < 8 ∧ recAt r 47 1 = 0)
  else if ty = 2 then decide (recAt r 19 1 = 0)
  else if ty = 3 then decide (recAt r 34 2 = 0)
  else if ty = 4 then decide (recAt r 50 6 = 0)
  else decide (recAt r 19 1 = 0)

/-- The fragment index of a type 05h record within its count (R74). -/
def fragmentOk (r : Rec) : Bool := decide (recType r ≠ 5 ∨ recAt r 16 1 / 16 ≤ recAt r 16 1 % 16)

/-- The reason of MALFORMED (R67, R114), in the order of R67 with reserved TYPE first; 0 for a well-formed record. -/
def malformed (r : Rec) : Nat :=
  let ty := recType r
  if ty < 1 ∨ 5 < ty then 1
  else if lenOk ty (recLen r) = false then 2
  else if recAt r (16 + recLen r) (40 - recLen r) ≠ 0 then 3
  else if recAt r 2 2 / 16 ≠ 0 ∨ ((recAt r 2 1).testBit 0 = true ↔ ty ≠ 5) then 4
  else if recMeter r = 0 ∨ recCtr r = 0 then 5
  else if reservedOk r = false then 6
  else if fragmentOk r = false then 7
  else 0

/-! ### Verdicts -/

/-- What the pipeline finds of a record: verdict code and reason (R114), whether the slot came from a window, slot, assignment
byte and entry index of the verdict word (R115). -/
structure Found where
  v    : Nat
  r    : Nat := 0
  win  : Bool := false
  slot : Nat := 0
  asg  : Nat := 0
  idx  : Nat := 0
  deriving DecidableEq, Repr

/-- The verdict word (R115). -/
def Found.word (f : Found) (lane queue : Nat) : Nat :=
  f.v + f.r * 2 ^ 4 + lane * 2 ^ 12 + queue * 2 ^ 14 + b2n f.win * 2 ^ 19 + f.slot * 2 ^ 20 + (f.asg % 16) * 2 ^ 40 +
    b2n (f.asg.testBit 5) * 2 ^ 44 + b2n (f.asg.testBit 4) * 2 ^ 45 + f.idx * 2 ^ 48

/-- The verdict of the replay comparison (R113). -/
def replayVerdict (e c : Nat) : Nat :=
  if e = 0xFFFFFFFF then (if c = 0xFFFFFFFF then 2 else 6)
  else if c = e then 2 else if c < e then 1 else 0

/-- The tag of a record under a meter key (R64). -/
def tagOf (key : List Byte) (r : Rec) : List Byte := (cmac key ((recBytes r).take 56)).take 8

/-- TAG of a record. -/
def recTag (r : Rec) : List Byte := sliceB (recBytes r) 56 8

/-- Steps 3 to 8 of R112 for a record whose slot is found; `st` and `epoch` as R100 gives them. -/
def State.judgeFound (s : State) (q : Nat) (r : Rec) (f : Found) (st epoch : Nat) : Found × State :=
  if st = 2 then ({ f with v := 5, r := 2 }, s)
  else match (s.heartOf (domainOf (recMeter r)) epoch).bind Heart.note with
    | none => ({ f with v := 5, r := 3 }, s)
    | some note =>
      let good := decide (tagOf (meterKey note (recMeter r) epoch) r = recTag r)
      if st = 1 then ({ f with v := 7, r := if good then 1 else 3 }, s)
      else
        let force := s.on R.PRT_TAG_ARMED && s.on R.PRT_TAG_TGT && decide (s.get R.PRT_TAG_QNUM = q)
        let s := if force then s.set R.PRT_TAG_ARMED 0 else s
        if good = false ∨ force = true then ({ f with v := 3 }, s)
        else
          let s := s.touchReplay f.slot
          if s.engBad (lineOf (rplAddr f.slot)) then ({ f with v := 7, r := 2 }, s)
          else
            let v := replayVerdict (s.rpl f.slot) (recCtr r)
            ({ f with v := v, r := if v = 0 then b2n (s.on R.VAL_CTL_FRESH) + 2 * b2n (decide (recCtr r = 0xFFFFFFFF)) else 0 }, s)

/-- The checks of R112 in order. -/
def State.judgeRecord (s : State) (q : Nat) (r : Rec) : Found × State :=
  if malformed r ≠ 0 then ({ v := 4, r := malformed r }, s)
  else
    let m := recMeter r
    let s := s.readCandidates m
    match s.dirFind m with
    | some i =>
      s.judgeFound q r { v := 0, slot := s.dirNat i 4 4 % 2 ^ 20, asg := s.dirNat i 8 1 % 64, idx := i } (s.dirNat i 9 1)
        (s.dirNat i 10 2)
    | none =>
      if s.candBad m then ({ v := 7, r := 2 }, s)
      else match s.windowOf m with
        | none => ({ v := 5, r := 1 }, s)
        | some k =>
          let f : Found := { v := 0, win := true, slot := s.get (R.VAL_WIND_BASE k) + indexOf m - s.get (R.VAL_WINB_FIRST k) }
          if s.on R.RPL_STAT_ZEROING ∧ s.get R.RPL_STAT_WIN = k then ({ f with v := 5, r := 4 }, s)
          else s.judgeFound q r f 0 (s.get (R.VAL_WINA_EPOCH k))

/-! ### What a verdict writes -/

/-- METER_QUARANTINED (R118): QTHR consecutive FORGED verdicts set the entry's status to QUARANTINE. -/
def State.quarantine (s : State) (i meter n : Nat) : State :=
  if s.get R.VAL_CTL_QTHR ≠ 0 ∧ n = s.get R.VAL_CTL_QTHR then
    (((s.asgOf i false).memWrite (dirAddr i + 9) [1#8]).asgOf i true).raise 0x0502 5 1 [(0, 4, meter), (4, 2, i)]
  else s

/-- The reading fields of an entry under an ACCEPT of type 01h (R117). -/
def State.entryReading (s : State) (i : Nat) (r : Rec) : State :=
  let cur := s.dirNat i 32 4
  let stamp := recAt r 12 4
  let b := recBytes r
  let fill := fun (s : State) => (s.memWrite (dirAddr i + 32) (sliceB b 12 4 ++ sliceB b 16 4 ++ sliceB b 20 4)).memWrite
    (dirAddr i + 56) (sliceB b 24 8)
  if s.engBad (lineOf (dirAddr i) + 1) then s.touchLine (lineOf (dirAddr i) + 1)
  else if cur < stamp then fill (s.memWrite (dirAddr i + 44) (s.mrd (dirAddr i + 32) 12))
  else if cur = stamp then fill s
  else s

/-- DIRECTORY_ENTRY_UPDATE (R117). -/
def State.entryUpdate (s : State) (f : Found) (r : Rec) : State :=
  if f.win then s
  else
    let a := dirAddr f.idx
    if f.v = 0 then
      let t := s.memWrite (a + 20) (leBytes 4 (s.dirNat f.idx 20 4 + 1))
      let t := t.memWrite (a + 18) [0#8, 0#8]
      let t := t.memWrite (a + 28) (leBytes 4 s.now)
      if recType r = 1 then t.entryReading f.idx r else t
    else if f.v = 1 ∨ f.v = 2 ∨ f.v = 3 ∨ f.v = 6 then
      let t := s.memWrite (a + 24) (leBytes 4 (s.dirNat f.idx 24 4 + 1))
      if f.v = 3 then
        let n := satAdd 16 (s.dirNat f.idx 18 2) 1
        (t.memWrite (a + 18) (leBytes 2 n)).quarantine f.idx (recMeter r) n
      else t
    else s

/-- REPLAY_UPDATE (R113): an ACCEPT writes the counter; the final counter is counted and reported. -/
def State.replayUpdate (s : State) (f : Found) (epoch : Nat) (r : Rec) : State :=
  if f.v = 0 then
    let t := s.memWrite (rplAddr f.slot) (leBytes 4 (recCtr r))
    if recCtr r = 0xFFFFFFFF then
      (t.wrap R.RPL_FINAL_COUNT).raise 0x0503 5 1 [(0, 4, recMeter r), (4, 2, epoch)]
    else t
  else s

/-- The epoch that R100 gave a record. -/
def State.epochOf (s : State) (f : Found) (meter : Nat) : Nat :=
  if f.win then (match s.windowOf meter with
    | some k => s.get (R.VAL_WINA_EPOCH k)
    | none => 0)
  else s.dirNat f.idx 10 2

/-- A verdict word handed to the sources that wait for it (R116): to the first record of a waiting frame of this queue that is
the same and has none. -/
def tellSource (q : Nat) (r : Rec) (word : Nat) : List Waiting → List Waiting
  | [] => []
  | w :: t =>
    if w.queue = q ∧ w.recs.any (fun x => decide (x.1 = r ∧ x.2 = none)) then
      let k := (w.recs.findIdx? (fun x => decide (x.1 = r ∧ x.2 = none))).getD 0
      { w with recs := w.recs.set k (r, some word) } :: t
    else w :: tellSource q r word t

/-- VERDICT_DISPOSITION (R116): ledger, balance engine, forwarding and events. -/
def State.dispose (s : State) (q : Nat) (r : Rec) (f : Found) (word : Nat) : State :=
  let disp := s.qDisp q
  let t := s.wrap (R.VAL_CNT_COUNT f.v)
  let t := { t with val := { t.val with waits := tellSource q r word t.val.waits } }
  let t := if f.v = 0 ∧ disp ≠ 1 then t.offer ⟨1, f.v, f.r, q, 0, true, r⟩
    else if f.v = 7 then t.offer ⟨2, f.v, f.r, q, 0, true, r⟩ else t
  let g := f.asg % 4
  let ph := f.asg / 4 % 4
  let t := if f.v = 0 ∧ f.asg.testBit 5 = true then
      let t := if recType r = 1 then t.countReading r g ph f.idx (f.asg.testBit 4) else t
      t.countTamper r g ph
    else t
  let t := if (f.v = 0 ∨ f.v = 7) ∧ disp ≠ 0 then { t with val := { t.val with fwd := t.val.fwd ++ [(q, r, word)] } } else t
  if f.v = 3 ∨ f.v = 6 ∨ f.v = 7 then
    t.raise 0x0501 5 1 [(0, 4, recMeter r), (4, 1, f.v), (5, 1, f.r), (6, 1, q)]
  else t

/-- RECORD_VERDICT (R112-R118): the checks, the replay write, the entry update, the verdict word and its disposition. -/
def State.validate (s : State) (lane q : Nat) (r : Rec) : State :=
  let j := s.judgeRecord q r
  let epoch := j.2.epochOf j.1 (recMeter r)
  let t := (j.2.replayUpdate j.1 epoch r).entryUpdate j.1 r
  t.dispose q r j.1 (j.1.word lane q)

end Sys2Proof.Machine
end

