-- ==== Sys2Proof/Machine/Admit.lean ====
section
/-!
DEFINITION. Validator lanes and admission (R54-R56, R94-R98, R121).
-/
namespace Sys2Proof.Machine

/-- A lane after a die reset. -/
def lane0 (_ : Nat) : Lane := {}

/-- Lane l. -/
def State.lane (s : State) (l : Nat) : Lane := SMap.get lane0 s.val.lanes l

/-- Lane l replaced. -/
def State.putLane (s : State) (l : Nat) (x : Lane) : State :=
  { s with val := { s.val with lanes := SMap.put lane0 s.val.lanes l x } }

/-- The validation cycle of slot j of lane l (R95). -/
def slotCycle (l j : Nat) : Nat := 256 + 120 * l + 480 * j

/-- Records of a queue with a verdict and without their ledger entry (R55, R56, R116): those of a FORWARD queue that the head-end protocol
engine has not accepted for sending, and the entries offered that the ledger has not accepted.  DESIGN CHOICE (assumption 129): a
QUARANTINED record of a FORWARD queue has its entry with its quarantine entry. -/
def State.unsent (s : State) (q : Nat) : Nat :=
  (s.val.fwd.filter (fun x => decide (x.1 = q ∧ x.2.2 % 16 = 0 ∧ s.qDisp q = 1))).length +
    (s.ftl.offered.filter (fun e => decide (e.queue = q))).length

/-- The queue waits under R55 or R56. -/
def State.qWaits (s : State) (q : Nat) : Bool :=
  (s.queue q).fenced || (s.on (R.QUE_CTL_FENCE q) && decide (s.unsent q ≠ 0))

/-- The NAND manager holds the admission of LEDGER and BOTH queues (R427). -/
def State.ledgerHolds (s : State) : Bool := decide (7 ≤ s.ftl.bufs.length)

/-- A METER held by another lane at a validation cycle (R97). -/
def State.heldElsewhere (s : State) (l c meter : Nat) : Bool :=
  (List.range 4).any (fun k => decide (k ≠ l) && (match (s.lane k).held with
    | some h => decide (h.1 = meter ∧ c < h.2)
    | none => false))

/-- What a slot finds at a queue (R97): nothing, a record passed over for its METER, or a record to take. -/
inductive Look where
  | none | skip | take (r : Rec)
  deriving DecidableEq, Repr

/-- Queue q at a slot of lane l (R97). -/
def State.look (s : State) (l c q : Nat) : Look :=
  if s.on (R.QUE_CTL_EN q) = false ∨ (s.queue q).snap = 0 ∨ s.qWaits q = true ∨
      (s.qDisp q ≠ 1 ∧ s.ledgerHolds = true) then .none
  else match s.qFront q with
    | Option.none => .none
    | some r =>
      if isFence r || isPad r then .take r
      else if s.heldElsewhere l c (recMeter r) then .skip
      else .take r

/-- The first eligible queue in the order of R97, with the queues passed over. -/
def State.pick (s : State) (l c : Nat) : List Nat → Nat → Nat × Option (Nat × Rec)
  | [], k => (k, Option.none)
  | q :: t, k =>
    match s.look l c q with
    | .none => s.pick l c t k
    | .skip => s.pick l c t (k + 1)
    | .take r => (k, some (q, r))

/-- The queues of a lane in ascending number modulo 32 after the one it served last (R97). -/
def State.laneOrder (s : State) (l : Nat) : List Nat :=
  ((List.range 32).map (fun i => ((s.lane l).last + 1 + i) % 32)).filter (fun q => decide (s.qLane q = l))

/-- FWAIT (R92): admission waits under R55 or R56. -/
def State.syncWait (s : State) (q : Nat) : State := s.set (R.QUE_STAT_FWAIT q) (b2n (s.qWaits q))

/-- The lane faults with the record that it has taken (R121): QUARANTINED 04h with no field resolved. -/
def State.faultVerdict (s : State) (l q : Nat) (r : Rec) : State :=
  let f : Found := { v := 7, r := 4 }
  s.dispose q r f (f.word l q)

/-- A record taken from a queue head by a lane: consumed, made to wait, or judged by `judge` (R55, R67, R112). -/
def State.takeRecord (s : State) (l c q lat : Nat) (r : Rec) (judge : State → State) : State :=
  let x := s.lane l
  let t := (s.qPop q).putLane l { x with last := q, taken := x.taken + 1 }
  if isFence r then (t.putQueue q { t.queue q with fenced := true }).syncWait q
  else if isPad r then t
  else
    let t := t.putLane l { t.lane l with held := some (recMeter r, c + lat) }
    let t := if t.get (R.VAL_LAT_MAX l) < lat then t.set (R.VAL_LAT_MAX l) lat else t
    (judge t).syncWait q

/-- One admission slot (R97): the slot's queue and what becomes of its record. -/
def State.admitSlot (s : State) (l j lat : Nat) (judge : Nat → Rec → State → State) : State :=
  let c := slotCycle l j
  let x := s.lane l
  let s := s.putLane l { x with next := j + 1 }
  let x := s.lane l
  if (s.get R.VAL_CTL_LANEEN).testBit l = false ∨ s.now < x.resume then s.putLane l { x with idle := x.idle + 1 }
  else
    let p := s.pick l c (s.laneOrder l) 0
    let s := if p.1 = 0 then s else s.bumpBy (R.VAL_ADM_SKIP l) p.1
    match p.2 with
    | none => s.putLane l { s.lane l with idle := x.idle + 1 }
    | some qr => s.takeRecord l c qr.1 lat qr.2 (judge qr.1 qr.2)

/-- ADMISSION_SLOT (R95-R98, R112-R118): slot j of lane l in the compute phase; `lat` is the latency that the record takes. -/
def execAdmissionSlot (l : Fin 4) (j : Fin 125) (lat : Fin 461) (s : State) : Out :=
  .next (s.run (fun s =>
    if s.phase = .compute ∧ (s.lane l).next ≤ j then
      s.admitSlot l j lat (fun q r s => s.validate l q r)
    else s))

/-- FENCE_RELEASE (R55, R56): every record admitted before the fence has its verdict and ledger entry. -/
def execFenceRelease (q : Fin 32) (s : State) : Out :=
  .next (s.run (fun s =>
    if s.unsent q = 0 then (s.putQueue q { s.queue q with fenced := false }).syncWait q else s))

/-- The lane reset as an engine (R97, R121). -/
def State.resetLane (s : State) (l : Nat) : State :=
  (s.flagBit R.VAL_STAT_LANEFLT l).putLane l { s.lane l with last := 31, resume := s.now + 2, held := none }

/-- LANE_FAULT (R121): a fault while the lane holds the record taken at slot j, or while it holds none.  DESIGN CHOICE (assumption 129): a
record that a fault ends has no latency, so VAL_LATl.MAX stays. -/
def execLaneFault (l : Fin 4) (j : Option (Fin 125)) (s : State) : Out :=
  .next (s.run (fun s =>
    match j with
    | none => s.resetLane l
    | some j =>
      if s.phase = .compute ∧ (s.lane l).next ≤ j then
        (s.admitSlot l j 0 (fun q r s => s.faultVerdict l q r)).resetLane l
      else s.resetLane l))

/-- LANE_RESUME (R121): the lane admits again from the second tick after the fault; it does so by itself when its tick comes. -/
def execLaneResume (l : Fin 4) (s : State) : Out :=
  .next (s.run (fun s => if (s.lane l).resume ≤ s.now then s.putLane l { s.lane l with resume := 0 } else s))

end Sys2Proof.Machine
end

