-- ==== Sys2Proof/Machine/Link.lean ====
section
/-!
DEFINITION. What the link layers of every meter port share (R228, R238-R241, R252, R257, R267): served entries, link
statistics, records received into a queue frame and their verdicts, misses and LOST.
-/
namespace Sys2Proof.Machine

/-! ### Directory entries of a port -/

/-- The short address and the relay of an entry (R104). -/
def State.shortAddr (s : State) (i : Nat) : Nat := s.dirNat i 12 2
def State.relayAddr (s : State) (i : Nat) : Nat := s.dirNat i 14 2

/-- Whether an entry is served by a port (R228, R257): METER, port, address 0001h-FFFDh, and on a power-line port status ACTIVE or
QUARANTINE; on M-Bus a primary address of R259 in its low byte (R260). -/
def State.serves (s : State) (port i : Nat) : Bool :=
  decide (s.dirMeter i ≠ 0) && decide (s.servingPort i = port) && decide (1 ≤ s.shortAddr i) &&
    decide (s.shortAddr i ≤ 0xFFFD) && (decide (4 ≤ port) || decide (s.dirNat i 9 1 ≤ 1)) &&
    (decide (port ≠ 12 ∧ port ≠ 13) || decide (1 ≤ s.shortAddr i % 256 ∧ s.shortAddr i % 256 ≤ 250))

/-- The Heart note of CHG_MTR, the device's own meter, in the epoch of its directory entry, when it is present. -/
def State.ownKey (s : State) (i : Nat) : Option (List Byte) :=
  let m := s.get R.CHG_MTR_METER
  let ep := s.dirNat i 10 2
  match s.heartOf (domainOf m) ep with
  | some h => h.note.map (fun n => meterKey n m ep)
  | none => none

/-- The entries served by a port from an index on, in ascending order. -/
def State.servedFrom (s : State) (port i : Nat) : List Nat :=
  (List.range (65536 - i)).map (fun k => i + k) |>.filter (s.serves port)

/-- The served entry of a port with a short address. -/
def State.byAddr (s : State) (port addr : Nat) : Option Nat :=
  (List.range 65536).find? (fun i => s.serves port i && decide (s.shortAddr i = addr))

/-! ### Link statistics -/

/-- A 16-bit statistic advanced by one. -/
def State.stat16 (s : State) (i off : Nat) : Nat × List Byte := (off, leBytes 2 (s.dirNat i off 2 + 1))

/-- Byte 77 of the statistics with bits replaced. -/
def State.stat77 (s : State) (i lo w v : Nat) : Nat :=
  let b := s.dirNat i 77 1
  b - bitsOf b lo w * 2 ^ lo + v % 2 ^ w * 2 ^ lo

/-- The statistics of an ANSWERED slot: it is a poll when the slot was one (R252), and the meter misses no round (R241). -/
def State.statAnswered (s : State) (i : Nat) (poll : Bool) : List (Nat × List Byte) :=
  (if poll then [s.stat16 i 72] else []) ++ [s.stat16 i 74, (76, [0#8])]

/-- A missed round counted for a meter; after `retry` in a row it is LOST, reported once, by the power-line link or by the wired and radio
ports (R17, R445), and dropped from retries (R241, R257): true when it is to be retried. -/
def State.missRound (s : State) (port retry meter : Nat) : Bool × State :=
  let s := s.readCandidates meter
  match s.dirFind meter with
  | none => (false, s)
  | some i =>
    let n := satAdd 8 (s.dirNat i 76 1) 1
    if retry ≤ n then
      let was := (s.dirNat i 77 1).testBit 3
      let t := s.putStat i [(76, [BitVec.ofNat 8 n]), (77, [BitVec.ofNat 8 (s.stat77 i 3 1 1)])]
      (false, if was then t else t.raise 0x0A01 (if port < 4 then 10 else 11) 1 [(0, 4, meter), (4, 1, port)])
    else (true, s.putStat i [(76, [BitVec.ofNat 8 n])])

/-- The missed meters of a round: which are retried in the next one (R241). -/
def State.missRounds (s : State) (port retry : Nat) : List Nat → List Nat × State
  | [] => ([], s)
  | m :: l =>
    let a := s.missRound port retry m
    let b := a.2.missRounds port retry l
    (if a.1 then m :: b.1 else b.1, b.2)

/-! ### Records received and their verdicts -/

/-- The records of `k` at an offset of a received frame. -/
def recsAt (bs : List Byte) (off k : Nat) : List Rec := (List.range k).map (fun j => recOf (sliceB bs (off + 64 * j) 64))

/-- Records delivered as one queue frame whose source waits for the verdicts (R116, R238); false when refused (R80). -/
def State.deliverFrom (s : State) (q : Nat) (who : Waiter) (recs : List Rec) : Bool × State :=
  let t := s.openFrame q recs.length false
  if (t.queue q).frame.isSome then
    let u := t.commitFrame q recs
    let w := recs.filter (fun r => !(isFence r) && !(isPad r))
    (true, { u with val := { u.val with waits := u.val.waits ++ [⟨who, q, w.map (fun r => (r, none))⟩] } })
  else (false, t)

/-- Every record of a waiting frame has its verdict. -/
def Waiting.done (w : Waiting) : Bool := w.recs.all (fun x => x.2.isSome)

/-- The first waiting frame of a source that satisfies `p` and has all its verdicts, and the state without it. -/
def State.takeDone (s : State) (p : Waiter → Bool) : Option Waiting × State :=
  match s.val.waits.findIdx? (fun w => p w.who && w.done) with
  | none => (none, s)
  | some k => (s.val.waits[k]?, { s with val := { s.val with waits := s.val.waits.eraseIdx k } })

/-- PENDING of an entry cleared at the first ACCEPT of a record from the port (R247). -/
def State.clearPending (s : State) (port : Nat) (x : Rec × Option Nat) : State :=
  match x.2 with
  | none => s
  | some w =>
    let s := s.readCandidates (recMeter x.1)
    match s.dirFind (recMeter x.1) with
    | some i =>
      if w % 16 = 0 ∧ s.servingPort i = port ∧ (s.dirNat i 77 1).testBit 2 = true then
        s.putStat i [(77, [BitVec.ofNat 8 (s.stat77 i 2 1 0)])]
      else s
    | none => s

/-- Whether the current tick is a boundary tick B(n) (R135). -/
def State.atBoundary (s : State) : Bool := decide (s.bal.bound = some s.now)

end Sys2Proof.Machine
end

