-- ==== Sys2Proof/Machine/PlcCode.lean ====
section
/-!
DEFINITION. The coding of a Palx frame (R193-R207): header, Reed-Solomon code, scrambler, convolutional code, interleaver,
bursts, phase steps and samples; the bounded-distance Reed-Solomon decoder of a receiver; its reference power and impulse blocks.
-/
namespace Sys2Proof.Machine

/-! ### Sizes -/

/-- Carrier bits per data carrier of a MOD (R196): ROBUST and DBPSK 1, DQPSK 2, D8PSK 3. -/
def plcBits (mod : Nat) : Nat := max 1 mod

/-- Carrier bits of a symbol (R196). -/
def plcB (mod : Nat) : Nat := 45 * plcBits mod

/-- Payload symbols of burst 1 and of later bursts by frequency class, 1 for 50 and 2 for 60 (R197). -/
def plcC1 (cls : Nat) : Nat := if cls = 1 then 3 else 2
def plcC (cls : Nat) : Nat := if cls = 1 then 7 else 6

/-- Codewords of an L-byte PSDU (R202). -/
def plcWords (l : Nat) : Nat := ceilDiv l 239

/-- Coded bits of an L-byte PSDU (R204). -/
def plcCoded (l : Nat) : Nat := 2 * (8 * (l + 16 * plcWords l) + 6)

/-- Payload symbols (R205). -/
def plcSymbols (mod l : Nat) : Nat :=
  if mod = 0 then 4 * ceilDiv (plcCoded l) 45 else ceilDiv (plcCoded l) (plcB mod)

/-- Bursts of a frame (R197). -/
def plcBursts (cls mod l : Nat) : Nat :=
  let n := plcSymbols mod l
  if n ≤ plcC1 cls then 2 else 2 + ceilDiv (n - plcC1 cls) (plcC cls)

/-- The longest PSDU of a MOD at a frequency class (R206). -/
def plcMaxLen (cls mod : Nat) : Nat :=
  if mod = 0 then (if cls = 1 then 53 else 42) else if mod = 1 then (if cls = 1 then 251 else 225) else 400

/-! ### Header -/

/-- The CRC-8 of header bits 0 to 15, entered in that order (R198). -/
def headerCrc (h : Nat) : Nat :=
  (List.range 16).foldl (fun r i =>
    let r' := (2 * r) % 256
    if h.testBit i = r.testBit 7 then r' else r' ^^^ 7) 0

/-- The 24-bit header of a frame (R198). -/
def plcHeader (mod l : Nat) : Nat := let h := mod + 4 * l; h + 2 ^ 16 * headerCrc h

/-- MOD and LEN of a received header, when HCRC, the reserved bits and LEN pass (R200). -/
def headerParse (cls h : Nat) : Option (Nat × Nat) :=
  let mod := h % 4
  let l := bitsOf h 2 9
  if headerCrc (h % 2 ^ 16) = h / 2 ^ 16 ∧ bitsOf h 11 5 = 0 ∧ 1 ≤ l ∧ l ≤ plcMaxLen cls mod then some (mod, l) else none

/-! ### Reed-Solomon code (R202) -/

/-- Product in GF(2^8) with x^8 + x^4 + x^3 + x^2 + 1; `k` bits of `b` remain. -/
def gfMulFrom (a b : Nat) : Nat → Nat → Nat
  | 0, r => r
  | k + 1, r =>
    let d := if r.testBit 7 then (2 * r) % 256 ^^^ 0x1D else 2 * r
    gfMulFrom a b k (if b.testBit k then d ^^^ a else d)

def gfMul (a b : Nat) : Nat := gfMulFrom a b 8 0

/-- Powers in GF(2^8). -/
def gfPow (a : Nat) : Nat → Nat
  | 0 => 1
  | k + 1 => gfMul a (gfPow a k)

/-- The inverse of a nonzero element. -/
def gfInv (a : Nat) : Nat := gfPow a 254

/-- α^k with α = 02h. -/
def gfExp (k : Nat) : Nat := gfPow 2 (k % 255)

/-- The value of a polynomial, highest degree first. -/
def polyAt (x : Nat) (p : List Nat) : Nat := p.foldl (fun r c => gfMul r x ^^^ c) 0

/-- g(x) without its leading 1, highest degree first. -/
def rsGen : List Nat :=
  ((List.range 16).foldl (fun (g : List Nat) i =>
    (g ++ [0]).zipWith (· ^^^ ·) (0 :: g.map (gfMul (gfExp i)))) [1]).drop 1

/-- The 16 parity bytes of a codeword. -/
def rsParity (data : List Nat) : List Nat :=
  data.foldl (fun r d =>
    let f := d ^^^ nth r 0 0
    ((r.drop 1) ++ [0]).zipWith (fun a g => a ^^^ gfMul f g) rsGen) (List.replicate 16 0)

/-- The data bytes of the codewords of a PSDU (R202). -/
def rsSplit (n : Nat) (l : Nat) : Nat → Nat → List Byte → List (List Byte)
  | 0, _, _ => []
  | f + 1, j, bs =>
    let k := l / n + (if j < l % n then 1 else 0)
    bs.take k :: rsSplit n l f (j + 1) (bs.drop k)

/-- The RS output of a PSDU (R202). -/
def rsEncode (psdu : List Byte) : List Byte :=
  let n := plcWords psdu.length
  (rsSplit n psdu.length n 0 psdu).flatMap (fun d =>
    d ++ (rsParity (d.map BitVec.toNat)).map (BitVec.ofNat 8))

/-- The syndromes of a received word. -/
def rsSyndromes (w : List Nat) : List Nat := (List.range 16).map (fun i => polyAt (gfExp i) w)

/-- One step of Berlekamp and Massey: locator C and previous B, lowest degree first, length L, shift m, discrepancy b. -/
def bmStep (syn : List Nat) (st : List Nat × List Nat × Nat × Nat × Nat) (n : Nat) : List Nat × List Nat × Nat × Nat × Nat :=
  let (c, b, l, m, d0) := st
  let d := (List.range (l + 1)).foldl (fun a i => a ^^^ gfMul (nth c i 0) (nth syn (n - i) 0)) 0
  if d = 0 then (c, b, l, m + 1, d0)
  else
    let k := gfMul d (gfInv d0)
    let sh := List.replicate m 0 ++ b.map (gfMul k)
    let len := max c.length sh.length
    let c' := (List.range len).map (fun i => nth c i 0 ^^^ nth sh i 0)
    if 2 * l ≤ n then (c', c, n + 1 - l, 1, d) else (c', b, l, m + 1, d0)

/-- The error locator and its length. -/
def rsLocator (syn : List Nat) : List Nat × Nat :=
  let r := (List.range 16).foldl (bmStep syn) ([1], [1], 0, 1, 1)
  (r.1, r.2.2.1)

/-- The word with up to 8 byte errors corrected and how many were (R202); none where there is no such codeword. -/
def rsCorrect (w : List Nat) : Option (List Nat × Nat) :=
  let syn := rsSyndromes w
  if syn.all (fun x => decide (x = 0)) then some (w, 0)
  else
    let loc := rsLocator syn
    let lam := loc.1
    let om := (List.range 16).map (fun i =>
      (List.range (i + 1)).foldl (fun a j => a ^^^ gfMul (nth lam j 0) (nth syn (i - j) 0)) 0)
    let der := (List.range 16).map (fun i => if i % 2 = 0 then nth lam (i + 1) 0 else 0)
    let n := w.length
    let fixed := (List.range n).map (fun i =>
      let x := gfExp (n - 1 - i)
      let xi := gfInv x
      if polyAt xi lam.reverse = 0 then
        (nth w i 0 ^^^ gfMul x (gfMul (polyAt xi om.reverse) (gfInv (polyAt xi der.reverse))), 1)
      else (nth w i 0, 0))
    let w' := fixed.map Prod.fst
    let k := (fixed.map Prod.snd).foldl (· + ·) 0
    if loc.2 ≤ 8 ∧ k = loc.2 ∧ (rsSyndromes w').all (fun x => decide (x = 0)) then some (w', k) else none

/-- The PSDU of an RS stream and the bytes corrected, codeword by codeword (R202, R219). -/
def rsDecodeFrom (n l : Nat) : Nat → Nat → List Byte → Option (List Byte × Nat)
  | 0, _, _ => some ([], 0)
  | f + 1, j, bs =>
    let k := l / n + (if j < l % n then 1 else 0)
    match rsCorrect ((sliceB bs 0 (k + 16)).map BitVec.toNat), rsDecodeFrom n l f (j + 1) (bs.drop (k + 16)) with
    | some r, some t => some ((r.1.take k).map (BitVec.ofNat 8) ++ t.1, r.2 + t.2)
    | _, _ => none

def rsDecode (l : Nat) (bs : List Byte) : Option (List Byte × Nat) := rsDecodeFrom (plcWords l) l (plcWords l) 0 bs

/-! ### Bits -/

/-- The bits of bytes, least significant first (R201). -/
def bitsOfBytes (bs : List Byte) : List Bool := bs.flatMap (fun b => (List.range 8).map (fun i => b.toNat.testBit i))

/-- Bytes from bits, least significant first. -/
def bytesOfBits (fuel : Nat) (l : List Bool) : List Byte :=
  match fuel with
  | 0 => []
  | f + 1 => if l.isEmpty then [] else
      BitVec.ofNat 8 ((List.range 8).foldl (fun n i => if nth l i false then n + 2 ^ i else n) 0) :: bytesOfBits f (l.drop 8)

/-- The scrambler (R203): r1 is bit 0 of the register, r7 bit 6. -/
def scramble : Nat → List Bool → List Bool
  | _, [] => []
  | r, b :: t =>
    let s := r.testBit 6 != r.testBit 3
    (b != s) :: scramble ((2 * r + b2n s) % 128) t

/-- The convolutional encoder (R204): generators 133 and 171 octal. -/
def convolve : Nat → List Bool → List Bool
  | _, [] => []
  | st, b :: t =>
    let r := 64 * b2n b + st
    decide (popCount 7 (r &&& 0x5B) % 2 = 1) :: decide (popCount 7 (r &&& 0x79) % 2 = 1) :: convolve (r / 2) t

/-- Six zero tail bits. -/
def tail6 : List Bool := List.replicate 6 false

/-- The coded payload bits of a PSDU (R201-R204). -/
def plcCode (psdu : List Byte) : List Bool := convolve 0 (scramble 127 (bitsOfBytes (rsEncode psdu)) ++ tail6)

/-! ### Symbols -/

/-- The phase steps of a symbol's carrier bits, in units of π/4 (R196). -/
def phaseSteps (m : Nat) (bits : List Bool) : List Nat :=
  (List.range 45).map (fun d =>
    let v := (List.range m).foldl (fun n i => 2 * n + b2n (nth bits (m * d + i) false)) 0
    if m = 1 then 4 * v else if m = 2 then nth [0, 2, 6, 4] v 0 else nth [0, 1, 3, 2, 7, 6, 4, 5] v 0)

/-- The four header symbols (R199). -/
def headerSymbols (mod l : Nat) : List (List Nat) :=
  let code := convolve 0 ((List.range 24).map (fun i => (plcHeader mod l).testBit i) ++ tail6)
  (List.range 4).map (fun y => phaseSteps 1 ((List.range 45).map (fun c => nth code ((45 * y + c) % 60) false)))

/-- Interleaved symbol s of a payload (R207). -/
def payloadSymbol (mod nsym : Nat) (code : List Bool) (s : Nat) : List Nat :=
  let b := plcB mod
  phaseSteps (plcBits mod) ((List.range b).map (fun q =>
    if mod = 0 then nth code ((q + 45 * 3 - 11 * (s % 4)) % 45 * (nsym / 4) + s / 4) false
    else nth code ((q + 13 * s * (b - 1)) % b * nsym + s) false))

/-- Payload symbols of burst b of a frame (R197). -/
def burstLen (cls nsym b : Nat) : Nat :=
  if b = 1 then min nsym (plcC1 cls) else min (nsym - plcC1 cls - plcC cls * (b - 2)) (plcC cls)

/-- The payload slots of a frame in transmission order (R207): burst and position. -/
def slotList (cls mod l : Nat) : List (Nat × Nat) :=
  let nsym := plcSymbols mod l
  let bs := (List.range (plcBursts cls mod l - 1)).map (· + 1)
  (List.range 7).flatMap (fun p => (bs.filter (fun b => decide (p < burstLen cls nsym b))).map (fun b => (b, p)))

/-- The bursts of a frame, each a list of symbols (R195, R197). -/
def plcFrameBursts (cls mod : Nat) (psdu : List Byte) : List (List (List Nat)) :=
  let l := psdu.length
  let nsym := plcSymbols mod l
  let code := plcCode psdu
  let slots := slotList cls mod l
  let sym := fun b p => payloadSymbol mod nsym code ((slots.findIdx? (fun x => decide (x = (b, p)))).getD 0)
  [[8], [8], [8], [8], [8], [8], [9]] ::
    (List.range (plcBursts cls mod l - 1)).map (fun i =>
      (if i = 0 then headerSymbols mod l else []) ++ (List.range (burstLen cls nsym (i + 1))).map (sym (i + 1)))

/-! ### Carriers and samples (R193, R195) -/

/-- The reference carrier, and the carrier of data carrier d (R193). -/
def refCarrier : Nat := 44
def dataCarrier (d : Nat) : Nat := 45 + d

/-- The carriers in use, all of one amplitude; every other carrier is zero (R193, R195). -/
def carriers : List Nat := refCarrier :: (List.range 45).map dataCarrier

/-- The frequency of carrier k in units of 0.1 mHz: k times 976.5625 Hz, the bin spacing of 512 points at 500 kHz (R193). -/
def carrierFreq (k : Nat) : Nat := k * 9765625

/-- One turn of a carrier's phase: in these units π/4, the phases of P and the advance of a carrier in one sample are whole numbers. -/
def turn : Nat := 11776

/-- The angle of carrier k at sample n of a symbol that it starts at angle `a`: k/512 of a turn for each sample (R193, R195). -/
def angleAt (k a n : Nat) : Nat := (a + 23 * k * n) % turn

/-- φ_k = π (k − 44)² / 46 (R195). -/
def preamblePhase (k : Nat) : Nat := 128 * (k - 44) ^ 2 % turn

/-- θ of the reference carrier and of every data carrier, in units of π/4: each is that of the carrier below it plus its step (R196). -/
def carrierPhases : Nat → List Nat → List Nat
  | th, [] => [th]
  | th, d :: t => th :: carrierPhases ((th + d) % 8) t

/-- Samples of a symbol (R195): P and S have 512, others 576 with their prefix of 64. -/
def symbolSamples (y : List Nat) : Nat := if y.length = 1 then 512 else 576

/-- The angles at which the carriers of a symbol start (R195): φ of P, half a turn more for S, and for a header or data symbol θ less the
64 samples of the prefix, k/8 of a turn.  Sample n of the symbol is the sum of the cosines of `angleAt` over the carriers. -/
def symbolStart (y : List Nat) : List Nat :=
  if y = [8] then carriers.map preamblePhase
  else if y = [9] then carriers.map (fun k => (preamblePhase k + 5888) % turn)
  else (carriers.zip (carrierPhases 0 y)).map (fun e => 1472 * ((e.2 + 7 * e.1) % 8))

/-- The receiver's window: 512 samples from sample 32 of the cyclic prefix on (R211). -/
def fftFirst : Nat := 32

/-- The phase step from carrier k to the next that the window shows of a symbol whose carriers start at angles `a` and `b`, less the part
that the window's place in the prefix gives (R196, R211). -/
def windowStep (k a b : Nat) : Nat := (angleAt (k + 1) b fftFirst + (turn - angleAt k a fftFirst) + 23 * (64 - fftFirst)) % turn

/-- A symbol as it is sent: the attenuation (R221), its samples and the angles at which its carriers start. -/
def symbolBytes (att : Nat) (y : List Nat) : List Byte :=
  BitVec.ofNat 8 att :: (leBytes 2 (symbolSamples y) ++ (symbolStart y).flatMap (leBytes 2))

/-- Samples of a burst (R195). -/
def burstSamples (b : List (List Nat)) : Nat := b.foldl (fun n y => n + symbolSamples y) 0

/-! ### Powers (R217, R218) -/

/-- A power lies more than `e` dB above `a`: p / a above 10^(e/10), as whole numbers. -/
def louder (p a : Nat) (e : Int) : Bool :=
  decide (a ^ 10 * 10 ^ e.toNat < p ^ 10 * 10 ^ (-e).toNat)

/-- The reference power of a frame lies 6 dB higher for each step it has followed (R217); a power more than `e` dB above it. -/
def PlcRx.above (r : PlcRx) (e : Int) (p : Nat) : Bool := louder p r.ref (6 * r.step + e)

/-- A power more than 6 dB below the reference. -/
def PlcRx.below (r : PlcRx) (p : Nat) : Bool := decide (p ^ 10 * 10 ^ (6 - 6 * r.step).toNat < r.ref ^ 10 * 10 ^ (6 * r.step - 6).toNat)

/-- Block j of a burst overlaps the samples from `a` up to `b` of it: block 1 is the one in which the burst starts (R218). -/
def blockMeets (x : BurstIn) (j a b : Nat) : Bool :=
  decide (64 * j < b + 64 + x.lead.val) && decide (a + x.lead.val < 64 * j)

/-- The reference after the cyclic prefix of a burst's first symbol (R217): a power more than 6 dB from it moves it one step, unless one
of its blocks or the one before is an impulse block. -/
def PlcRx.follow (r : PlcRx) (thr : Nat) (x : BurstIn) : PlcRx :=
  let held := (List.range x.blocks.length).any (fun j =>
    (decide (j = 0) || blockMeets x j 0 64) && r.above thr (nth x.blocks j 0))
  if held then r
  else if r.above 6 x.pre then { r with step := r.step + 1 }
  else if r.below x.pre then { r with step := r.step - 1 }
  else r

/-- Symbol y of a burst overlaps an impulse block (R218): blocks that meet the first prefix are judged by the reference before it. -/
def PlcRx.hit (r : PlcRx) (thr : Nat) (x : BurstIn) (y : Nat) : Bool :=
  (List.range x.blocks.length).any (fun j =>
    blockMeets x j (576 * y) (576 * y + 576) &&
      (if blockMeets x j 0 64 then r else r.follow thr x).above thr (nth x.blocks j 0))

end Sys2Proof.Machine
end

