-- ==== Sys2Proof/Machine/Plc.lean ====
section
/-!
DEFINITION. The power-line PHY (R192-R226) on its ports: readiness, requests, bursts, reception up to the header.  Instants are
elapsed device time in 2^-16 ns, which steps do not move.
-/
namespace Sys2Proof.Machine

/-- An idle zero-crossing instance. -/
def zc0 (_ : Nat) : Zc := {}

/-- The tracker of voltage channel v (R213). -/
def State.zcx (s : State) (v : Nat) : Zc := SMap.get zc0 s.mtr.zc v

/-- An instance replaced. -/
def State.putZc (s : State) (v : Nat) (z : Zc) : State := { s with mtr := { s.mtr with zc := SMap.put zc0 s.mtr.zc v z } }

/-- A port without a frame. -/
def plcPort0 (_ : Nat) : PlcPort := {}

/-- PLC port p. -/
def State.plcPort (s : State) (p : Nat) : PlcPort := SMap.get plcPort0 s.plc p

/-- 1 ns in the units of instants. -/
def nsU : Int := 65536

/-- The instant at which the current tick started. -/
def State.instant (s : State) : Int := nth s.mtr.inst 0 0

/-- The device time that the current tick adds (R275, R276), in 2^-16 ns. -/
def State.tickSpan (s : State) : Int := (s.tsq.len * s.tim.rate / 2 ^ 33 : Nat)

/-- The reference channel of a port (R208). -/
def State.zsrc (s : State) (p : Nat) : Nat := s.get (R.PLC_CTL_ZSRC p)

/-- The frequency class at a port, 1 for 50 and 2 for 60 (R208). -/
def State.plcClass (s : State) (p : Nat) : Nat := s.get (R.ZCX_STAT_FCLASS (s.zsrc p))

/-- READY of every port brought up to its tracker (R208). -/
def State.syncReady (s : State) : State :=
  [0, 1, 2, 3].foldl (fun (s : State) p =>
    s.set (R.PLC_STAT_READY p) (b2n (s.on (R.ZCX_STAT_LOCK (s.zsrc p)) &&
      (decide (s.plcClass p = 1) || decide (s.plcClass p = 2))))) s

/-- A port replaced, with TXBUSY and RXBUSY following it. -/
def State.putPlc (s : State) (p : Nat) (x : PlcPort) : State :=
  (({ s with plc := SMap.put plcPort0 s.plc p x }).set (R.PLC_STAT_TXBUSY p) (b2n x.tx.isSome)).set
    (R.PLC_STAT_RXBUSY p) (b2n x.rx.isSome)

/-- The predicted half-cycle of a port's tracker, and its crossing. -/
def State.halfCycle (s : State) (p : Nat) : Nat := (s.zcx (s.zsrc p)).n
def State.crossing (s : State) (p : Nat) : Int := ((s.zcx (s.zsrc p)).lock.map Prod.fst).getD 0

/-- The device time that `n` control-clock cycles add at the present rate, in 2^-16 ns (R275, R276). -/
def State.cycleSpan (s : State) (n : Nat) : Int := (n * s.tim.rate / 2 ^ 33 : Nat)

/-- The duration of `n` PLC samples: 500 control-clock cycles each (R192). -/
def State.plcSpan (s : State) (n : Nat) : Int := s.cycleSpan (500 * n)

/-- PLCp_CTL.OFFS as a duration (R192, R209). -/
def State.plcOffset (s : State) (p : Nat) : Int := s.plcSpan (s.get (R.PLC_CTL_OFFS p))

/-- The PLC sample nearest an instant (R192, R209): the sample clock counts the control clock from the release of the main clusters on
(DESIGN CHOICE, assumption 135). -/
def State.nearestSample (s : State) (z : Int) : Int :=
  let first := s.instant + s.cycleSpan ((500 - s.tsq.div) % 500)
  let u := s.plcSpan 1
  first + (z - first + u / 2) / u * u

/-- The instant at which a burst of the predicted half-cycle starts (R209). -/
def State.burstAt (s : State) (p : Nat) : Int := s.nearestSample (s.crossing p + s.plcOffset p)

/-- The device time of an instant near the current tick. -/
def State.deviceAt (s : State) (z : Int) : Int := ((s.tim.start / 2 ^ 33 : Nat) : Int) + (z - s.instant)

/-- TXEN of a port takes a level at an instant, recorded with the lower 32 bits of its device time in ns (R221). -/
def State.txEnable (s : State) (p : Nat) (level : Bool) (at_ : Int) : State :=
  s.send (.pin "PLC_TXEN") ([BitVec.ofNat 8 p, BitVec.ofNat 8 (b2n level)] ++ leBytes 4 (s.deviceAt at_ / nsU).toNat)

/-- Whether the drop function acts on a port and direction (R522). -/
def State.plcDrops (s : State) (p dir : Nat) : Bool :=
  decide (s.get R.PRT_PLCDROP_PORT = p) && decide (s.get R.PRT_PLCDROP_DIR = dir) && decide (0 < (s.plcPort p).drops)

/-- Whether a request is accepted (R216): the port enabled, READY and idle, LEN within R206, burst 0 in half-cycle `hc` no less
than 500 µs away. -/
def State.plcFree (s : State) (p mod hc len : Nat) : Bool :=
  s.on (R.PLC_CTL_EN p) && s.on (R.PLC_STAT_READY p) && (s.plcPort p).tx.isNone && (s.plcPort p).rx.isNone &&
    decide (1 ≤ len ∧ len ≤ plcMaxLen (s.plcClass p) mod) &&
    (decide (s.halfCycle p < hc) ||
      (decide (s.halfCycle p = hc) && decide (s.instant + 500000 * nsU ≤ s.burstAt p)))

/-- A request of the link layer, accepted or refused (R216): the frame is coded (R198-R207) and its bursts wait. -/
def State.plcRequest (s : State) (p mod hc : Nat) (psdu : List Byte) : Bool × State :=
  let x := s.plcPort p
  if s.plcFree p mod hc psdu.length then
    let d := s.plcDrops p 0
    let t : PlcTx := { mod := mod, psdu := psdu, bursts := plcFrameBursts (s.plcClass p) mod psdu, hc := hc,
                       drop := if d then s.get R.PRT_PLCDROP_MASK else 0 }
    (true, s.putPlc p { x with tx := some t, refused := false, drops := if d then x.drops - 1 else x.drops })
  else (false, s.putPlc p { x with refused := true })

/-- The port that a loopback pairs with `p` (R523). -/
def State.plcPeer (s : State) (p : Nat) : Option Nat :=
  let k := s.get R.PRT_LOOP_PLCPAIR
  if k = 0 ∨ s.get R.KEY_LC_STATE ≠ lcTest then none
  else if p = 3 then some (k - 1) else if p = k - 1 then some 3 else none

/-- The next symbol of the running burst leaves once it starts in or before the current tick; TXEN stays asserted until 20 µs after its
last sample (R195, R221). -/
def State.sendSymbol (s : State) (p : Nat) : State :=
  match (s.plcPort p).tx with
  | none => s
  | some t =>
    match t.cur with
    | [] => s
    | y :: rest =>
      if t.next < s.instant + s.tickSpan then
        let ends := t.next + s.plcSpan (symbolSamples y)
        (s.send (.plc p) (symbolBytes (s.get (R.PLC_CTL_TXATT p)) y)).putPlc p { s.plcPort p with
          tx := some { t with cur := rest, next := ends }, txen := some (ends + 20000 * nsU) }
      else s

/-- TXEN falls 20 µs after the last sample (R221). -/
def State.endEnable (s : State) (p : Nat) : State :=
  match (s.plcPort p).txen with
  | some z =>
    if z < s.instant + s.tickSpan then (s.putPlc p { s.plcPort p with txen := none }).txEnable p false z else s
  | none => s

/-- The symbols that start in the tick, and the ends of TXEN (R195, R221). -/
def State.plcTransmit (s : State) : State := [0, 1, 2, 3].foldl (fun s p => (s.sendSymbol p).endEnable p) s

/-- The start of a frame's next burst in its half-cycle (R209, R221), once its instant lies in or before the current tick: TXEN is asserted
20 µs before it, and its symbols follow one by one.  A dropped burst is not sent and TXEN stays inactive (R522); a paired port's samples
go to its peer instead (R523), which does not receive a dropped burst either. -/
def State.startBurst (s : State) (p : Nat) : State :=
  match (s.plcPort p).tx with
  | none => s
  | some t =>
    match t.bursts with
    | [] => s
    | b :: rest =>
      if s.on (R.PLC_STAT_READY p) ∧ s.halfCycle p = t.hc ∧ s.burstAt p < s.instant + s.tickSpan then
        let gone := t.drop.testBit t.idx
        let begins := s.burstAt p
        let ends := begins + s.plcSpan (burstSamples b)
        let peer := s.plcPeer p
        let sends := !gone && peer.isNone
        let s := s.putPlc p { s.plcPort p with
          tx := some { t with bursts := rest, hc := t.hc + 1, idx := t.idx + 1, ends := ends,
                              cur := if sends then b else [], next := begins } }
        match peer with
        | some q =>
          let y := s.plcPort q
          if t.idx = 0 then (if gone then s else s.putPlc q { y with air := some (t.mod, t.psdu) })
          else if gone then s.putPlc q { y with rx := y.rx.map (fun (r : PlcRx) => { r with drop := r.drop ||| 2 ^ t.idx }) }
          else s
        | none => if gone then s else (s.txEnable p true (begins - 20000 * nsU)).sendSymbol p
      else s

/-- The start of burst b of a frame that is received, as far as its crossing is fixed and not past by more than one (R210, R211): its
prediction plus OFFS, shifted by the deviation of burst 0. -/
def State.rxStart (s : State) (p : Nat) (r : PlcRx) (b : Nat) : Option Int :=
  let z := s.zcx (s.zsrc p)
  let c := if z.n = r.hc + b then some (s.crossing p) else if z.n = r.hc + b + 1 then some z.prior else none
  c.map (fun c => c + s.plcOffset p + r.dev)

/-- `n` samples of burst b have passed when the current tick starts (R212). -/
def State.rxPast (s : State) (p : Nat) (r : PlcRx) (b n : Nat) : Bool :=
  match s.rxStart p r b with
  | some z => decide (z + s.plcSpan n ≤ s.instant)
  | none => decide (r.hc + b + 1 < s.halfCycle p)

/-- Samples of the last burst of a frame with header and payload (R195, R197). -/
def lastSamples (cls mod len : Nat) : Nat :=
  let nb := plcBursts cls mod len
  576 * ((if nb = 2 then 4 else 0) + burstLen cls (plcSymbols mod len) (nb - 1))

/-- The frame that a port receives has ended: its last burst is past, as its header has it (R212). -/
def State.rxOver (s : State) (p : Nat) (r : PlcRx) : Bool :=
  match r.head with
  | none => false
  | some (mod, len) =>
    let cls := s.plcClass p
    s.rxPast p r (plcBursts cls mod len - 1) (lastSamples cls mod len)

/-- A frame whose last burst has ended was transmitted whole (R225); a received one frees the receiver and waits for its decoding (R212);
seen in a capture phase. -/
def State.endFrames (s : State) : State :=
  [0, 1, 2, 3].foldl (fun (s : State) p =>
    let x := s.plcPort p
    match x.tx, x.rx with
    | some t, _ =>
      if t.bursts = [] ∧ t.cur = [] ∧ t.ends ≤ s.instant then (s.putPlc p { x with tx := none }).wrap (R.PLC_CNT0_TXOK p) else s
    | none, some r =>
      if s.rxOver p r then s.putPlc p { x with rx := none, done := if r.long then x.done else x.done ++ [r] } else s
    | none, none => s) s

/-- The sync symbol of a frame detected (R211, R212, R217): the receiver is on, ready and idle, burst 0 lies within 1 ms of its expected
start, and is not dropped (R522); a paired port hears its peer only (R523).  The deviation, in ns, and the power of P2 and P3 are kept. -/
def State.plcSync (s : State) (p : Nat) (dev : Int) (gain ref : Nat) : State :=
  let x := s.plcPort p
  let hears := match s.plcPeer p with
    | some _ => x.air.isSome
    | none => true
  if s.on (R.PLC_CTL_EN p) ∧ s.on (R.PLC_STAT_READY p) ∧ x.tx = none ∧ x.rx = none ∧ hears = true ∧
      -1000000 ≤ dev ∧ dev ≤ 1000000 then
    let d := s.plcDrops p 1
    let x := { x with drops := if d then x.drops - 1 else x.drops }
    let gone := if d then s.get R.PRT_PLCDROP_MASK else 0
    if gone.testBit 0 then s.putPlc p x
    else
      let r : PlcRx := { hc := s.halfCycle p - 1, seen := s.seenTick, dev := dev * nsU, ref := ref, drop := gone, air := x.air }
      (s.putPlc p { x with rx := some r, air := none }).set (R.PLC_STAT_GAIN p) gain
  else s

/-- A reception that ends without a frame. -/
def State.dropRx (s : State) (p : Nat) : State := s.putPlc p { s.plcPort p with rx := none, air := none }

/-- Which of the first `n` symbols of burst b are erased (R218): those that overlap an impulse block; all of a burst that is dropped (R522)
or whose start is not accepted (R211; assumption 109). -/
def State.erasedIn (s : State) (p : Nat) (r : PlcRx) (b : Nat) (x : BurstIn) (n : Nat) : List Bool :=
  let lost := r.drop.testBit b || decide (64000 * nsU.natAbs < (x.dev * nsU - r.dev).natAbs)
  (List.range n).map (fun y => lost || r.hit (s.get (R.PLC_CFG_IMPTHR p)) x y)

/-- GAIN after a burst (R217): one step lower for a reference that rose, one higher for one that fell (assumption 109). -/
def State.stepGain (s : State) (p : Nat) (was now : PlcRx) : State :=
  let g := s.get (R.PLC_STAT_GAIN p)
  if was.step < now.step then s.set (R.PLC_STAT_GAIN p) (g - 1)
  else if now.step < was.step then s.set (R.PLC_STAT_GAIN p) (min 7 (g + 1))
  else s

/-- The header of a frame (R198-R200), received in burst 1 once its four symbols are past: MOD and LEN are taken, or the frame is dropped
and counted.  DESIGN CHOICE (assumption 109): a frame whose header fails frees the receiver at once, since no valid header gives an
end. -/
def State.plcHead (s : State) (p : Nat) (x : BurstIn) (h : Nat) : State :=
  match (s.plcPort p).rx with
  | none => s
  | some r =>
    if r.head.isSome ∨ s.rxPast p r 1 (4 * 576) = false then s
    else
      let thr := s.get (R.PLC_CFG_IMPTHR p)
      let h := match r.air with
        | some a => plcHeader a.1 a.2.length
        | none => h
      match (if (s.erasedIn p r 1 x 4).all id then none else headerParse (s.plcClass p) h) with
      | some m =>
        let n := burstLen (s.plcClass p) (plcSymbols m.1 m.2) 1
        let era := (((s.erasedIn p r 1 x (4 + n)).drop 4).filter id).length
        let r' := { r.follow thr x with head := some m, era := era }
        (s.putPlc p { s.plcPort p with rx := some r' }).stepGain p r r'
      | none => (s.dropRx p).bump (R.PLC_CNT1_HDRERR p)

/-- The erased payload symbols of the bursts from burst b on (R217, R218). -/
def State.erasedFrom (s : State) (p cls n : Nat) : Nat → PlcRx → List BurstIn → Nat
  | _, _, [] => 0
  | b, r, x :: t =>
    ((s.erasedIn p r b x (burstLen cls n b)).filter id).length +
      State.erasedFrom s p cls n (b + 1) (r.follow (s.get (R.PLC_CFG_IMPTHR p)) x) t

/-- GAIN after the bursts of a frame, one after another (R217). -/
def State.followGain (p : Nat) : State → PlcRx → List BurstIn → State
  | s, _, [] => s
  | s, r, x :: t =>
    let r' := r.follow (s.get (R.PLC_CFG_IMPTHR p)) x
    State.followGain p (s.stepGain p r r') r' t

/-- The frame that a port's PHY passes, and the state: erasures beyond ERAMAX drop it before decoding (R218), a codeword that
cannot be corrected drops it (R219).  `bursts` are bursts 2 to N − 1; one that is not given is erased. -/
def State.plcDecode (s : State) (p : Nat) (bursts : List BurstIn) (snr : Nat) (stream : List Byte) : Option PlcFrame × State :=
  let port := s.plcPort p
  match port.done with
  | [] => (none, s)
  | r :: rest =>
    let s := s.putPlc p { port with done := rest }
    match r.head with
    | none => (none, s)
    | some (mod, len) =>
      let cls := s.plcClass p
      let nb := plcBursts cls mod len
      let n := plcSymbols mod len
      let given := bursts.take (nb - 2)
      let missing := (List.range (nb - 2 - given.length)).foldl (fun a i => a + burstLen cls n (2 + given.length + i)) 0
      let e := r.era + s.erasedFrom p cls n 2 r given + missing
      let t := if port.rx.isNone then State.followGain p s r given else s
      if s.get (R.PLC_CFG_ERAMAX p) * n < e * 100 then (none, t.bump (R.PLC_CNT1_ERADROP p))
      else
        let bytes := match r.air with
          | some a => rsEncode a.2
          | none => bytesOfBits stream.length (scramble 127 (bitsOfBytes stream))
        match rsDecode len bytes with
        | none => (none, t.bump (R.PLC_CNT1_RSFAIL p))
        | some d =>
          let t := (t.wrap (R.PLC_CNT0_RXOK p)).setAll [(R.PLC_RXQ_MOD p, mod), (R.PLC_RXQ_LEN p, len),
            (R.PLC_RXQ_ERASED p, e), (R.PLC_RXQ_SNR p, snr), (R.PLC_RXQ_RSCORR p, min 255 d.2)]
          (some { psdu := d.1, mod := mod, snr := snr, erased := e, hc := r.hc, bursts := nb, seen := r.seen }, t)

/-- A frame on a port abandoned (R216); true when there was one.  A symbol that is being sent ends, and no other follows it. -/
def State.plcAbort (s : State) (p : Nat) : Bool × State :=
  let x := s.plcPort p
  if x.tx.isSome ∨ x.rx.isSome then
    (true, (s.putPlc p { x with tx := none, rx := none, air := none }).bump (R.PLC_CNT1_ABORT p))
  else (false, s)

/-! ### Commands -/

/-- PLC_BURST_START (R209). -/
def execPlcBurstStart (p : Fin 4) (s : State) : Out := .next (s.run (fun s => s.startBurst p))

end Sys2Proof.Machine
end

