-- ==== Sys2Proof/Machine/Plk.lean ====
section
/-!
DEFINITION. The Palx link layer (R227-R254): frames and their filter, sweeps, trains and slots, acknowledgements, joining,
downlink and campaigns of a master; the station of PLC3 in SLAVE role.
-/
namespace Sys2Proof.Machine

/-- A port's link layer at reset. -/
def plk0 (_ : Nat) : Plk := {}

/-- The link layer of port p. -/
def State.link (s : State) (p : Nat) : Plk := SMap.get plk0 s.plk p

/-- The link layer of a port replaced. -/
def State.putLink (s : State) (p : Nat) (x : Plk) : State := { s with plk := SMap.put plk0 s.plk p x }

/-- Roles (R227). -/
def State.isMaster (s : State) (p : Nat) : Bool := decide (s.get (R.PLK_CTL_ROLE p) = 1)
def State.isSlave (s : State) (p : Nat) : Bool := decide (p = 3) && decide (s.get (R.PLK_CTL_ROLE p) = 2)

/-- DATA slots are suspended (R242): the above flag of the port's queue. -/
def State.plcHold (s : State) (p : Nat) : Bool := s.on (R.QUE_STAT_ABOVE (s.get (R.PLK_CTL_QUEUE p)))

/-- HOLD of every master port brought up to the above flags (R242), and its address (R228, R253). -/
def State.syncHold (s : State) : State :=
  [0, 1, 2, 3].foldl (fun (s : State) p =>
    if s.isMaster p then s.setAll [(R.PLK_STAT_HOLD p, b2n (s.plcHold p)), (R.PLK_ADDR_ADDR p, 0xFFFE)] else s) s

/-- The MOD of an entry (R233): its statistic, held between MINMOD and MAXMOD. -/
def State.entryMod (s : State) (p i : Nat) : Nat :=
  max (s.get (R.PLK_MOD_MINMOD p)) (min (s.get (R.PLK_MOD_MAXMOD p)) (s.dirNat i 77 1 % 4))

/-- MOD_ADAPT after an ANSWERED slot (R233): the highest MOD whose SNR figure of R223 plus MARGIN the reply reaches. -/
def State.modFor (s : State) (p snr : Nat) : Nat :=
  let ok := [1, 2, 3].filter (fun m =>
    decide (m ≤ s.get (R.PLK_MOD_MAXMOD p)) && decide (nth [0, 4, 7, 12] m 0 + s.get (R.PLK_MOD_MARGIN p) ≤ snr))
  max (s.get (R.PLK_MOD_MINMOD p)) (ok.foldl max 0)

/-- A relay of a port: a served direct meter whose JOIN declared that it can (R244, R252). -/
def State.relayOk (s : State) (p addr : Nat) : Bool :=
  match s.byAddr p addr with
  | some j => decide (s.relayAddr j = 0) && (s.dirNat j 77 1).testBit 4
  | none => false

/-- The entries that a port's sweep polls from an index on (R241): every served meter, one behind a relay only where the relay is one
(R244). -/
def State.polledFrom (s : State) (p i : Nat) : List Nat :=
  (s.servedFrom p i).filter (fun j => decide (s.relayAddr j = 0) || s.relayOk p (s.relayAddr j))

/-- Bursts of a DATA frame of `n` records (R235, R237). -/
def State.dataBursts (s : State) (p mod n : Nat) : Nat := plcBursts (s.plcClass p) mod (3 + 64 * n)

/-- RMAX granted at a MOD (R235). -/
def State.rmaxAt (s : State) (p mod : Nat) : Nat :=
  let r := s.get (R.PLK_SCH_RMAX p) + 1
  if mod = 1 then min 3 r else r

/-- The first bytes of a master frame (R229). -/
def State.masterHead (s : State) (p ty : Nat) (relay : Option Nat) : List Byte :=
  let net := BitVec.ofNat 8 (s.get (R.PLK_CTL_NET p))
  match relay with
  | none => [BitVec.ofNat 8 ty, net]
  | some r => [BitVec.ofNat 8 (ty + 16), net] ++ leBytes 2 r

/-- A master frame sent by the PHY (R231, R238): none while the port is taken; the master's next frame waits for its end. -/
def State.masterSend (s : State) (p mod : Nat) (psdu : List Byte) : Option Nat × State :=
  let hc := max (s.halfCycle p) (s.link p).free
  let r := s.plcRequest p mod hc psdu
  if r.1 then
    let last := hc + plcBursts (s.plcClass p) mod psdu.length - 1
    (some last, r.2.putLink p { r.2.link p with free := last + 1 })
  else (none, r.2)

/-- Whether a master may start a frame of its own now: READY, no slot awaited, no JOIN to be answered, nothing queued that HOLD would
let go. -/
def State.masterIdle (s : State) (p : Nat) : Bool :=
  !((s.plcPort p).inbox.any (fun f => decide (leAt f.psdu 0 1 % 16 = 8))) &&
  s.isMaster p && s.on (R.PLC_STAT_READY p) && (s.link p).slots.isEmpty && ((s.link p).sendq.isEmpty || s.plcHold p) &&
    (match (s.link p).joins with
      | none => true
      | some j => decide (j.1 + j.2.1 * j.2.2 ≤ s.halfCycle p)) &&
    (match (s.link p).rjoin with
      | none => true
      | some j => decide (j.2.1 + j.2.2 ≤ s.halfCycle p))

/-! ### Frames received -/

/-- The type of a PSDU (R229). -/
def frameType (b : List Byte) : Nat := leAt b 0 1 % 16
def frameRly (b : List Byte) : Bool := (leAt b 0 1).testBit 4
def frameHop (b : List Byte) : Bool := (leAt b 0 1).testBit 5
def frameDseq (b : List Byte) : Nat := leAt b 0 1 / 64

/-- The body of a master frame (R229). -/
def masterBody (b : List Byte) : List Byte := b.drop (if frameRly b then 4 else 2)

/-- Whether a meter's frame has the length and the zero fields of its type (R229, R237, R240, R246). -/
def meterFrameOk (b : List Byte) : Bool :=
  let n := b.length
  let body := b.drop 3
  match frameType b with
  | 2 => decide (3 < n ∧ (n - 3) % 64 = 0 ∧ n ≤ 259)
  | 5 => decide (frameDseq b = 0 ∧ leAt body 0 1 < 16) &&
      (if (leAt body 0 1).testBit 3 then decide (n = 42) else decide (n = 8))
  | 6 => decide (frameDseq b = 0 ∧ n = 8 ∧ 1 ≤ leAt body 4 1 ∧ leAt body 4 1 ≤ 4)
  | 8 => decide (frameDseq b = 0 ∧ frameRly b = frameHop b ∧ n = 8 ∧ leAt b 6 1 < 16)
  | _ => false

/-- Whether a master's frame has the length and the zero fields of its type. -/
def masterFrameOk (b : List Byte) : Bool :=
  let body := masterBody b
  let n := body.length
  decide (frameDseq b = 0) &&
    (match frameType b with
    | 1 =>
      let e := leAt body 1 1 % 8
      decide (2 ≤ n ∧ e ≤ 4 ∧ (leAt body 1 1).testBit 3 = false ∧ n = 2 + 3 * e + 3 * (leAt body 1 1 / 16)) &&
        (List.range e).all (fun k => decide (leAt body (4 + 3 * k) 1 < 128)) &&
        (List.range (leAt body 1 1 / 16)).all (fun k => decide (leAt body (4 + 3 * e + 3 * k) 1 < 4))
    | 3 => decide (8 ≤ n ∧ n ≤ 208 ∧ 1 ≤ leAt body 6 1 ∧ leAt body 6 1 ≤ 4)
    | 4 => decide (n = 200 ∧ 1 ≤ leAt body 6 2 ∧ leAt body 6 2 ≤ 4096 ∧ leAt body 4 2 < leAt body 6 2)
    | 5 => decide (n = 7 ∧ leAt body 6 1 < 4)
    | 6 => decide (n = 8 ∧ leAt body 6 1 < 16)
    | 7 => decide (n = 2)
    | 9 => decide (n = 33 ∧ leAt body 4 1 < 4 ∧ leAt body 26 1 < 8)
    | _ => false)

/-- The slot of a master that a frame answers: it started in the slot's first half-cycle, was seen in time, and comes from the
meter that was polled (R230, R232). -/
def State.slotOf (s : State) (p : Nat) (f : PlcFrame) : Option Await :=
  (s.link p).slots.find? (fun w => decide (w.start = f.hc) && w.seen && decide (leAt f.psdu 1 2 = w.addr) &&
    decide (frameRly f.psdu = w.rly ∧ frameHop f.psdu = w.rly))

/-- Whether a frame lies in some slot that the master awaits, whoever sent it. -/
def State.inSlot (s : State) (p : Nat) (f : PlcFrame) : Bool :=
  (s.link p).slots.any (fun w => decide (w.start ≤ f.hc ∧ f.hc < w.start + w.len)) ||
    (match (s.link p).joins with
    | none => false
    | some j => decide (j.1 ≤ f.hc ∧ f.hc < j.1 + j.2.1 * j.2.2)) ||
    match (s.link p).rjoin with
    | none => false
    | some j => decide (j.2.1 ≤ f.hc ∧ f.hc < j.2.1 + j.2.2)

/-- A JOIN in a join slot of the last DISCOVER, or, repeated by the relay, in that of the last relayed one (R244, R246). -/
def State.joinSlot (s : State) (p : Nat) (f : PlcFrame) : Bool :=
  decide (leAt f.psdu 1 1 = s.get (R.PLK_CTL_NET p)) &&
    (if frameRly f.psdu then
      match (s.link p).rjoin with
      | none => false
      | some j => decide (j.2.1 = f.hc)
    else
      match (s.link p).joins with
      | none => false
      | some j => decide (j.1 ≤ f.hc ∧ (f.hc - j.1) % j.2.2 = 0))

/-- The filter of a master (R230): the frame is kept for the link layer, or dropped; one outside every slot is counted. -/
def State.masterFilter (s : State) (p : Nat) (f : PlcFrame) : State :=
  if s.inSlot p f = false then s.bump (R.PLK_CNT1_UNSOL p)
  else if meterFrameOk f.psdu = false then s
  else
    let good := if frameType f.psdu = 8 then s.joinSlot p f else (s.slotOf p f).isSome
    if good then s.putPlc p { s.plcPort p with inbox := some f } else s

/-- A BLOCK of a campaign that a station hears (R249): the block is kept with those of its image. -/
def State.takeBlock (s : State) (b : List Byte) : State :=
  let x := s.link 3
  let img := leAt b 0 4
  let cnt := leAt b 6 2
  let no := leAt b 4 2
  let had := match x.image with
    | some i => if i.1 = img ∧ i.2.1 = cnt then i.2.2 else []
    | none => []
  let l := if had.any (fun e => decide (e.1 = no)) then had else had ++ [(no, b.drop 8)]
  s.putLink 3 { x with image := some (img, cnt, l) }

/-- A NACK of the master above (R240): verdict 3, FORGED, is a key error to report. -/
def State.takeNack (s : State) (b : List Byte) : State :=
  if leAt b 6 1 % 16 = 3 then s.putLink 3 { s.link 3 with keyErr := true } else s

/-- The filter of a station (R230): NET, its own address or broadcast, and, for a relayed frame, the relay's repeat of it.  A BLOCK and a NACK
are taken at once. -/
def State.slaveFilter (s : State) (p : Nat) (f : PlcFrame) : State :=
  let b := f.psdu
  let ty := frameType b
  let joined := s.on (R.PLK_STAT_JOINED p)
  let net := leAt b 1 1
  let netOk := if joined then decide (net = s.get (R.PLK_ADDR_UPNET p))
    else decide (ty = 7 ∨ ty = 9 ∨ (ty = 5 ∧ (s.link p).joinNet = some net))
  let dest := leAt (masterBody b) 0 2
  let mine := match ty with
    | 3 | 6 => decide (dest = s.get (R.PLK_ADDR_ADDR p)) || decide (dest = 0xFFFF)
    | 5 => decide (leAt (masterBody b) 0 4 = s.get R.CHG_MTR_METER)
    | _ => true
  if masterFrameOk b && netOk && mine && decide (frameRly b = frameHop b) then
    if ty = 4 then s.takeBlock (masterBody b)
    else if ty = 6 then s.takeNack (masterBody b)
    else s.putPlc p { s.plcPort p with inbox := some f }
  else s

/-- A frame passed to the link layer (R219, R230). -/
def State.linkFilter (s : State) (p : Nat) (f : PlcFrame) : State :=
  if s.isMaster p then s.masterFilter p f else if s.isSlave p then s.slaveFilter p f else s

/-- A reply whose header implies more bursts than its slot is dropped and counted (R232); the receiver stays busy until its end. -/
def State.overSlot (s : State) (p : Nat) : State :=
  match (s.plcPort p).rx with
  | none => s
  | some r =>
    match r.head with
    | none => s
    | some (mod, len) =>
      let l := s.link p
      let n := plcBursts (s.plcClass p) mod len
      let long := l.slots.any (fun w => decide (w.start = r.hc ∧ w.len < n)) ||
        (match l.joins with
          | some j => decide (j.1 ≤ r.hc ∧ r.hc < j.1 + j.2.1 * j.2.2 ∧ (r.hc - j.1) % j.2.2 = 0 ∧ j.2.2 < n)
          | none => false) ||
        (match l.rjoin with
          | some j => decide (j.2.1 = r.hc ∧ j.2.2 < n)
          | none => false)
      if s.isMaster p ∧ long = true then
        (s.putPlc p { s.plcPort p with rx := some { r with long := true } }).bump (R.PLK_CNT1_OVERSLOT p)
      else s

/-- PLC_HEADER_DECODE (R200, R211, R217, R218, R232): what was measured of burst 1, and the 24 bits that the convolutional decoder gives for
the header. -/
def execPlcHeaderDecode (p : Fin 4) (b : BurstIn) (h : BitVec 24) (s : State) : Out :=
  .next (s.receive (.plcHeaderDecode p b h) (fun s =>
    let fresh := (s.plcPort p).rx.any (fun r => r.head.isNone)
    let t := s.plcHead p b h.toNat
    if fresh then t.overSlot p else t))

/-- PLC_FRAME_DECODE (R217-R219, R230): what was measured of bursts 2 to N − 1, the SNR estimate, and the stream that the convolutional
decoder gives, before descrambling. -/
def execPlcFrameDecode (p : Fin 4) (bursts : List BurstIn) (snr : Fin 64) (stream : List Byte) (s : State) : Out :=
  .next (s.receive (.plcFrameDecode p bursts snr stream) (fun s =>
    let r := s.plcDecode p bursts snr stream
    match r.1 with
    | none => r.2
    | some f => r.2.linkFilter p f))

/-- A frame that waits in a master under HOLD (R242): a DISCOVER is given up with its join slots; a NACK or a join answer waits. -/
def State.heldSend (s : State) (p : Nat) (ty : Nat) (rest : List (Nat × Nat × List Byte)) : State :=
  if ty = 7 then s.putLink p { s.link p with sendq := rest, joins := none } else s

/-- The next frame that waits in a master (R231, R242): no earlier than the half-cycle its last frame and the slots of that leave free, and
a join answer in half-cycle h + 2 after the one before it (R247).  A DISCOVER grants its join slots as it is sent (R246). -/
def State.sendMaster (s : State) (p : Nat) (f : Nat × Nat × List Byte) (rest : List (Nat × Nat × List Byte)) : State :=
  let ty := frameType f.2.2
  if s.plcHold p then s.heldSend p ty rest
  else
    let x := s.link p
    let hc := max (max (max f.2.1 x.free) (if ty = 5 then x.jack + 2 else 0)) (s.halfCycle p)
    let r := s.plcRequest p f.1 hc f.2.2
    if r.1 then
      let last := hc + plcBursts (s.plcClass p) f.1 f.2.2.length - 1
      let y := { x with sendq := rest, free := last + 1, jack := if ty = 5 then last else x.jack }
      let body := masterBody f.2.2
      let j := leAt body 0 1
      let sj := leAt body 1 1
      r.2.putLink p (if ty = 7 then { y with joins := some (last + 2, j, sj), free := last + 2 + j * sj } else y)
    else r.2

/-- The next frame that waits in a station: in the half-cycle granted to it, or not at all (R231). -/
def State.sendStation (s : State) (p : Nat) (f : Nat × Nat × List Byte) (rest : List (Nat × Nat × List Byte)) : State :=
  let x := s.link p
  if f.2.1 < s.halfCycle p then s.putLink p { x with sendq := rest }
  else
    let r := s.plcRequest p f.1 f.2.1 f.2.2
    r.2.putLink p { x with sendq := rest }

/-- PLC_TRANSMIT_REQUEST (R216): the next frame that waits in the link layer.  A port in role OFF has no link layer: there the request is
that of the operand (assumption 110). -/
def execPlcTransmitRequest (p mod : Fin 4) (psdu : List Byte) (s : State) : Out :=
  .next (s.run (fun s =>
    if s.isMaster p = false ∧ s.isSlave p = false then (s.plcRequest p mod (s.halfCycle p) psdu).2
    else
      match (s.link p).sendq with
      | [] => s
      | f :: rest => if s.isMaster p then s.sendMaster p f rest else s.sendStation p f rest))

/-! ### Sweeps and rounds -/

/-- A sweep starts (R241). -/
def State.beginSweep (s : State) (p : Nat) : State :=
  (s.putLink p { s.link p with cursor := 0, sweepAt := s.now, again := false }).setAll
    [(R.PLK_STAT_SWEEP p, 1), (R.PLK_STAT_LEFT p, (s.polledFrom p 0).length)]

/-- A sweep whose last meter has been polled ends (R241, R253). -/
def State.endSweep (s : State) (p : Nat) : State :=
  if s.on (R.PLK_STAT_SWEEP p) ∧ (s.link p).slots.isEmpty ∧ s.polledFrom p (s.link p).cursor = [] then
    ((s.setAll [(R.PLK_STAT_SWEEP p, 0), (R.PLK_STAT_LEFT p, 0),
      (R.PLK_SWEEP_LAST p, min 0xFFFF ((s.now - (s.link p).sweepAt) / ticksPerSec))]).wrap (R.PLK_SWEEP_COUNT p))
  else s

/-- SWEEP_START (R241): at a boundary tick, or after the sweep that ran over one; a sweep still running is counted. -/
def execSweepStart (p : Fin 4) (s : State) : Out :=
  .next (s.run (fun s =>
    let x := s.link p
    if s.isMaster p = false then s
    else if s.on (R.PLK_STAT_SWEEP p) then
      if s.atBoundary ∧ x.counted ≠ s.now then
        (s.putLink p { x with again := true, counted := s.now }).bump (R.PLK_CNT1_OVERRUN p)
      else s
    else if s.atBoundary ∨ x.again then s.beginSweep p else s))

/-- ROUND_END (R241): after RND seconds the missed meters enter the retry list of the next round. -/
def execRoundEnd (p : Fin 4) (s : State) : Out :=
  .next (s.run (fun s =>
    let x := s.link p
    if s.isMaster p ∧ x.roundAt + s.get (R.PLK_SCH_RND p) * ticksPerSec ≤ s.now then
      let r := s.missRounds p (s.get (R.PLK_SCH_RETRY p)) x.missed
      r.2.putLink p { r.2.link p with
        retry := x.retry ++ r.1.filter (fun m => !(x.retry.contains m)),
        missed := [], nacked := [], roundAt := s.now }
    else s))

/-- A miss counted (R232, R233): the meter's MOD falls by one step, not below MINMOD; a poll counts as one (R252). -/
def State.countMiss (s : State) (p : Nat) (w : Await) (poll : Bool) : State :=
  let t := (s.bump (R.PLK_CNT1_MISSED p)).readCandidates w.meter
  match t.dirFind w.meter with
  | none => t
  | some i => t.putStat i ((if poll then [t.stat16 i 72] else []) ++
      [(77, [BitVec.ofNat 8 (t.stat77 i 0 2 (max (t.get (R.PLK_MOD_MINMOD p)) (t.entryMod p i - 1)))])])

/-- A miss of a poll (R232, R233, R241). -/
def State.missPoll (s : State) (p : Nat) (w : Await) : State :=
  let x := s.link p
  (s.putLink p { x with missed := if x.missed.contains w.meter then x.missed else x.missed ++ [w.meter] }).countMiss p w true

/-- A try of a DOWN exchange that failed (R248): after RETRY of them the failure is reported and the message stays queued. -/
def State.failDown (s : State) (p slot : Nat) : State :=
  match s.sup.dls.find? (fun m => decide (m.slot = slot)) with
  | none => s
  | some m =>
    let n := m.tries + 1
    let fail := decide (s.get (R.PLK_SCH_RETRY p) < n) && !m.failed
    let m' : DlMsg := { m with tries := n, tried := s.now, failed := m.failed || fail }
    let t := { s with sup := { s.sup with dls := s.sup.dls.map (fun e => if e.slot = slot then m' else e) } }
    if fail then t.raise 0x0A02 10 1 [(0, 4, m.meter), (4, 4, m.id)] else t

/-- A slot missed. -/
def State.missSlot (s : State) (p : Nat) (w : Await) : State :=
  match w.kind with
  | .down k => (s.countMiss p w false).failDown p k
  | _ => s.missPoll p w

/-- The predicted crossing that ends the first half-cycle of a slot (R232), once the slot's own crossing is the predicted one or decided. -/
def State.slotCrossing (s : State) (p : Nat) (w : Await) : Int :=
  s.crossing p + (if w.start = s.halfCycle p then ((s.zcx (s.zsrc p)).lock.map (fun l => l.2.2)).getD 0 else 0)

/-- A tick that starts at `z` comes after the deadline tick of a slot (R232). -/
def State.slotPast (s : State) (p : Nat) (w : Await) (z : Int) : Bool :=
  decide (w.start + 1 < s.halfCycle p) ||
    (decide (w.start ≤ s.halfCycle p) && decide (s.slotCrossing p w ≤ z))

/-- Whether an awaited slot has become a miss (R232, R51, R52): in the commit phase of its deadline tick or of a later one without a sync seen
in time, or once the slot is over with no frame passed. -/
def State.slotOver (s : State) (p : Nat) (w : Await) : Bool :=
  let x := s.plcPort p
  if w.seen then decide (w.start + w.len ≤ s.halfCycle p) && decide (x.inbox = none) && decide (x.rx = none) && decide (x.done = [])
  else decide (s.phase = .commit) && s.slotPast p w (s.instant + s.tickSpan)

/-- SLOT_TIMEOUT (R232): the first awaited slot becomes a miss. -/
def execSlotTimeout (p : Fin 4) (s : State) : Out :=
  .next (s.run (fun s =>
    let x := s.link p
    match x.slots with
    | [] => s
    | w :: rest =>
      if s.slotOver p w then ((s.putLink p { x with slots := rest }).missSlot p w).endSweep p else s))

/-- A sync detected now is seen in a capture phase: that marks the slot in which its frame started, when the capture phase is no later than the
slot's deadline tick (R51, R232). -/
def State.markSeen (s : State) (p : Nat) : State :=
  match (s.plcPort p).rx with
  | none => s
  | some r =>
    let x := s.link p
    let z := if s.phase = .capture then s.instant else s.instant + s.tickSpan
    s.putLink p { x with slots := x.slots.map (fun w =>
      if w.start = r.hc ∧ s.slotPast p w z = false then { w with seen := true } else w) }

/-- PLC_SYNC_DETECT (R211, R212, R217, R232): the deviation of burst 0 from its expected start in ns, the gain set on P0 and P1, and the mean
square over P2 and P3. -/
def execPlcSyncDetect (p : Fin 4) (dev : Int) (gain : Fin 8) (ref : Nat) (s : State) : Out :=
  .next (s.receive (.plcSyncDetect p dev gain ref) (fun s =>
    let t := s.plcSync p dev gain ref
    if (s.plcPort p).rx.isNone then t.markSeen p else t))

/-- A frame abandoned or READY lost during a train (R242): the train ends; slots not started go back to the head of the retry
list; one under way is a miss. -/
def State.endTrain (s : State) (p : Nat) : State :=
  if s.isMaster p then
    let x := s.link p
    let n := s.halfCycle p
    let ahead := x.slots.filter (fun w => decide (n ≤ w.start))
    let began := x.slots.filter (fun w => decide (w.start < n))
    let ms := (ahead.filter (fun w => match w.kind with | .down _ => false | _ => true)).map Await.meter
    began.foldl (fun t w => t.missSlot p w)
      (s.putLink p { x with
        slots := [], sendq := [], joins := none, rjoin := none, rdisc := false, greeted := false,
        retry := ms ++ x.retry.filter (fun m => !(ms.contains m)) })
  else s.putLink p { s.link p with sendq := [] }

/-- PLC_FRAME_ABORT (R216, R242) on a port that is not READY any more. -/
def State.abortPort (s : State) (p : Nat) : State :=
  let r := s.plcAbort p
  (r.2.putPlc p { r.2.plcPort p with inbox := none }).endTrain p

/-! ### Trains -/

/-- A pointer that names no message of its meter is written to 0 when the meter is served (R329). -/
def dlsAddr (slot : Nat) : Nat := 0x380000 + 256 * slot

/-- The messages of a meter, oldest first (R328). -/
def State.dlsOf (s : State) (meter : Nat) : List DlMsg := s.sup.dls.filter (fun m => decide (m.meter = meter))

/-- Bytes 64-69 of a meter's entry set to its first message and their count (R248, R328, R329). -/
def State.syncDown (s : State) (meter : Nat) : State :=
  let s := s.readCandidates meter
  match s.dirFind meter with
  | none => s
  | some i =>
    let ms := s.dlsOf meter
    let p := (ms.head?.map (fun m => dlsAddr m.slot)).getD 0
    if s.dirNat i 64 4 = p ∧ s.dirNat i 68 2 = ms.length then s else s.fwDir 8 ⟨meter, p, 0, ms.length⟩

/-- Messages dropped from the store by `keep`. -/
def State.keepDls (s : State) (keep : DlMsg → Bool) : State :=
  let l := s.sup.dls.filter keep
  ({ s with sup := { s.sup with dls := l } }).set R.SUP_DLS_USED l.length

/-- The order in which a master takes meters (R241): the round's retry list, then the sweep. -/
def State.pollOrder (s : State) (p : Nat) : List Nat :=
  let x := s.link p
  let re := x.retry.filterMap (fun m => (s.dirFind m).filter (fun i => (s.polledFrom p i).head? = some i))
  let sw := if s.on (R.PLK_STAT_SWEEP p) then (s.polledFrom p x.cursor).filter (fun i => !(re.contains i)) else []
  re ++ sw

/-- The entries of the next train: up to TRAIN direct meters of the first one's MOD class, in order; a relayed meter alone. -/
def State.trainEntries (s : State) (p : Nat) : List Nat :=
  match s.pollOrder p with
  | [] => []
  | i :: t =>
    if s.relayAddr i ≠ 0 then [i]
    else
      let m := s.entryMod p i
      (i :: t.takeWhile (fun j => decide (s.relayAddr j = 0 ∧ s.entryMod p j = m))).take (s.get (R.PLK_SCH_TRAIN p))

/-- The acknowledgements that a POLL takes (R234, R238, R244): oldest first, of direct meters, or of meters behind `relay`. -/
def State.pollAcks (s : State) (p : Nat) (relay : Option Nat) : List (Nat × Nat) :=
  let lim := if s.plcClass p = 1 then 15 else 11
  ((s.link p).acks.filter (fun a =>
    match s.byAddr p a.1 with
    | none => decide (relay = none)
    | some i => decide (s.relayAddr i = relay.getD 0))).take lim

/-- The body of a POLL (R234). -/
def pollBody (seq : Nat) (ents : List (Nat × Nat)) (acks : List (Nat × Nat)) : List Byte :=
  [BitVec.ofNat 8 seq, BitVec.ofNat 8 (ents.length + 16 * acks.length)] ++
    ents.flatMap (fun e => leBytes 2 e.1 ++ [BitVec.ofNat 8 e.2]) ++
    acks.flatMap (fun a => leBytes 2 a.1 ++ [BitVec.ofNat 8 a.2])

/-- The slots of a direct POLL whose last half-cycle is `h` (R235). -/
def State.directSlots (s : State) (p mod rmax : Nat) (map1 : Nat → Bool) : Nat → List Nat → List Await
  | _, [] => []
  | h, i :: t =>
    let len := s.dataBursts p mod rmax
    {
      meter := s.dirMeter i, addr := s.shortAddr i, start := h, len := len,
      kind := if map1 i then .map else .poll } :: s.directSlots p mod rmax map1 (h + len) t

/-- The link state after a train: its entries leave the retry list and the sweep, and the acknowledgements sent their list. -/
def State.afterTrain (s : State) (p : Nat) (is : List Nat) (acks : List (Nat × Nat)) (slots : List Await) : State :=
  let x := s.link p
  let ms := is.map s.dirMeter
  let re := x.retry.filterMap s.dirFind
  let swept := is.filter (fun i => !(re.contains i))
  let cur := match swept.getLast? with
    | some i => i + 1
    | none => x.cursor
  let last := slots.foldl (fun a w => max a (w.start + w.len)) x.free
  let t := s.putLink p { x with
    cursor := cur, retry := x.retry.filter (fun m => !(ms.contains m)), slots := slots, seq := (x.seq + 1) % 256,
    acks := x.acks.filter (fun a => !(acks.contains a)), trains := x.trains + 1, free := last }
  let t := (t.wrapBy (R.PLK_CNT0_POLLED p) is.length).set (R.PLK_STAT_LEFT p) (t.get (R.PLK_STAT_LEFT p) - swept.length)
  is.foldl (fun t i => t.syncDown (s.dirMeter i)) t

/-- An acknowledgement-only POLL (R234, R242, R244).  It has no entry to take its MOD from: DESIGN CHOICE (assumption 111), the lowest MOD of the
meters that it acknowledges. -/
def State.ackTrain (s : State) (p : Nat) (relay : Option Nat) : State :=
  let acks := s.pollAcks p relay
  if acks.isEmpty then s
  else
    let mod := acks.foldl (fun m a => match s.byAddr p a.1 with | some i => min m (s.entryMod p i) | none => m) 3
    let r := s.masterSend p mod (s.masterHead p 1 relay ++ pollBody (s.link p).seq [] acks)
    match r.1 with
    | none => r.2
    | some _ => r.2.afterTrain p [] acks []

/-- RELAYED_EXCHANGE (R244): a POLL of one entry through its relay, and the slot of the repeated answer. -/
def State.relayTrain (s : State) (p i : Nat) : State :=
  let relay := s.relayAddr i
  let mod := s.entryMod p i
  let mod2 := match s.byAddr p relay with
    | some j => s.entryMod p j
    | none => mod
  let rmax := min (s.rmaxAt p mod) (s.rmaxAt p mod2)
  let acks := s.pollAcks p (some relay)
  let psdu := s.masterHead p 1 (some relay) ++
    pollBody (s.link p).seq [(s.shortAddr i, mod + 4 * (rmax - 1) + 32 * mod2)] acks
  let r := s.masterSend p mod psdu
  match r.1 with
  | none => r.2
  | some h =>
    let rep := h + 2 + plcBursts (s.plcClass p) mod psdu.length - 1
    let start := rep + 2 + s.dataBursts p mod rmax - 1 + 2
    r.2.afterTrain p [i] acks
      [{ meter := s.dirMeter i, addr := s.shortAddr i, start := start, len := s.dataBursts p mod2 rmax, kind := .poll, rly := true }]

/-- The direct train of some entries (R234, R235, R241, R249). -/
def State.directTrain (s : State) (p : Nat) (is : List Nat) : State :=
  match is with
  | [] => s
  | i :: _ =>
    let mod := s.entryMod p i
    let rmax := s.rmaxAt p mod
    let map1 := fun j => match (s.link p).camp with
      | some c => decide (c.next = []) && c.ask.contains (s.dirMeter j)
      | none => false
    let acks := s.pollAcks p none
    let ents := is.map (fun j => (s.shortAddr j, mod + 4 * (rmax - 1) + 16 * b2n (map1 j)))
    let r := s.masterSend p mod (s.masterHead p 1 none ++ pollBody (s.link p).seq ents acks)
    match r.1 with
    | none => r.2
    | some h => r.2.afterTrain p is acks (s.directSlots p mod rmax map1 (h + 2) is)

/-- The next relay of a port, in ascending directory index and round again (R244; assumption 111). -/
def State.nextRelay (s : State) (p : Nat) : Option Nat :=
  let l := (s.servedFrom p 0).filter (fun i => s.relayOk p (s.shortAddr i))
  match l.find? (fun i => decide ((s.link p).rlast < i)) with
  | some i => some i
  | none => l.head?

/-- The length of a join slot in half-cycles (R246). -/
def State.joinLen (s : State) (p : Nat) : Nat := if s.plcClass p = 1 then 7 else 8

/-- The body of a DISCOVER (R246).  DESIGN CHOICE (assumption 111): J, then S_J, in one byte each. -/
def discoverBody (j sj : Nat) : List Byte := [BitVec.ofNat 8 j, BitVec.ofNat 8 sj]

/-- A relayed DISCOVER and its one join slot, which holds the relay's repeat of the JOIN (R244, R246). -/
def State.relayDiscover (s : State) (p i : Nat) : State :=
  let addr := s.shortAddr i
  let sj := s.joinLen p
  let psdu := s.masterHead p 7 (some addr) ++ discoverBody 1 sj
  let r := s.masterSend p 0 psdu
  match r.1 with
  | none => r.2
  | some h =>
    let rep := h + 2 + plcBursts (s.plcClass p) 0 psdu.length - 1
    let start := rep + 2 + sj - 1 + 2
    r.2.putLink p { r.2.link p with rdisc := false, rlast := i, rjoin := some (addr, start, sj), free := start + sj }

/-- The next train, acknowledgement, relayed poll or relayed DISCOVER of a port (R232-R241, R244). -/
def State.trainNext (s : State) (p : Fin 4) : State :=
  let behind := match (s.link p).acks.head? with
    | some a => (s.byAddr p a.1).bind (fun i => if s.relayAddr i = 0 then none else some (s.relayAddr i))
    | none => none
  match behind with
  | some r => s.ackTrain p (some r)
  | none =>
    if s.plcHold p then s.ackTrain p none
    else
      match (if (s.link p).rdisc then s.nextRelay p else none) with
      | some i => s.relayDiscover p i
      | none =>
        match s.trainEntries p with
        | [] => (s.ackTrain p none).endSweep p
        | i :: t => if s.relayAddr i ≠ 0 then s.relayTrain p i else s.directTrain p (i :: t)

/-- TRAIN_START (R241, R242, R244): under HOLD acknowledgements only; the oldest acknowledgement behind a relay by itself; else
the next entries. -/
def execTrainStart (p : Fin 4) (s : State) : Out :=
  .next (s.run (fun s =>
    if s.masterIdle p then
      s.trainNext p
    else s))

/-! ### Replies -/

/-- A reply slot ANSWERED (R232, R233, R252): the slot closes, the statistics and the MOD follow the reply. -/
def State.answered (s : State) (p : Nat) (f : PlcFrame) (w : Await) (dseq : Option Nat) : State :=
  let x := s.link p
  let t := (s.putLink p { x with
    slots := x.slots.filter (fun v => decide (v ≠ w)), missed := x.missed.filter (fun m => decide (m ≠ w.meter)) }).wrap
    (R.PLK_CNT0_ANSWERED p)
  let t := (t.putPlc p { t.plcPort p with inbox := none }).readCandidates w.meter
  match t.dirFind w.meter with
  | none => t
  | some i =>
    let b := t.dirNat i 77 1
    let b := b - b % 4 + t.modFor p f.snr
    let b := if b.testBit 3 then b - 8 else b
    let b := match dseq with
      | some d => b % 64 + 64 * d
      | none => b
    let poll := match w.kind with | .down _ => false | _ => true
    (t.putStat i (t.statAnswered i poll ++ [(77, [BitVec.ofNat 8 b]), (78, [BitVec.ofNat 8 f.snr]), (79, [BitVec.ofNat 8 f.erased]),
      (80, leBytes 4 s.now)])).endSweep p

/-- The frame of the port's inbox with its slot, when it is of type `ty`. -/
def State.inboxOf (s : State) (p ty : Nat) : Option (PlcFrame × Await) :=
  match (s.plcPort p).inbox with
  | none => none
  | some f => if frameType f.psdu = ty then (s.slotOf p f).map (fun w => (f, w)) else none

/-- A DATA frame that answers a slot: its records go to the queue of the port (R238). -/
def State.takeData (s : State) (p : Fin 4) (f : PlcFrame) (w : Await) : State :=
  let d := frameDseq f.psdu
  let t := s.answered p f w (some d)
  let r := t.deliverFrom (s.get (R.PLK_CTL_QUEUE p)) (.plc p w.addr d) (recsAt f.psdu 3 ((f.psdu.length - 3) / 64))
  if r.1 then r.2 else r.2.bump (R.PLK_CNT1_QREFUSED p)

/-- DATA_FRAME_RECEIVED (R237, R238): the records enter the port's queue as one frame; refused, it is not acknowledged. -/
def execDataFrameReceived (p : Fin 4) (s : State) : Out :=
  .next (s.run (fun s =>
    match s.isMaster p, s.inboxOf p 2 with
    | true, some (f, w) =>
      s.takeData p f w
    | _, _ => s))

/-- A NACK of the master (R238, R240), at most one for each meter and round. -/
def State.queueNack (s : State) (p addr : Nat) (x : Rec × Option Nat) : State :=
  match x.2 with
  | none => s
  | some w =>
    let m := recMeter x.1
    let l := s.link p
    if (w % 16 = 3 ∨ w % 16 = 5 ∨ w % 16 = 6) ∧ l.nacked.contains m = false then
      let mod := match s.byAddr p addr with
        | some i => s.entryMod p i
        | none => s.get (R.PLK_MOD_MINMOD p)
      let relay := match s.byAddr p addr with
        | some i => if s.relayAddr i = 0 then none else some (s.relayAddr i)
        | none => none
      let psdu := s.masterHead p 6 relay ++ leBytes 2 addr ++ leBytes 4 (recCtr x.1) ++
        [BitVec.ofNat 8 (w % 16), BitVec.ofNat 8 (bitsOf w 4 8)]
      s.putLink p { l with nacked := l.nacked ++ [m], sendq := l.sendq ++ [(mod, 0, psdu)] }
    else s

/-- Whether a waiter is a power-line port. -/
def Waiter.ofPlc (w : Waiter) (p : Nat) : Bool :=
  match w with
  | .plc q _ _ => decide (q = p)
  | _ => false

/-- The records of a DATA frame have their verdicts: the frame is owed an acknowledgement (R238). -/
def State.ackVerdicts (s : State) (p : Fin 4) (addr d : Nat) (w : Waiting) : State :=
  let x := s.link p
  let acks := x.acks ++ [(addr, d)]
  let t := s.putLink p { x with acks := acks.drop (acks.length - 64) }
  let t := w.recs.foldl (fun t e => t.queueNack p addr e) t
  w.recs.foldl (fun t e => t.clearPending p e) t

/-- DATA_VERDICTS_COMPLETE (R238): (sender, DSEQ) enters the acknowledgement list of 64, and NACKs are queued. -/
def execDataVerdictsComplete (p : Fin 4) (s : State) : Out :=
  .next (s.run (fun s =>
    let r := s.takeDone (fun w => w.ofPlc p)
    match r.1 with
    | some w =>
      match w.who with
      | .plc _ addr d =>
        r.2.ackVerdicts p addr d w
      | _ => s
    | none => s))

/-- A fragment of a message acknowledged (R248): after the last fragment the message leaves the store, with all its fragments. -/
def State.downDone (s : State) (slot : Nat) : State :=
  match s.sup.dls.find? (fun m => decide (m.slot = slot)) with
  | none => s
  | some m =>
    if m.frag / 16 = m.frag % 16 then
      (s.keepDls (fun e => !(decide (e.meter = m.meter) && decide (e.id = m.id)))).syncDown m.meter
    else
      { s with sup := { s.sup with dls := s.sup.dls.map (fun e => if e.slot = slot then { e with done := true } else e) } }

/-- A map taken into the campaign (R240, R249): the blocks of its window that it reports missing. -/
def State.takeMap (s : State) (p i : Nat) (meter : Nat) (body : List Byte) : State :=
  match (s.link p).camp with
  | none => s
  | some c =>
    let base := leAt body 5 2
    let miss := if base = 0xFFFF then []
      else ((List.range 256).map (fun k => base + k)).filter (fun b =>
        decide (b < c.cnt) && !((leAt body (7 + (b - base) / 8) 1).testBit ((b - base) % 8)))
    let ask := if base = 0xFFFF then c.ask.filter (fun m => decide (m ≠ meter)) else c.ask
    let t := s.putLink p { s.link p with camp := some { c with ask := ask, miss := c.miss ++ miss.filter (fun b => !(c.miss.contains b)) } }
    t.putStat i [(88, leBytes 4 c.img), (92, leBytes 2 miss.length)]

/-- An ACK of a meter: the slot is answered, a neighbour map taken, a downlink message done (R240, R248). -/
def State.takeMeterAck (s : State) (p : Fin 4) (f : PlcFrame) (w : Await) : State :=
  let body := f.psdu.drop 3
  let t := s.answered p f w none
  let id := leAt body 1 4
  match t.dirFind w.meter with
  | none => t
  | some i =>
    let t := if (leAt body 0 1).testBit 3 then t.takeMap p i w.meter body else t
    match w.kind with
    | .down k =>
      if id ≠ 0 ∧ (t.sup.dls.any (fun m => decide (m.slot = k ∧ m.id = id))) = true then
        (t.putStat i [(84, leBytes 4 id)]).downDone k
      else t
    | _ => t

/-- METER_ACK_RECEIVED (R236, R240, R248, R249). -/
def execMeterAckReceived (p : Fin 4) (s : State) : Out :=
  .next (s.run (fun s =>
    match s.isMaster p, s.inboxOf p 5 with
    | true, some (f, w) =>
      s.takeMeterAck p f w
    | _, _ => s))

/-- METER_NACK_RECEIVED (R240, R248): the DOWN was refused; the exchange counts as one of its tries. -/
def execMeterNackReceived (p : Fin 4) (s : State) : Out :=
  .next (s.run (fun s =>
    match s.isMaster p, s.inboxOf p 6 with
    | true, some (f, w) =>
      let t := s.answered p f w none
      match w.kind with
      | .down k => t.failDown p k
      | _ => t
    | _, _ => s))

/-! ### Beacon and joining -/

/-- A campaign goes on while blocks of its pass are left or some polled meter has not reported FFFFh (R249). -/
def Camp.active (c : Camp) : Bool := !c.next.isEmpty || !c.ask.isEmpty

/-- The body of a BEACON whose burst 0 lies in the half-cycle of instant `z` (R245). -/
def State.beaconBody (s : State) (p : Nat) (z : Int) (disc : Bool) : List Byte :=
  let ns := (s.deviceAt z / nsU).toNat
  let c := (s.link p).camp.filter Camp.active
  leBytes 4 (s.get R.CHG_MTR_METER) ++ [BitVec.ofNat 8 p, BitVec.ofNat 8 (s.get R.BAL_CTL_INTLEN)] ++ leBytes 6 s.origin ++
    leBytes 6 (ns / 1000000000) ++ leBytes 2 (ns / 1000000 % 1000) ++ leBytes 4 s.curInt ++
    leBytes 2 (s.get (R.PLK_BCN_PER p)) ++
    [BitVec.ofNat 8 (b2n (s.on R.BAL_STAT_RUN) + 2 * b2n disc + 4 * b2n c.isSome)] ++
    leBytes 4 ((c.map Camp.img).getD 0) ++ leBytes 2 ((c.map Camp.cnt).getD 0)

/-- A BEACON, with a DISCOVER and its join slots behind it when one is due (R245, R246); a DISCOVER by the next relay has its turn after it
(R244; assumption 111). -/
def State.sendBeacon (s : State) (p : Fin 4) : State :=
  let x := s.link p
  let n := x.bcnN + 1
  let disc := s.on (R.PLK_CTL_DISC p) && decide (n % s.get (R.PLK_BCN_DEVERY p) = 0) && !s.plcHold p
  let hc := max (s.halfCycle p) x.free
  let h := ((s.zcx (s.zsrc p)).lock.map (fun l => l.2.2)).getD 0
  let z := s.crossing p + ((hc - s.halfCycle p : Nat) : Int) * h
  let r := s.masterSend p 0 (s.masterHead p 9 none ++ s.beaconBody p z disc)
  match r.1 with
  | none => r.2
  | some last =>
    let y := r.2.link p
    let y := { y with bcnAt := some s.now, bcnN := n, greeted := true }
    if disc then
      let j := s.get (R.PLK_BCN_JSLOTS p) + 1
      let sj := s.joinLen p
      let psdu := s.masterHead p 7 none ++ discoverBody j sj
      r.2.putLink p { y with sendq := y.sendq ++ [(0, last + 1, psdu)], joins := none, rdisc := true }
    else r.2.putLink p y

/-- BEACON (R245) and, after every DEVERY-th one with DISC, DISCOVER (R246). -/
def execBeacon (p : Fin 4) (s : State) : Out :=
  .next (s.run (fun s =>
    let x := s.link p
    let due := !x.greeted || (match x.bcnAt with
      | none => true
      | some t => decide (t + s.get (R.PLK_BCN_PER p) * ticksPerSec ≤ s.now))
    if s.masterIdle p && due then
      s.sendBeacon p
    else s))

/-- The lowest short address that no entry of a port has (R247). -/
def State.freeAddr (s : State) (p : Nat) : Nat :=
  let used := (List.range 65536).filterMap (fun i =>
    if s.dirMeter i ≠ 0 ∧ s.servingPort i = p then some (s.shortAddr i) else none)
  ((List.range 0xFFFE).find? (fun a => decide (a ≠ 0) && !(used.contains a))).getD 0

/-- A JOIN answered: a meter of the directory gets its short address and an ACK, another counts as unsolicited (R247). -/
def State.takeJoin (s : State) (p : Fin 4) (f : PlcFrame) : State :=
  let s := s.putPlc p { s.plcPort p with inbox := none }
  let m := leAt f.psdu 2 4
  let s := s.readCandidates m
  let relay := if frameRly f.psdu then (s.link p).rjoin.map Prod.fst else none
  match s.dirFind m with
  | none => s.bump (R.PLK_CNT1_UNSOL p)
  | some i =>
    let old := s.servingPort i
    if 1 < s.dirNat i 9 1 ∨ (old ≠ p.val ∧ old ≠ 0xFF) then s.bump (R.PLK_CNT1_UNSOL p)
    else
      let keep := old = p.val ∧ 1 ≤ s.shortAddr i ∧ s.shortAddr i ≤ 0xFFFD
      let addr := if keep then s.shortAddr i else s.freeAddr p
      if addr = 0 then s.bump (R.PLK_CNT1_UNSOL p)
      else
        let caps := leAt f.psdu 6 1
        let mod := max (s.get (R.PLK_MOD_MINMOD p)) (min (caps % 4) (s.modFor p f.snr))
        let t := s.fwLink ⟨m, p * 2 ^ 24, 0, addr + relay.getD 0 * 2 ^ 16⟩
        let t := if old ≠ p.val then t.raise 0x0A03 10 0 [(0, 4, m), (4, 1, old), (5, 1, p)] else t
        let b := t.dirNat i 77 1 / 64 * 64 + bitsOf (t.dirNat i 77 1) 3 1 * 8 + mod + 4 + 16 * b2n (caps.testBit 2) + 32 * b2n (caps.testBit 3)
        let t := t.putStat i [(77, [BitVec.ofNat 8 b])]
        let psdu := t.masterHead p 5 relay ++ leBytes 4 m ++ leBytes 2 addr ++ [BitVec.ofNat 8 mod]
        let x := t.link p
        let first := match (if relay.isSome then x.rjoin.map (fun j => j.2.1 + j.2.2) else x.joins.map (fun j => j.1 + j.2.1 * j.2.2)) with
          | some e => e + 1
          | none => x.free + 1
        t.putLink p { x with sendq := x.sendq ++ [(0, first, psdu)] }

/-- JOIN_RECEIVED (R247). -/
def execJoinReceived (p : Fin 4) (s : State) : Out :=
  .next (s.run (fun s =>
    match (s.plcPort p).inbox with
    | none => s
    | some f =>
      if s.isMaster p = false ∨ frameType f.psdu ≠ 8 then s
      else
        s.takeJoin p f))

/-! ### Downlink and campaigns -/

/-- The fragment whose turn it is on a port (R241, R248): the oldest not acknowledged whose meter the port serves, by a relay that is one,
not missed in this round, not failed. -/
def State.nextDown (s : State) (p : Nat) : Option (DlMsg × Nat) :=
  s.sup.dls.findSome? (fun m =>
    match s.dirFind m.meter with
    | none => none
    | some i =>
      if s.serves p i ∧ (s.relayAddr i = 0 ∨ s.relayOk p (s.relayAddr i)) ∧ m.failed = false ∧
          (m.tries = 0 ∨ m.tried < (s.link p).roundAt) ∧
          (s.dlsOf m.meter).find? (fun e => !e.done) = some m then some (m, i) else none)

/-- The DOWN frame of a downlink message to its meter, direct or by its relay (R248). -/
def State.sendDown (s : State) (p : Fin 4) (m : DlMsg) (i : Nat) : State :=
  let relay := if s.relayAddr i = 0 then none else some (s.relayAddr i)
  let mod := s.entryMod p i
  let psdu := s.masterHead p 3 relay ++ leBytes 2 (s.shortAddr i) ++ leBytes 4 m.id ++
    [BitVec.ofNat 8 m.cls, BitVec.ofNat 8 m.frag] ++ m.body
  let r := s.masterSend p mod psdu
  match r.1 with
  | none => r.2
  | some h =>
    let len := plcBursts (s.plcClass p) mod 8
    let w : Await := match relay with
      | none => { meter := m.meter, addr := s.shortAddr i, start := h + 2, len := len, kind := .down m.slot }
      | some a =>
        let mod2 := match s.byAddr p a with
          | some j => s.entryMod p j
          | none => mod
        let rep := h + 2 + plcBursts (s.plcClass p) mod psdu.length - 1
        {
          meter := m.meter, addr := s.shortAddr i, start := rep + 2 + len - 1 + 2,
          len := plcBursts (s.plcClass p) mod2 8, kind := .down m.slot, rly := true }
    r.2.putLink p { r.2.link p with slots := [w], trains := 0, free := w.start + w.len }

/-- DOWN (R248, R244). -/
def execDown (p : Fin 4) (s : State) : Out :=
  .next (s.run (fun s =>
    let x := s.link p
    if s.masterIdle p ∧ s.get (R.PLK_SCH_DNGAP p) ≤ x.trains then
      match s.nextDown p with
      | none => s.putLink p { x with trains := 0 }
      | some (m, i) =>
        s.sendDown p m i
    else s))

/-- The campaign of an image on a port: the one in progress, in a pass of the blocks its maps report missing when its pass has
ended, or a new one of every block (R249). -/
def State.campaign (s : State) (p : Fin 4) (img cnt : Nat) : Camp :=
  let direct := ((s.servedFrom p 0).filter (fun i => decide (s.relayAddr i = 0))).map s.dirMeter
  let new : Camp := { img := img, cnt := cnt, next := List.range cnt, ask := direct }
  match (s.link p).camp with
  | some c => if c.img = img ∧ c.cnt = cnt ∧ c.active = true then (if c.next = [] then { c with next := c.miss, miss := [] } else c) else new
  | none => new

/-- One BLOCK frame of a campaign (R249). -/
def State.sendBlock (s : State) (p : Fin 4) (c : Camp) (no : Nat) (data : List Byte) : State :=
  let r := s.masterSend p (s.get (R.PLK_SCH_BLKMOD p))
    (s.masterHead p 4 none ++ leBytes 4 c.img ++ leBytes 2 no ++ leBytes 2 c.cnt ++ sliceB data 0 192)
  match r.1 with
  | none => r.2
  | some _ => r.2.putLink p { r.2.link p with camp := some { c with next := c.next.drop 1 } }

/-- BLOCK (R249): the head end's campaign gives image, block count and block data; a pass is broadcast in block order, then the
blocks that the maps report missing.  A block count of 0 is the head end's end of the campaign (assumption 111). -/
def execBlock (p : Fin 4) (img : BitVec 32) (cnt no : Nat) (data : List Byte) (s : State) : Out :=
  .next (s.run (fun s =>
    if cnt = 0 then
      (if s.isMaster p ∧ (s.link p).camp.any (fun c => decide (c.img = img.toNat)) then s.putLink p { s.link p with camp := none } else s)
    else if s.masterIdle p ∧ 1 ≤ cnt ∧ cnt ≤ 4096 ∧ no < cnt then
      let c := s.campaign p img.toNat cnt
      if c.next.head? = some no then s.sendBlock p c no data else s
    else s))

/-! ### The station of PLC3 -/

/-- The inbox frame of PLC3 as a station, when it is of type `ty`. -/
def State.slaveInbox (s : State) (ty : Nat) : Option PlcFrame :=
  if s.isSlave 3 then
    match (s.plcPort 3).inbox with
    | some f => if frameType f.psdu = ty then some f else none
    | none => none
  else none

/-- The inbox emptied. -/
def State.clearInbox (s : State) (p : Nat) : State := s.putPlc p { s.plcPort p with inbox := none }

/-- A frame of the station, sent by PLC_TRANSMIT_REQUEST in half-cycle `hc` or later (R229, R231). -/
def State.slaveSend (s : State) (ty mod hc : Nat) (rly : Bool) (dseq : Nat) (body : List Byte) : State :=
  let b0 := BitVec.ofNat 8 (ty + 16 * b2n rly + 64 * dseq)
  let psdu := b0 :: (leBytes 2 (s.get (R.PLK_ADDR_ADDR 3)) ++ body)
  s.putLink 3 { s.link 3 with sendq := (s.link 3).sendq ++ [(mod, hc, psdu)] }

/-- Whether a source of records is on its way upstream already: sent by SUP and unacknowledged, or sent by the station and held. -/
def State.underway (s : State) (r : RecSrc) : Bool :=
  s.sup.sess.any (fun x => x.up && x.recs.any (fun e => decide (e.1 = r))) ||
    (s.link 3).held.contains r

/-- The place of a record in the forwarding buffer, in the bank that FBANK names (R318). -/
def State.fwdAddr (s : State) (slot : Nat) : Nat := (44 + s.get R.SUP_CTL_FBANK) * 0x80000 + 64 * slot

/-- A record of the forwarding buffer as its bank holds it. -/
def State.fwdData (s : State) (f : FwdRec) : Rec := recOf (s.mrd (s.fwdAddr f.slot) 64)

/-- The ledger unit on the array that holds an LSN, unless a buffer does. -/
def State.unitOfLsn (s : State) (l : Nat) : Option Nat :=
  if s.ftl.bufs.any (fun b => decide (b.lsn ≤ l ∧ l < b.lsn + b.ents.length)) then none
  else (s.ftl.units.find? (fun u => decide (u.lsn ≤ l ∧ l < u.lsn + u.used))).map LUnit.lun

/-- What reading ledger entries counts and reports (R417). -/
def State.lsnSeen (s : State) (l : List Nat) : State := s.readLuns (l.filterMap s.unitOfLsn).eraseDups

/-- The lines of forwarded records and the units of ledger records read as they are sent (R30, R31, R417). -/
def State.touchFwd (s : State) (l : List RecSrc) : State :=
  ((s.sup.fbuf.filter (fun f => l.contains (.fwd f.k))).foldl (fun (t : State) f => t.touch (s.fwdAddr f.slot) 64) s).lsnSeen
    (l.filterMap (fun r => match r with
      | .led n => some n
      | .fwd _ => none))

/-- The records that await the upstream acknowledgement: those of the forwarding buffer, and the entries of the ledger, oldest first. -/
def State.awaiting (s : State) : List (RecSrc × Rec) :=
  s.sup.fbuf.map (fun f => (RecSrc.fwd f.k, s.fwdData f)) ++ s.ftl.await.filterMap (fun l => match s.entryAt l with
    | some e => if (e.kind = 1 ∨ e.kind = 2) ∧ l ≤ s.ackLsn + 65536 then some (RecSrc.led l, e.data) else none
    | none => none)

/-- A record that stands in the forwarding buffer and in the ledger, as one of a BOTH queue does, is one record: the first of its sources. -/
def onceEach : List (RecSrc × Rec) → List (RecSrc × Rec)
  | [] => []
  | e :: t => e :: (onceEach t).filter (fun x => decide (x.2 ≠ e.2))

/-- The records that would next be sent upstream (R250, R315, R320): those that await it and are under way from no source. -/
def State.upstream (s : State) : List (RecSrc × Rec) :=
  let sent := (s.awaiting.filter (fun e => s.underway e.1)).map Prod.snd
  (onceEach s.awaiting).filter (fun e => !(sent.contains e.2))

/-- Records acknowledged upstream (R320, R318), with every other source of the same record, known by its 64 bytes (DEDUCED, assumption 134):
ledger entries are marked, forwarded records leave the buffer. -/
def State.upAcked (s : State) (l : List RecSrc) : State :=
  let recs := (s.awaiting.filter (fun e => l.contains e.1)).map Prod.snd
  let l := l ++ (s.awaiting.filter (fun e => recs.contains e.2)).map Prod.fst
  let lsns := l.filterMap (fun r => match r with | .led n => some n | _ => none)
  let t := if lsns.isEmpty then s else s.ledgerAck lsns
  let b := t.sup.fbuf.filter (fun f => !(l.contains (.fwd f.k)))
  ({ t with sup := { t.sup with fbuf := b } }).set R.SUP_STAT_FFREE (8192 - b.length)

/-- Status of the station's ACK (R240): tamper active, clock not set, map present; a station has no supply relay of its own. -/
def State.stationStatus (s : State) (map : Bool) : Byte :=
  BitVec.ofNat 8 (b2n (s.get R.TMP_STAT_PIN ≠ 0 || s.get R.TMP_STAT_INT ≠ 0) + 4 * b2n (!s.on R.TIM_STAT_VALID) + 8 * b2n map)

/-- The map of the blocks received (R240, R249): the first window of 256 blocks with a missing one, or FFFFh when none is missing. -/
def blockMap (cnt : Nat) (had : List Nat) : List Byte :=
  match (List.range cnt).find? (fun b => !(had.contains b)) with
  | none => leBytes 2 0xFFFF ++ List.replicate 32 0#8
  | some b =>
    let base := b / 256 * 256
    leBytes 2 base ++ (List.range 32).map (fun i =>
      BitVec.ofNat 8 ((List.range 8).foldl (fun n j => if had.contains (base + 8 * i + j) then n + 2 ^ j else n) 0))

/-- The body of the station's ACK (R240): with a map when it is asked for and some campaign has been heard. -/
def State.ackBody (s : State) (id : Nat) (mapReq : Bool) : List Byte :=
  match (if mapReq then (s.link 3).image else none) with
  | some i => s.stationStatus true :: (leBytes 4 id ++ blockMap i.2.1 (i.2.2.map Prod.fst))
  | none => s.stationStatus false :: leBytes 4 id

/-- A record sent again (R239, R65): RESEND and a new tag in a session record of the station's own; a record of another meter keeps every byte
(R69, R250; assumption 63). -/
def State.resend (s : State) (r : Rec) : Rec :=
  let b := recBytes r
  if leAt b 0 1 = 4 ∧ recMeter r = s.get R.CHG_MTR_METER then
    match (s.dirFind (recMeter r)).bind s.ownKey with
    | some key =>
      let head := overlay (b.take 56) 2 [BitVec.ofNat 8 (leAt b 2 1 ||| 4)]
      recOf (head ++ (cmac key head).take 8)
    | none => r
  else r

/-- Records in ascending CTR (R237). -/
def insertCtr (r : RecSrc × Rec) : List (RecSrc × Rec) → List (RecSrc × Rec)
  | [] => [r]
  | x :: t => if recCtr r.2 < recCtr x.2 then r :: x :: t else x :: insertCtr r t

def byCtr (l : List (RecSrc × Rec)) : List (RecSrc × Rec) := l.foldl (fun t r => insertCtr r t) []

/-- The entry of a POLL that names an address, with the half-cycles of the slots before it (R235). -/
def State.pollEntry (s : State) (addr : Nat) (body : List Byte) : Nat → Nat → Nat → Option (Nat × Nat)
  | 0, _, _ => none
  | k + 1, e, before =>
    let b := leAt body (4 + 3 * e) 1
    if leAt body (2 + 3 * e) 2 = addr then some (b, before)
    else s.pollEntry addr body k (e + 1) (before + s.dataBursts 3 (b % 4) (bitsOf b 2 2 + 1))

/-- A POLL taken by a slave: acknowledged records go, and an entry for it is answered in its slot (R250). -/
def State.takePoll (s : State) (f : PlcFrame) : State :=
  let s := s.clearInbox 3
  let body := masterBody f.psdu
  let addr := s.get (R.PLK_ADDR_ADDR 3)
  let e := leAt body 1 1 % 8
  let acks := ((List.range (leAt body 1 1 / 16)).map (fun a =>
    (leAt body (2 + 3 * e + 3 * a) 2, leAt body (4 + 3 * e + 3 * a) 1 % 4))).filter (fun a => decide (a.1 = addr))
  let x := s.link 3
  let hit := x.sets.filter (fun t => acks.any (fun a => decide (a.2 = t.1)))
  let gone := hit.flatMap Prod.snd
  let sets := (x.sets.filter (fun t => !(hit.contains t))).map (fun t => (t.1, t.2.filter (fun r => !(gone.contains r))))
  let s := (s.putLink 3 { x with sets := sets, held := x.held.filter (fun r => !(gone.contains r)) }).upAcked gone
  match s.pollEntry addr body e 0 0 with
  | none => s
  | some (b, before) =>
    let hc := f.hc + f.bursts - 1 + 2 + before
    let mod := b % 4
    let rmax := bitsOf b 2 2 + 1
    let x := s.link 3
    let held := x.held.filterMap (fun r => match r with
      | .led l => (s.entryAt l).map (fun e => (r, e.data))
      | .fwd k => (s.sup.fbuf.find? (fun g => decide (g.k = k))).map (fun g => (r, s.fwdData g)))
    let old := held.take rmax
    let recs := byCtr (old.map (fun r => (r.1, s.resend r.2))) ++ byCtr (s.upstream.take (rmax - old.length))
    let x := { x with mod := mod }
    if b.testBit 4 ∨ recs = [] then (s.putLink 3 x).slaveSend 5 mod hc (frameRly f.psdu) 0 (s.ackBody 0 (b.testBit 4))
    else
      let d := (x.dseq + 1) % 4
      let srcs := recs.map Prod.fst
      let s := (s.touchFwd srcs).putLink 3 { x with
        dseq := d, sets := x.sets.filter (fun t => decide (t.1 ≠ d)) ++ [(d, srcs)],
        held := x.held ++ srcs.filter (fun r => !(x.held.contains r)) }
      s.slaveSend 2 mod hc (frameRly f.psdu) d (recs.flatMap (fun r => recBytes r.2))

/-- SLAVE_POLL_RECEIVED (R236, R239, R250): sets acknowledged leave; the poll is answered with DATA or an ACK in its slot. -/
def execSlavePollReceived (s : State) : Out :=
  .next (s.run (fun s =>
    match s.slaveInbox 1 with
    | none => s
    | some f =>
      s.takePoll f))

/-- A free slot of the downlink store (R328). -/
def State.dlsFree (s : State) : Option Nat :=
  (List.range 2048).find? (fun k => !(s.sup.dls.any (fun m => decide (m.slot = k))))

/-- Whether a fragment byte is in order for the messages of its identifier already queued (R328). -/
def State.fragInOrder (s : State) (meter id frag : Nat) : Bool :=
  let l := (s.dlsOf meter).filter (fun m => decide (m.id = id))
  decide (frag / 16 ≤ frag % 16) &&
    (match l.getLast? with
    | none => true
    | some m => decide (frag / 16 = m.frag / 16 + 1 ∧ frag % 16 = m.frag % 16))

/-- A message placed in the downlink store, and the meter's pointer (R328). -/
def State.dlsPut (s : State) (k meter id cls frag : Nat) (body : List Byte) : State :=
  let l := s.sup.dls ++ [{ slot := k, meter := meter, id := id, cls := cls, frag := frag, body := body }]
  (({ s with sup := { s.sup with dls := l } }).set R.SUP_DLS_USED l.length).syncDown meter

/-- A DOWN taken by a slave (R250).  A broadcast one grants no slot, so nothing answers it (R231). -/
def State.takeDown (s : State) (f : PlcFrame) (names : Option Nat) : State :=
  let s := s.clearInbox 3
  let body := masterBody f.psdu
  let id := leAt body 2 4
  let hc := f.hc + f.bursts - 1 + 2
  let rly := frameRly f.psdu
  let toAll := decide (leAt body 0 2 = 0xFFFF)
  let s := if f.mod = 0 ∨ toAll then s else s.putLink 3 { s.link 3 with mod := f.mod }
  let ack := fun (s : State) => if toAll then s else s.slaveSend 5 f.mod hc rly 0 (s.ackBody id false)
  let nack := fun (s : State) c => if toAll then s else s.slaveSend 6 (s.link 3).mod hc rly 0 (leBytes 4 id ++ [BitVec.ofNat 8 c])
  match names with
  | none => ack s
  | some m =>
    let s := s.readCandidates m
    match s.dirFind m with
    | none => nack s 3
    | some i =>
      let frag := leAt body 7 1
      if (s.dlsOf m).any (fun e => decide (e.id = id ∧ e.frag = frag)) then ack s
      else if 3 < s.servingPort i then nack s 2
      else if s.fragInOrder m id frag = false then nack s 4
      else match s.dlsFree with
        | none => nack (s.flag R.SUP_DLS_DLFULL) 3
        | some k => ack (s.dlsPut k m id (leAt body 6 1) frag (body.drop 8))

/-- SLAVE_DOWN_RECEIVED (R250, R248, R240): a message whose body names another meter enters that meter's downlink queue; the
answer is an ACK, or a NACK with no room or a fragment out of order. -/
def execSlaveDownReceived (names : Option Nat) (s : State) : Out :=
  .next (s.run (fun s =>
    match s.slaveInbox 3 with
    | none => s
    | some f =>
      s.takeDown f names))

/-- A BEACON of the master above taken by the station (R245). -/
def State.takeBeacon (s : State) (f : PlcFrame) : State :=
  let b := masterBody f.psdu
  let s := s.clearInbox 3
  let n : Beacon := {
    m := leAt b 5 1, origin := leAt b 6 6, sec := leAt b 12 6, ms := leAt b 18 2, cur := leAt b 20 4,
    per := leAt b 24 2, valid := (leAt b 26 1).testBit 0 }
  s.putLink 3 { s.link 3 with beacon := some n, upAt := s.now }

/-- SLAVE_BEACON_RECEIVED (R245, R250): the station keeps the numbering and the time that the BEACON gives. -/
def execSlaveBeaconReceived (s : State) : Out :=
  .next (s.run (fun s =>
    match s.slaveInbox 9 with
    | none => s
    | some f =>
      s.takeBeacon f))

/-- UPLINK_BEACON_LOSS (R245, R250, R52): 4 beacon periods without a BEACON; the station is unjoined. -/
def execUplinkBeaconLoss (s : State) : Out :=
  .next (s.inCommit (fun s =>
    let x := s.link 3
    match x.beacon with
    | some b =>
      if s.isSlave 3 ∧ s.on (R.PLK_STAT_JOINED 3) ∧ x.upAt + 4 * b.per * ticksPerSec ≤ s.now then
        (((s.putLink 3 { x with beacon := none, sendq := [], joinNet := none }).setAll
          [(R.PLK_STAT_JOINED 3, 0), (R.PLK_ADDR_ADDR 3, 0)]).flag (R.PLK_STAT_UPLOST 3)).raise 0x0A04 10 1 [(0, 1, 3)]
      else s
    | none => s))

/-- A DISCOVER taken by a slave that has not joined (R246). -/
def State.takeDiscover (s : State) (f : PlcFrame) : State :=
  let s := s.clearInbox 3
  if s.on (R.PLK_STAT_JOINED 3) then s
  else
    let b := masterBody f.psdu
    let net := leAt f.psdu 1 1
    let r := s.draw
    let k := r.1.toNat % max 1 (leAt b 0 1)
    let psdu := [BitVec.ofNat 8 (8 + 16 * b2n (frameRly f.psdu)), BitVec.ofNat 8 net] ++ leBytes 4 (s.get R.CHG_MTR_METER) ++
      [BitVec.ofNat 8 (s.get (R.PLK_MOD_MAXMOD 3) + 8), BitVec.ofNat 8 f.snr]
    let x := r.2.link 3
    r.2.putLink 3 { x with
      joinNet := some net,
      sendq := x.sendq ++ [(0, f.hc + f.bursts - 1 + 2 + k * leAt b 1 1, psdu)] }

/-- SLAVE_DISCOVER_RECEIVED (R246): an unjoined station sends one JOIN in a join slot drawn at random. -/
def execSlaveDiscoverReceived (s : State) : Out :=
  .next (s.run (fun s =>
    match s.slaveInbox 7 with
    | none => s
    | some f =>
      s.takeDiscover f))

/-- SLAVE_JOIN_ACK_RECEIVED (R240, R247, R250). -/
def execSlaveJoinAckReceived (s : State) : Out :=
  .next (s.run (fun s =>
    match s.slaveInbox 5 with
    | none => s
    | some f =>
      let b := masterBody f.psdu
      let s := s.clearInbox 3
      (s.putLink 3 { s.link 3 with mod := leAt b 6 1 % 4, upAt := s.now }).setAll
        [(R.PLK_ADDR_ADDR 3, leAt b 4 2), (R.PLK_ADDR_UPNET 3, leAt f.psdu 1 1), (R.PLK_STAT_JOINED 3, 1)]))

end Sys2Proof.Machine
end

