-- ==== Sys2Proof/Machine/Crossing.lean ====
section
/-!
DEFINITION. The zero-crossing tracker (R213-R216): candidates, acquisition, the loop, loss of lock, and what a reported crossing
does: cycles (R169), phase sequence (R182), PLC ports (R208, R216).
-/
namespace Sys2Proof.Machine

/-- Limits of the half-period and of the tracking window (R214, R215). -/
def hMin : Int := 7690000 * nsU
def hMax : Int := 11110000 * nsU
def zcWindow : Int := 500000 * nsU

/-- The frequency class of a half-period (R197, R224): 1 for 47 to 52 Hz, 2 for 57 to 62 Hz, else 0. -/
def freqClass (h : Int) : Nat :=
  let g := 1000000000 * nsU
  if 94 * h ≤ g ∧ g ≤ 104 * h then 1 else if 114 * h ≤ g ∧ g ≤ 124 * h then 2 else 0

/-- LOCK, ZCX_HP, FCLASS and the ports' READY after a change of lock or H (R208, R224).  DESIGN CHOICE (assumption 109): without lock HP
and FCLASS read 0, as does FLY. -/
def State.syncZc (s : State) (v : Nat) : State :=
  let h := match (s.zcx v).lock with
    | some l => l.2.2
    | none => 0
  let on := (s.zcx v).lock.isSome
  (s.setAll [(R.ZCX_STAT_LOCK v, b2n on), (R.ZCX_STAT_FCLASS v, if on then freqClass h else 0),
    (R.ZCX_HP_HP v, (divOpen h nsU).toNat)]).syncReady

/-- Ports of a channel that have just lost READY abandon their frame and their train (R216, R242). -/
def State.dropPorts (s : State) (was : Nat → Bool) : State :=
  [0, 1, 2, 3].foldl (fun (s : State) p => if was p && !(s.on (R.PLC_STAT_READY p)) then s.abortPort p else s) s

/-- ZC_LOCK_ACQUIRE (R215): a confirmed candidate without lock. -/
def State.acquire (s : State) (v : Nat) (c : Int × Bool) : State :=
  let z := s.zcx v
  let pair := fun (a b : Int × Bool) => decide (a.2 ≠ b.2) && decide (hMin ≤ b.1 - a.1 ∧ b.1 - a.1 ≤ hMax)
  let l := match z.acq.reverse with
    | [] => [c]
    | a :: [] => if pair a c then [a, c] else [c]
    | a :: b :: _ =>
      if pair a c then
        (if ((c.1 - a.1) - (a.1 - b.1)).natAbs ≤ zcWindow.natAbs then z.acq ++ [c] else [a, c])
      else [c]
  let n := s.get R.ZCX_CFG_ACQN
  if n ≤ l.length then
    let first := nth l 0 c
    let h := divOpen (c.1 - first.1) ((l.length - 1 : Nat) : Int)
    ((s.putZc v { z with
      acq := [], conf := [], lock := some (c.1 + h, !c.2, h), prior := c.1, n := z.n + 1, pos := none, pos2 := none }).set
        (R.ZCX_STAT_FLY v) 0).bump (R.ZCX_CNT_ACQ v) |>.syncZc v
  else s.putZc v { z with acq := l }

/-- ZC_CANDIDATE (R213) for one channel: the sample of the tick, with its input instant. -/
def State.zcSample (s : State) (v : Nat) (t x : Int) : State :=
  let z := s.zcx v
  let z1 : Zc := { z with prev := some (x, t) }
  match z.prev with
  | none => s.putZc v z1
  | some (x0, t0) =>
    if decide (0 ≤ x0) ≠ decide (0 ≤ x) then
      let at1 := t0 + (t - t0) * x0.natAbs / ((x0.natAbs + x.natAbs : Nat) : Int)
      s.putZc v { z1 with cand := some (at1, decide (0 ≤ x), 1) }
    else match z.cand with
      | none => s.putZc v z1
      | some (c, up, n) =>
        if n < 2 then s.putZc v { z1 with cand := some (c, up, n + 1) }
        else
          let s := s.putZc v { z1 with cand := none }
          if x.natAbs < s.get R.ZCX_CFG_HYST then s
          else if z.lock.isSome then s.putZc v { s.zcx v with conf := z.conf ++ [(c, up)] }
          else s.acquire v (c, up)

/-- A channel that is not enabled has no instance (R213): what an instance held is gone, and nothing counts as a loss of lock. -/
def State.zcOff (s : State) (v : Nat) : State :=
  let z := s.zcx v
  if z = { n := z.n } then s else ((s.putZc v { n := z.n }).set (R.ZCX_STAT_FLY v) 0).syncZc v

/-- Candidates of every enabled channel in a capture phase (R213), the input instant three ticks before the latch (R160). -/
def State.zcCapture (s : State) : State :=
  match s.mtr.inst[3]? with
  | none => s
  | some t => (List.range 7).foldl (fun (s : State) v =>
      if (s.get R.MTR_CTL_VEN).testBit v then s.zcSample v t (s.sample (16 + v)) else s.zcOff v) s

/-- PHASE_SEQUENCE_CHECK (R182) at the close of an L1 cycle. -/
def State.checkSequence (s : State) (g : Nat) : State :=
  let z := s.zcx (s.vref g 0)
  match z.pos2, z.pos with
  | some a, some b => s.countSequence g (seqClass a b (s.zcx (s.vref g 1)).pos (s.zcx (s.vref g 2)).pos)
  | _, _ => s.countSequence g 2

/-- CYCLE_CLOSE (R169) of the phases whose reference is channel v. -/
def State.closeCycles (s : State) (v : Nat) : State :=
  if s.on R.MTR_STAT_VALID then
    groupPhases.foldl (fun (s : State) gp =>
      if s.groupOn gp.1 ∧ s.vref gp.1 gp.2 = v then
        let t := s.closeCycle gp.1 gp.2
        if gp.2 = 0 then t.checkSequence gp.1 else t
      else s) s
  else s

/-- A decided crossing reported (R214, R224). -/
def State.reportCrossing (s : State) (v : Nat) (t : Int) (up : Bool) : State :=
  let s := s.setAll [(R.ZCX_STAT_POL v, b2n up), (R.ZCX_LAST_TIME v, (s.deviceAt t / nsU).toNat)]
  if up then (s.putZc v { s.zcx v with pos := some t, pos2 := (s.zcx v).pos }).closeCycles v else s

/-- ZC_LOCK_LOSS (R215), found when a predicted crossing is decided: its half-cycle has begun. -/
def State.loseLock (s : State) (v : Nat) : State :=
  ((s.putZc v { s.zcx v with lock := none, conf := [], acq := [], pos := none, pos2 := none, n := (s.zcx v).n + 1 }).set (R.ZCX_STAT_FLY v) 0).bump
    (R.ZCX_CNT_LOSS v) |>.syncZc v

/-- The confirmed candidate of the predicted polarity nearest the prediction, within the window (R214).  DESIGN CHOICE
(assumption 109): of two equally near the earlier one. -/
def nearest (zh : Int) (up : Bool) (l : List (Int × Bool)) : Option Int :=
  (l.filter (fun c => decide (c.2 = up) && decide ((c.1 - zh).natAbs ≤ zcWindow.natAbs))).foldl (fun b c =>
    match b with
    | none => some c.1
    | some a => if (c.1 - zh).natAbs < (a - zh).natAbs then some c.1 else some a) none

/-- The decision of a predicted crossing (R214, R215). -/
def State.decideCrossing (s : State) (v : Nat) (zh : Int) (up : Bool) (h : Int) : State :=
  let z := s.zcx v
  let rej := (z.conf.filter (fun c => decide (zcWindow.natAbs < (c.1 - zh).natAbs))).length
  let s := if rej = 0 then s else s.bumpBy (R.ZCX_CNT_REJECT v) rej
  let next := fun (s : State) (p h' : Int) =>
    (s.putZc v { s.zcx v with lock := some (p, !up, h'), prior := zh, conf := [], n := z.n + 1 }).syncZc v
  match nearest zh up z.conf with
  | none =>
    let fly := s.get (R.ZCX_STAT_FLY v)
    if 16 ≤ fly then s.loseLock v
    else ((next s (zh + h) h).set (R.ZCX_STAT_FLY v) (fly + 1)).reportCrossing v zh up
  | some c =>
    let e := c - zh
    let h' := h + divOpen e 256
    if h' < hMin ∨ hMax < h' then s.loseLock v
    else ((next s (zh + h + divOpen e 16) h').set (R.ZCX_STAT_FLY v) 0).reportCrossing v c up

/-- ZERO_CROSSING_DECISION (R214): in the first tick whose latched sample lies 0.875 ms or more after the prediction. -/
def execZeroCrossingDecision (v : Fin 7) (s : State) : Out :=
  .next (s.run (fun s =>
    match (s.zcx v).lock, s.mtr.inst[3]? with
    | some (zh, up, h), some t =>
      if zh + 875000 * nsU ≤ t ∧ (s.get R.MTR_CTL_VEN).testBit v = true then (s.decideCrossing v zh up h).dropPorts (fun p => s.on (R.PLC_STAT_READY p)) else s
    | _, _ => s))

end Sys2Proof.Machine
end

