-- ==== Sys2Proof/Machine/Net.lean ====
section
/-!
DEFINITION. Addresses, checksums and packets (R272, R299, R300), and what an Ethernet port does with a frame that it is given (R272,
R273).
-/
namespace Sys2Proof.Machine

/-! ### The port map's part (R486) and the addresses of a port -/

/-- Bytes of the port map in force. -/
def State.pmapAt (s : State) (off n : Nat) : List Byte := sliceB s.boot.pmap off n

/-- The configured IPv6 and IPv4 addresses of a port. -/
def State.ip6Of (s : State) (n : Nat) : List Byte := s.pmapAt (40 + 48 * n) 16
def State.ip4Of (s : State) (n : Nat) : List Byte := s.pmapAt (60 + 48 * n) 4

/-- The port address, byte 0 first: MACHI holds bytes 0-1, MACLO bytes 2-5, the lower byte in the lower bits (R296, R8). -/
def State.macOf (s : State) (n : Nat) : List Byte :=
  leBytes 2 (s.get (R.ETH_MACHI_MACHI n)) ++ leBytes 4 (s.get (R.ETH_MACLO_MACLO n))

/-- The interface identifier by EUI-64 of a port address. -/
def eui64 (m : List Byte) : List Byte := [(m.headD 0#8) ^^^ 2#8] ++ (m.drop 1).take 2 ++ [0xFF#8, 0xFE#8] ++ m.drop 3

/-- FE80::/64. -/
def linkLocal (iid : List Byte) : List Byte := [0xFE#8, 0x80#8, 0#8, 0#8, 0#8, 0#8, 0#8, 0#8] ++ iid

/-- The link-local address of a port (R299). -/
def State.llOf (s : State) (n : Nat) : List Byte := linkLocal (eui64 (s.macOf n))

/-- An address that is set. -/
def addrSet (a : List Byte) : Bool := a.any (fun b => b ≠ 0#8)

/-- The addresses of an Ethernet port that are its own. -/
def State.ownIp (s : State) (n : Nat) (a : List Byte) : Bool :=
  decide (a = s.llOf n) || (decide (a = s.ip6Of n) && addrSet a) || (decide (a = s.ip4Of n) && addrSet a)

/-- OTP addresses loaded (R272, R296): the base address plus n. -/
def State.loadMacs (s : State) : State :=
  [0, 1, 2].foldl (fun (t : State) n =>
    let m := beBytes 6 (Config.macBase.toNat + n)
    t.setAll [(R.ETH_MACHI_MACHI n, leAt m 0 2), (R.ETH_MACLO_MACLO n, leAt m 2 4)]) s

/-! ### Checksums and packets -/

/-- The ones' complement sum of 16-bit words, most significant byte first. -/
def sum16 (b : List Byte) : Nat :=
  let n := (chunks 2 (b.length + 1) b).foldl (fun a c => a + beNat (sliceB c 0 2)) 0
  let n := n % 65536 + n / 65536
  n % 65536 + n / 65536

/-- A checksum field. -/
def inetSum (b : List Byte) : List Byte := beBytes 2 (65535 - sum16 b)

/-- The pseudo-header of a packet: IPv4 by addresses of 4 bytes, else IPv6. -/
def pseudo (src dst : List Byte) (proto len : Nat) : List Byte :=
  if src.length = 4 then src ++ dst ++ [0#8, BitVec.ofNat 8 proto] ++ beBytes 2 len
  else src ++ dst ++ beBytes 4 len ++ beBytes 4 proto

/-- An IP packet with hop limit or time to live `ttl`; an IPv4 packet carries identification 0 and the don't-fragment bit (R300). -/
def ipPacket (src dst : List Byte) (proto ttl : Nat) (pl : List Byte) : List Byte :=
  if src.length = 4 then
    let h := [0x45#8, 0#8] ++ beBytes 2 (20 + pl.length) ++ [0#8, 0#8, 0x40#8, 0#8, BitVec.ofNat 8 ttl, BitVec.ofNat 8 proto]
    h ++ inetSum (h ++ src ++ dst) ++ src ++ dst ++ pl
  else [0x60#8, 0#8, 0#8, 0#8] ++ beBytes 2 pl.length ++ [BitVec.ofNat 8 proto, BitVec.ofNat 8 ttl] ++ src ++ dst ++ pl

/-- The UDP checksum of a datagram between two addresses; a sum of 0 is sent as FFFFh. -/
def udpSum (src dst u : List Byte) : List Byte :=
  let c := inetSum (pseudo src dst 17 u.length ++ u)
  if c = [0#8, 0#8] then [0xFF#8, 0xFF#8] else c

/-- A UDP datagram with its checksum (R300). -/
def udpPacket (src dst : List Byte) (sport dport : Nat) (b : List Byte) : List Byte :=
  let h := beBytes 2 sport ++ beBytes 2 dport ++ beBytes 2 (8 + b.length)
  h ++ udpSum src dst (h ++ [0#8, 0#8] ++ b) ++ b

/-- EtherType of a packet. -/
def ipType (p : List Byte) : Nat := if leAt p 0 1 / 16 = 4 then 0x0800 else 0x86DD

/-! ### Ethernet ports -/

/-- An Ethernet port at reset. -/
def eth0 (_ : Nat) : Eth := {}
def State.ethPort (s : State) (n : Nat) : Eth := SMap.get eth0 s.eth n
def State.putEth (s : State) (n : Nat) (x : Eth) : State := { s with eth := SMap.put eth0 s.eth n x }

/-- The size of a port's buffers (R273). -/
def ethBuf (n : Nat) : Nat := if n = 2 then 524288 else 65536

/-- Bytes held in a buffer. -/
def heldBytes (l : List (List Byte)) : Nat := l.foldl (fun a b => a + b.length) 0

/-- A frame of a port, without its FCS, padded to the smallest length: every frame carries the tag when VLAN is 1 (R272). -/
def State.ethFrame (s : State) (n : Nat) (dst : List Byte) (ty : Nat) (pl : List Byte) : List Byte :=
  let tag := if s.on (R.ETH_CTL_VLAN n) then beBytes 2 0x8100 ++ beBytes 2 (s.get (R.ETH_CTL_VID n)) else []
  let b := dst ++ s.macOf n ++ tag ++ beBytes 2 ty ++ pl
  b ++ List.replicate (60 - b.length) 0#8

/-- A frame given to a port leaves at once: the port is linked and no PAUSE stops it (R273). -/
def State.ethOpen (s : State) (n : Nat) : Bool :=
  s.on (R.ETH_CTL_EN n) && s.on (R.ETH_STAT_LINK n) && !((s.ethPort n).pause)

/-- A frame given to a port for transmission (R273): sent, made to wait by a PAUSE while the buffer has room, or discarded without
a link. -/
def State.ethSend (s : State) (n : Nat) (f : TxFrame) : State :=
  if s.on (R.ETH_CTL_EN n) = false then s
  else if s.on (R.ETH_STAT_LINK n) = false then s.bump (R.ETH_DROP_LINK n)
  else
    let x := s.ethPort n
    if x.pause then
      (if heldBytes (x.tx.map TxFrame.bytes) + f.bytes.length ≤ ethBuf n then s.putEth n { x with tx := x.tx ++ [f] } else s)
    else (s.send (.eth n) f.bytes).wrap (R.ETH_TXCNT_FRAMES n)

/-- A payload sent by a port to a link address. -/
def State.frameTo (s : State) (n : Nat) (dst : List Byte) (ty : Nat) (pl : List Byte) : State :=
  s.ethSend n { bytes := s.ethFrame n dst ty pl }

end Sys2Proof.Machine
end

