-- ==== Sys2Proof/Machine/Ppp.lean ====
section
/-!
DEFINITION. UARTs in MODEM role (R263, R266, R299): AT start-up, then PPP (RFC 1661) in HDLC-like framing (RFC 1662) with IPCP (RFC 1332)
or IPV6CP (RFC 5072).
-/
namespace Sys2Proof.Machine

/-- A UART at reset. -/
def uart0 (_ : Nat) : Uart := {}
def State.uartOf (s : State) (u : Nat) : Uart := SMap.get uart0 s.uart u
def State.putUart (s : State) (u : Nat) (x : Uart) : State := { s with uart := SMap.put uart0 s.uart u x }

/-- The link of a UART changed. -/
def State.putPpp (s : State) (u : Nat) (f : Ppp → Ppp) : State :=
  let x := s.uartOf u
  s.putUart u { x with ppp := f x.ppp }

/-- A UART in MODEM role. -/
def State.isModem (s : State) (u : Nat) : Bool := decide (s.get (R.SER_UCTL_ROLE u) = 1)

/-- The UART that carries SUP (R301, R333): the first in MODEM role. -/
def State.modemPort (s : State) : Option Nat := (List.range 4).find? (fun u => s.isModem u)

/-- Bytes sent by a UART in MODEM role: they wait while CTS is not asserted (R266). -/
def State.modemSend (s : State) (u : Nat) (b : List Byte) : State :=
  let x := s.uartOf u
  if x.cts then s.send (.uart u) b else s.putUart u { x with wait := x.wait ++ [b] }

/-! ### Frames (RFC 1662) -/

/-- The FCS-16 of a frame: x^16 + x^12 + x^5 + 1, bits least significant first. -/
def fcsBit (c : Nat) : Nat := if c % 2 = 1 then (c / 2) ^^^ 0x8408 else c / 2
def fcsByte (c : Nat) (b : Byte) : Nat := (List.range 8).foldl (fun c _ => fcsBit c) (c ^^^ b.toNat)
def fcs16 (b : List Byte) : Nat := 0xFFFF ^^^ b.foldl fcsByte 0xFFFF

/-- Octet stuffing: flag, escape and control characters are escaped. -/
def stuff (b : Byte) : List Byte := if b = 0x7E#8 ∨ b = 0x7D#8 ∨ b.toNat < 32 then [0x7D#8, b ^^^ 0x20#8] else [b]
def unstuff : List Byte → List Byte
  | [] => []
  | [b] => [b]
  | a :: b :: t => if a = 0x7D#8 then (b ^^^ 0x20#8) :: unstuff t else a :: unstuff (b :: t)

/-- A frame of a protocol between its two flags. -/
def hdlcFrame (proto : Nat) (info : List Byte) : List Byte :=
  let p := [0xFF#8, 3#8] ++ beBytes 2 proto ++ info
  [0x7E#8] ++ (p ++ leBytes 2 (fcs16 p)).flatMap stuff ++ [0x7E#8]

/-- Protocol and information of what stood between two flags, when its FCS is good. -/
def hdlcRead (b : List Byte) : Option (Nat × List Byte) :=
  let p := unstuff b
  let n := p.length
  if 6 ≤ n ∧ leAt p 0 2 = 0x03FF ∧ leAt p (n - 2) 2 = fcs16 (p.take (n - 2)) then some (beAt p 2 2, (p.take (n - 2)).drop 4) else none

/-! ### Link and network control (RFC 1661, RFC 1332, RFC 5072) -/

/-- The protocol numbers in use: LCP, the control protocol of the IP version of the UPLINK, and its packets. -/
def lcpNo : Nat := 0xC021
def State.ncpNo (s : State) : Nat := if s.on R.SUP_CTL_IPV then 0x8021 else 0x8057
def State.ipNo (s : State) : Nat := if s.on R.SUP_CTL_IPV then 0x0021 else 0x0057

/-- A control packet sent. -/
def State.sendCtl (s : State) (u proto code id : Nat) (data : List Byte) : State :=
  s.modemSend u (hdlcFrame proto ([BitVec.ofNat 8 code, BitVec.ofNat 8 id] ++ beBytes 2 (4 + data.length) ++ data))

/-- The option by which the address is asked of the modem, unless it has rejected it: IP-Address, or Interface-Identifier. -/
def State.askOption (s : State) (u : Nat) : List Byte :=
  let n := if s.on R.SUP_CTL_IPV then 4 else 8
  if (s.uartOf u).ppp.bare then [] else [BitVec.ofNat 8 (if s.on R.SUP_CTL_IPV then 3 else 1), BitVec.ofNat 8 (n + 2)] ++ sliceB (s.uartOf u).ppp.addr 0 n

/-- A Configure-Request of the present stage under the next Identifier. -/
def State.askConfig (s : State) (u : Nat) : State :=
  let t := s.putPpp u (fun p => { p with id := (p.id + 1) % 256, mine := false, sent := some s.now })
  let p := (t.uartOf u).ppp
  if p.stage = .lcp then t.sendCtl u lcpNo 1 p.id [] else t.sendCtl u t.ncpNo 1 p.id (t.askOption u)

/-- A stage whose configuration both sides have agreed to gives way to the next. -/
def State.pppAdvance (s : State) (u : Nat) : State :=
  let p := (s.uartOf u).ppp
  if p.mine = false ∨ p.peer = false then s
  else if p.stage = .lcp then (s.putPpp u (fun p => { p with stage := .ncp, peer := false })).askConfig u
  else if p.stage = .ncp then
    let x := s.uartOf u
    s.putUart u { x with echoAt := s.now, ppp := { x.ppp with stage := .opened, sent := some s.now } }
  else s

/-- The AT command line sent, from which the link starts, and RTS asserted: the device takes what the modem sends (R263; DESIGN CHOICE,
assumption 137). -/
def State.dial (s : State) (u : Nat) : State :=
  let x := s.uartOf u
  ((s.putUart u { x with rx := [], wait := [], echoAt := s.now, ppp := { sent := some s.now } }).modemSend u Config.modemStart).drive
    (.pin "UART_RTS_N") [BitVec.ofNat 8 u, 0#8]

/-- Options of a Configure-Request whose type is none of `known`. -/
def unknownOptions (known : List Nat) : Nat → List Byte → List Byte
  | 0, _ => []
  | f + 1, b =>
    let n := leAt b 1 1
    if b.length < 2 ∨ n < 2 ∨ b.length < n then []
    else (if known.contains (leAt b 0 1) then [] else b.take n) ++ unknownOptions known f (b.drop n)

/-- The options of the peer that the device takes: Maximum-Receive-Unit, Async-Control-Character-Map and Magic-Number; and the one of the
network control protocol that names an address. -/
def lcpKnown : List Nat := [1, 2, 5]
def State.ncpKnown (s : State) : List Nat := if s.on R.SUP_CTL_IPV then [3] else [1]

/-- An LCP packet. -/
def State.takeLcp (s : State) (u : Nat) (b : List Byte) : State :=
  let code := leAt b 0 1
  let id := leAt b 1 1
  let data := (b.take (beAt b 2 2)).drop 4
  let p := (s.uartOf u).ppp
  if code = 1 then
    let no := unknownOptions lcpKnown data.length data
    if no ≠ [] then s.sendCtl u lcpNo 4 id no
    else
      let t := s.sendCtl u lcpNo 2 id data
      if p.stage = .lcp then (t.putPpp u (fun p => { p with peer := true })).pppAdvance u
      else (t.putPpp u (fun p => { p with stage := .lcp, peer := true })).askConfig u
  else if code = 2 ∧ p.stage = .lcp ∧ id = p.id then (s.putPpp u (fun p => { p with mine := true })).pppAdvance u
  else if (code = 3 ∨ code = 4) ∧ p.stage = .lcp ∧ id = p.id then s.askConfig u
  else if code = 5 then (s.sendCtl u lcpNo 6 id []).dial u
  else if code = 9 ∧ p.stage ≠ .lcp then s.sendCtl u lcpNo 10 id ([0#8, 0#8, 0#8, 0#8] ++ data.drop 4)
  else if code = 10 ∧ p.stage ≠ .lcp then s.putUart u { s.uartOf u with echoAt := s.now }
  else if code = 0 ∨ 11 < code then s.sendCtl u lcpNo 7 ((p.id + 1) % 256) b
  else s

/-- A packet of the network control protocol: a Configure-Nak gives the address, a Configure-Reject takes its option out of the request, a
Terminate-Request closes the protocol, which is negotiated again; an unknown code is rejected (R299). -/
def State.takeNcp (s : State) (u : Nat) (b : List Byte) : State :=
  let code := leAt b 0 1
  let id := leAt b 1 1
  let data := (b.take (beAt b 2 2)).drop 4
  let p := (s.uartOf u).ppp
  if p.stage = .dial ∨ p.stage = .lcp then s
  else if code = 1 then
    let no := unknownOptions s.ncpKnown data.length data
    if no ≠ [] then s.sendCtl u s.ncpNo 4 id no
    else
      let t := s.sendCtl u s.ncpNo 2 id data
      if p.stage = .ncp then (t.putPpp u (fun p => { p with peer := true })).pppAdvance u
      else (t.putPpp u (fun p => { p with stage := .ncp, peer := true })).askConfig u
  else if code = 2 ∧ id = p.id then (s.putPpp u (fun p => { p with mine := true })).pppAdvance u
  else if code = 3 ∧ id = p.id then (s.putPpp u (fun p => { p with addr := (data.take (leAt data 1 1)).drop 2 })).askConfig u
  else if code = 4 ∧ id = p.id then (s.putPpp u (fun p => { p with bare := true })).askConfig u
  else if code = 5 then ((s.sendCtl u s.ncpNo 6 id []).putPpp u (fun p => { p with stage := .ncp, peer := false })).askConfig u
  else if code = 0 ∨ 7 < code then s.sendCtl u s.ncpNo 7 ((p.id + 1) % 256) b
  else s

/-- The device's address on the modem link, once it is open. -/
def State.pppAddr (s : State) (u : Nat) : Option (List Byte) :=
  let p := (s.uartOf u).ppp
  if p.stage = .opened ∧ p.addr ≠ [] then some (if s.on R.SUP_CTL_IPV then p.addr else linkLocal p.addr) else none

/-- An IP packet sent over the modem link, while it is open. -/
def State.pppSend (s : State) (pkt : List Byte) : State :=
  match s.modemPort with
  | some u => if (s.pppAddr u).isSome then s.modemSend u (hdlcFrame s.ipNo pkt) else s
  | none => s

/-! ### Reception -/

/-- Bytes that a modem has sent: what the buffer of 4 KiB does not hold is discarded and counted (R266). -/
def State.modemRx (s : State) (u : Nat) (b : List Byte) : State :=
  if s.isModem u then
    let x := s.uartOf u
    let k := 4096 - x.rx.length
    let t := s.putUart u { x with rx := x.rx ++ b.take k }
    if k < b.length then t.bumpBy (R.SER_UCNT_BADLINE u) (b.length - k) else t
  else s

/-- One line of the modem in start-up: CONNECT starts PPP (V.250). -/
def State.modemLine (s : State) (u : Nat) (line : List Byte) : State :=
  if line.take 7 = [67#8, 79#8, 78#8, 78#8, 69#8, 67#8, 84#8] then (s.putPpp u (fun p => { p with stage := .lcp })).askConfig u else s

/-- One frame: control packets are answered; an IP packet of an open link is handed on. -/
def State.modemFrame (s : State) (u : Nat) (b : List Byte) : Option (List Byte) × State :=
  match hdlcRead b with
  | none => (none, s)
  | some (proto, info) =>
    if proto = lcpNo then (none, s.takeLcp u info)
    else if proto = s.ncpNo then (none, s.takeNcp u info)
    else if proto = s.ipNo then ((if (s.pppAddr u).isSome then some info else none), s)
    else (none, s.sendCtl u lcpNo 8 (s.uartOf u).ppp.id (beBytes 2 proto ++ info))

/-- What stands in the buffer up to a mark, and what follows it. -/
def splitMark (m : Byte) (b : List Byte) : Option (List Byte × List Byte) :=
  match b.findIdx? (fun x => decide (x = m)) with
  | none => none
  | some k => some (b.take k, b.drop (k + 1))

/-- The receive buffer read out: lines during start-up, frames after it; the IP packets received, in order. -/
def State.modemRead (u : Nat) : Nat → State → List (List Byte) × State
  | 0, s => ([], s)
  | f + 1, s =>
    let x := s.uartOf u
    match splitMark (if x.ppp.stage = .dial then 10#8 else 0x7E#8) x.rx with
    | none => ([], s)
    | some (h, t) =>
      let s := s.putUart u { x with rx := t }
      if x.ppp.stage = .dial then State.modemRead u f (s.modemLine u h)
      else
        let r := s.modemFrame u h
        let m := State.modemRead u f r.2
        (r.1.toList ++ m.1, m.2)

/-- What a modem port sends of its own in a commit phase (R52): the AT command line once the image is in force, a Configure-Request again after 3 s, and an
Echo-Request every 10 s of an open link. -/
def State.modemTick (s : State) (u : Nat) : State :=
  if s.isModem u then
    let p := (s.uartOf u).ppp
    match p.sent with
    | none => s.dial u
    | some t =>
      if (p.stage = .lcp ∨ p.stage = .ncp) ∧ t + 24000 ≤ s.now then s.askConfig u
      else if p.stage = .opened ∧ t + 80000 ≤ s.now then
        (s.putPpp u (fun p => { p with sent := some s.now })).sendCtl u lcpNo 9 p.id [0#8, 0#8, 0#8, 0#8]
      else s
  else s

/-- What every modem port sends of its own. -/
def State.modemTimers (s : State) : State := [0, 1, 2, 3].foldl State.modemTick s

/-- No echo reply for 240,000 ticks: the link is restarted (R52, R266). -/
def State.pppExpired (s : State) (u : Nat) : State :=
  let x := s.uartOf u
  if s.isModem u ∧ x.ppp.sent.isSome = true ∧ x.echoAt + 240000 ≤ s.now then s.dial u else s

/-- PPP_ECHO_TIMEOUT (R266): bytes that the modem has sent since the last such command, and the timeout, which expires in a commit phase. -/
def execPppEchoTimeout (u : Fin 4) (rx : List Byte) (s : State) : Out :=
  .next ((s.receive (.pppEchoTimeout u rx) (fun s => s.modemRx u rx)).inCommit (fun s => s.pppExpired u))

/-- UART_CTS_CHANGE (R266): transmission stops, or what waits is sent. -/
def execUartCtsChange (u : Fin 4) (cts : Bool) (s : State) : Out :=
  .next (s.receive (.uartCtsChange u cts) (fun s =>
    if s.isModem u then
      let x := s.uartOf u
      if cts then x.wait.foldl (fun (s : State) b => s.send (.uart u) b) (s.putUart u { x with cts := true, wait := [] })
      else s.putUart u { x with cts := false }
    else s))

end Sys2Proof.Machine
end

