-- ==== Sys2Proof/Machine/Time.lean ====
section
/-!
DEFINITION. The time unit (R274-R298): device time, addend, steps and the servo, IEEE 1588 as slave and master, the transmit
timestamp queue, TIME port, PPS, anchors and the RTC.
-/
namespace Sys2Proof.Machine

/-! ### Device time -/

/-- One nanosecond in units of 2^-49 ns. -/
def nsUnits : Nat := 2 ^ 49

/-- Seconds and nanoseconds of a device time in 2^-49 ns (R274). -/
def secOf (t : Nat) : Nat := t / secUnits % 2 ^ 48
def nsOf (t : Nat) : Nat := t / nsUnits % 1000000000

/-- The device time at which the next tick starts, without the step of this commit (R276). -/
def State.tickEnd (s : State) : Nat := s.tim.start + s.tsq.len * s.tim.rate

/-- The device time at which the next tick starts (R280). -/
def State.nextStart (s : State) : Nat := (((s.tickEnd : Nat) : Int) + s.tim.jump).toNat % (2 ^ 48 * secUnits)

/-- A timestamp at a nanosecond of the current tick (R285): device time rounded down to 8 ns, and the board's delay, in 2^-16 ns. -/
def State.stamp (s : State) (off : Nat) (lat : Nat) : Int :=
  let t : Int := ((s.tim.start / 2 ^ 33 : Nat) : Int) + off * nsU
  t / (8 * nsU) * (8 * nsU) + sgn 16 lat * nsU

/-- GEN in force (R280). -/
def State.gen (s : State) : Nat := s.get R.TIM_STAT_GEN

/-- GEN in force for what is stamped now: that of a step counts from cycle 0 of the next tick, as device time does (R280). -/
def State.stampGen (s : State) : Nat := if s.tim.stepping then (s.gen + 3) % 4 else s.gen

/-- Something whose time is taken as it arrives (R285, R291): its timestamp, the instant of elapsed device time, and GEN.  In the commit
phase it waits for the next tick with these (R38); an edge of the TIME port is always seen in the next capture phase (R51). -/
def State.receiveAt (s : State) (i : Instr) (edge : Bool) (off lat : Nat) (f : Int → Int → Nat → State → State) : State :=
  let m := (s.stamp off lat, s.instant + off * nsU, s.stampGen)
  let wait := { s with lateIn := s.lateIn ++ [i], tim := { s.tim with marks := s.tim.marks ++ [m] } }
  match s.phase with
  | .held => s
  | .commit => wait
  | .compute => if edge then wait else f m.1 m.2.1 m.2.2 s
  | .capture => match s.tim.marks with
    | [] => f m.1 m.2.1 m.2.2 s
    | m :: l => f m.1 m.2.1 m.2.2 { s with tim := { s.tim with marks := l } }

/-- TIM_SEC and TIM_NS at cycle 0 of the tick (R297). -/
def State.syncTime (s : State) : State :=
  let n := secOf s.tim.start
  s.setAll [(R.TIM_SECHI_SEC, n / 2 ^ 32), (R.TIM_SECLO_SEC, n % 2 ^ 32), (R.TIM_NS_NS, nsOf s.tim.start)]

/-- VALID sets (R278), and the RTC is written in the first device second after it, unless SRC is FREE (R295). -/
def State.timeValid (s : State) : State :=
  if s.on R.TIM_STAT_VALID then s
  else { s.set R.TIM_STAT_VALID 1 with tim := { s.tim with rtcDue := s.tim.rtcDue || decide (s.get R.TIM_CTL_SRC ≠ 0) } }

/-! ### The RTC (R295, R508) -/

/-- A write of the RTC applied at cycle 0 of the tick after it: seconds, fraction 0, VALID unless the crystal stopped in the tick
of the write, and an anchor (R294, R508, R514). -/
def State.rtcSet (s : State) (sec : Nat) : State :=
  let t := s.setAll [(R.RTC_SECHI_SEC, sec / 2 ^ 32), (R.RTC_SECLO_SEC, sec % 2 ^ 32), (R.RTC_FRAC_FRAC, 0)]
  let t := if s.isl.stopped then t else t.setAll [(R.RTC_STAT_VALID, 1), (R.RTC_STAT_XSTOP, 0)]
  { t with tim := { t.tim with anchor := some 2 } }

/-- The RTC reading in units of 2^-15 s. -/
def State.rtcNow (s : State) : Nat :=
  (s.get R.RTC_SECHI_SEC * 2 ^ 32 + s.get R.RTC_SECLO_SEC) * 32768 + s.get R.RTC_FRAC_FRAC

/-- An anchor taken in a capture phase (R294): the registers and the anchor pair. -/
def State.takeAnchor (s : State) (cause : Nat) : State :=
  let t := s.tim.start
  let r := s.get R.RTC_SECLO_SEC
  (s.setAll [(R.TIM_ANCHT_TICK, s.now % 2 ^ 32), (R.TIM_ANCHS_SEC, secOf t % 2 ^ 32), (R.TIM_ANCHNS_NS, nsOf t),
    (R.TIM_ANCHRTC_SEC, r)]).evAnchor r (secOf t) (nsOf t) cause s.gen

/-! ### Steps (R279, R280) -/

/-- A step requested by `who`: its staged seconds are used up (R279). -/
def State.requestStep (s : State) (who : Nat) (ns : Int) : State :=
  let r : StepReq := { who := who, sec := SMap.get zI s.tim.stepS who, ns := ns }
  { s with tim := { s.tim with reqs := s.tim.reqs ++ [r], stepS := SMap.put zI s.tim.stepS who 0 } }

/-- A step refused (R279). -/
def State.refuseStep (s : State) (r : StepReq) : State :=
  (s.bump R.TIM_CNT_STEPREF).raise 0x0C02 12 1
    [(0, 1, if r.who = 0 then 0 else if r.who = 1 then 1 else 2), (4, 4, unsgn 32 r.sec), (8, 4, unsgn 32 r.ns)]

/-- What a step from the tick ending at `old` to `new` does to the balance intervals (R135, R154). -/
def State.stepBalance (s : State) (old new : Nat) : State :=
  let s := s.flag R.BAL_STAT_STEPPED
  if s.on R.BAL_STAT_RUN then
    let n := s.curInt
    let k := if s.afterOrigin new then s.intervalAt new else 0
    let mark := fun (s : State) m =>
      let t := s.onInt m (fun i => { i with stepped := true })
      if t.isOpen m then t else { t with bal := { t.bal with marks := t.bal.marks ++ [m] } }
    let t := mark s n
    if old < new ∧ n < k then
      let t := mark t k
      if n + 1 < k then t.gapReports (n + 1) (k - n - 1) else t
    else t
  else s

/-- What a step does to the armed outputs (R289): a tick makes the pulses of the nanoseconds from its start up to, but not with, its end. -/
def State.stepTriggers (s : State) (old new : Nat) : State :=
  [0, 1, 2, 3].foldl (fun (s : State) k =>
    match SMap.at? s.tim.trig k with
    | none => s
    | some (c0, c) =>
      let n := new / nsUnits
      if s.get (R.TIM_TRGCTL_MODE k) = 2 then
        let p := max 1 (s.get (R.TIM_TRGP_PER k))
        let c' := if n < c0 then c0 else c0 + ((n - c0) / p + 1) * p
        { s with tim := { s.tim with trig := SMap.ins s.tim.trig k (c0, c') } }
      else if old / nsUnits ≤ c ∧ c < n then
        { s.flag (R.TIM_CAPST_MISSED k) with tim := { s.tim with trig := SMap.del s.tim.trig k } }
      else s) s

/-- TIME_STEP (R280): the step takes effect at cycle 0 of the next tick. -/
def State.applyStep (s : State) (r : StepReq) : State :=
  let d : Int := (r.sec * 1000000000 + r.ns) * nsUnits
  let old := s.tickEnd
  let new : Nat := ((old : Int) + d).toNat % (2 ^ 48 * secUnits)
  let free := decide (s.get R.TIM_CTL_SRC = 0 ∧ r.who = 1)
  let t := ((s.set R.TIM_STAT_GEN (s.gen + 1)).flag R.TSQ_STAT_STEPPED).set R.TIM_STAT_STEPARM 0
  let t := t.timeValid
  let t := { t with tim := { t.tim with
    jump := (new : Int) - old, stepping := true, anchor := some 1, offs := [], rtcDue := t.tim.rtcDue || free } }
  (t.stepBalance old new).stepTriggers old new

/-- The step requests of a tick in their order (R280): firmware, then the paths in the order of R14, the test block being path T; the first
applies. -/
def State.commitSteps (s : State) : State :=
  let l := [0, 1, 2].flatMap (fun w => s.tim.reqs.filter (fun r => decide (min 2 r.who = w)))
  l.foldl (fun (s : State) r => if s.on R.TIM_STAT_STEPARM then s.applyStep r else s.refuseStep r)
    { s with tim := { s.tim with reqs := [] } }

/-- The requester of a path (R279). -/
def stepWho : Path → Nat
  | .h => 1 | .t => 2 | _ => 0

/-- STEP_REARM (R279): the servo's offsets start again. -/
def State.rearm (s : State) : State := { s.set R.TIM_STAT_STEPARM 1 with tim := { s.tim with offs := [] } }

/-! ### Addend and servo (R275, R281, R282) -/

/-- An addend pair committed: the registers, and the addend of the ticks that follow (R275). -/
def State.setAddend (s : State) (a : Nat) : State :=
  { s.setAll [(R.TIM_ADDLO_ADD, a % 2 ^ 32), (R.TIM_ADDHI_ADD, a / 2 ^ 32)] with
    tim := { s.tim with addend := a, addLo := a % 2 ^ 32 } }

/-- 500 ppm of the nominal addend (R275). -/
def addendSpan : Nat := 1125899906842

/-- The addend that the servo chooses (R281): open, within SLEW of nominal. -/
def State.slew (s : State) : State :=
  let lim := s.get R.TIM_SERVO_SLEW * 2 ^ 51 * 50 / 1000000
  let r := s.draw
  r.2.setAddend (2 ^ 51 - lim + r.1.toNat % (2 * lim + 1))

/-- The time source is lost (R282). -/
def State.sourceLost (s : State) : State :=
  if s.on R.TIM_STAT_HOLD then s
  else
    let t := ((s.setAll [(R.TIM_STAT_HOLD, 1), (R.TIM_STAT_LOCK, 0)]).bump R.TIM_CNT_SRCLOSS).raise 0x0C01 12 1
      [(0, 1, s.get R.TIM_CTL_SRC)]
    { t with tim := { t.tim with good := 0, bad := 0 } }

/-- SERVO_LOCK_UPDATE (R282) by an offset in ns. -/
def State.lockUpdate (s : State) (o : Int) : State :=
  if o.natAbs ≤ s.get R.TIM_SERVO_LOCKTHR then
    let t := { s with tim := { s.tim with good := min 16 (s.tim.good + 1), bad := 0 } }
    if 16 ≤ t.tim.good then t.set R.TIM_STAT_LOCK 1 else t
  else
    let t := { s with tim := { s.tim with bad := min 4 (s.tim.bad + 1), good := 0 } }
    if 4 ≤ t.tim.bad then t.set R.TIM_STAT_LOCK 0 else t

/-- An accepted offset in ns (R279, R281, R282): the lock, and the step decision on the mean of four, or the addend. -/
def State.takeOffset (s : State) (o : Int) : State :=
  let t := (s.setAll [(R.TIM_OFS_OFS, unsgn 32 (hold32 o)), (R.TIM_STAT_HOLD, 0)]).lockUpdate o
  let t := { t with tim := { t.tim with offs := (o :: t.tim.offs).take 4 } }
  if t.on R.TIM_STAT_STEPARM then
    if 4 ≤ t.tim.offs.length then
      let m := divOpen (t.tim.offs.foldl (· + ·) 0) 4
      let t := t.timeValid
      if s.get R.TIM_SERVO_STEPTHR * 1000 ≤ m.natAbs then
        let u := { t with tim := { t.tim with stepS := SMap.put zI t.tim.stepS 0 (divZ (-m) 1000000000), offs := [] } }
        u.requestStep 0 (-m - divZ (-m) 1000000000 * 1000000000)
      else t.set R.TIM_STAT_STEPARM 0
    else t
  else t.slew

/-! ### IEEE 1588 (R283-R287) -/

/-- The clockIdentity of the device on a port: EUI-64 of the port address. -/
def State.clockId (s : State) (n : Nat) : Nat :=
  let mac := s.macOf n
  beNat (mac.take 3 ++ [0xFF#8, 0xFE#8] ++ mac.drop 3)

/-- The configured master (R284). -/
def State.wantedMaster (s : State) : Nat := s.get R.TIM_PMHI_ID * 2 ^ 32 + s.get R.TIM_PMLO_ID

/-- The PTP port takes messages (R283): linked, not at 10 Mb/s. -/
def State.ptpOn (s : State) (n : Nat) : Bool :=
  decide (n = s.get R.TIM_CTL_PORT) && s.on (R.ETH_STAT_LINK n) && decide (s.get (R.ETH_STAT_SPD n) ≠ 1)

/-- A message reaches the PTP port over the transport in use, in its domain (R283). -/
def State.ptpTaken (s : State) (m : PtpMsg) : Bool :=
  s.ptpOn m.port && decide (m.trans = s.get R.TIM_PTPCFG_TRANS) && decide (m.domain = s.get R.TIM_PTPCFG_DOMAIN)

/-- The device is slave and takes messages of this sender (R283, R284). -/
def State.fromMaster (s : State) (m : PtpMsg) : Bool :=
  decide (s.get R.TIM_CTL_SRC = 1) && s.ptpTaken m &&
    (if s.wantedMaster ≠ 0 then decide (m.src = s.wantedMaster) else decide (s.tim.ptp.master = some m.src))

/-- The exchange changed. -/
def State.putPtp (s : State) (f : Ptp → Ptp) : State := { s with tim := { s.tim with ptp := f s.tim.ptp } }

/-- The time that a message carries, with its correction, in 2^-16 ns. -/
def ptpMsgTime (m : PtpMsg) : Int := ((m.sec : Int) * 1000000000 + m.ns) * nsU + m.corr

/-- A Sync of the master with its receive timestamp and GEN. -/
def State.takeSync (s : State) (m : PtpMsg) (t2 : Int) (g : Nat) : State :=
  if s.fromMaster m then
    s.putPtp (fun p => { p with
      syncSeq := m.seq, t1 := (if m.two then none else some (ptpMsgTime m)), t2 := some (t2 - (if m.two then m.corr else 0)),
      syncGen := g })
  else s

/-- SYNC_RECEIVED (R284, R285). -/
def execSyncReceived (m : PtpMsg) (s : State) : Out :=
  .next (s.receiveAt (.syncReceived m) false m.off (s.get (R.ETH_LAT_RX m.port)) (fun t2 _ g s => s.takeSync m t2 g))

/-- FOLLOW_UP_RECEIVED (R284). -/
def execFollowUpReceived (m : PtpMsg) (s : State) : Out :=
  .next (s.receive (.followUpReceived m) (fun s =>
    if s.fromMaster m ∧ s.tim.ptp.syncSeq = m.seq ∧ s.tim.ptp.t1 = none ∧ s.tim.ptp.t2.isSome then
      s.putPtp (fun p => { p with t1 := some (ptpMsgTime m) })
    else s))

/-- DELAY_RESP_RECEIVED (R279, R280, R284): the offset of Sync and Delay_Req, unless their timestamps differ in GEN. -/
def execDelayRespReceived (m : PtpMsg) (s : State) : Out :=
  .next (s.receive (.delayRespReceived m) (fun s =>
    let p := s.tim.ptp
    if s.fromMaster m ∧ m.req = s.clockId m.port ∧ p.reqSeq = m.seq then
      match p.t1, p.t2, p.t3 with
      | some t1, some t2, some t3 =>
        let s := s.putPtp (fun p => { p with t3 := none })
        let t4 := ((m.sec : Int) * 1000000000 + m.ns) * nsU - m.corr
        if p.syncGen = p.reqGen ∧ p.reqGen = s.gen then s.takeOffset (divOpen ((t2 - t1) - (t4 - t3)) (2 * nsU)) else s
      | _, _, _ => s
    else s))

/-- ANNOUNCE_RECEIVED (R51, R284): the first sender is selected where none is configured. -/
def execAnnounceReceived (m : PtpMsg) (s : State) : Out :=
  .next (s.sense (.announceReceived m) (fun s =>
    if s.get R.TIM_CTL_SRC = 1 ∧ s.ptpTaken m = true then
      let sel := if s.wantedMaster ≠ 0 then s.wantedMaster else s.tim.ptp.master.getD m.src
      if m.src = sel then
        let t := s.putPtp (fun p => { p with master := some sel, annAt := s.now })
        match m.utc with
        | some u => t.setAll [(R.TIM_UTC_OFS, unsgn 16 u), (R.TIM_UTC_UVALID, 1)]
        | none => t
      else s
    else s))

/-- ANNOUNCE_TIMEOUT (R52, R284): 3 Announce intervals without one of the selected master, which is the configured one from the start on. -/
def execAnnounceTimeout (s : State) : Out :=
  .next (s.inCommit (fun s =>
    let p := s.tim.ptp
    if s.get R.TIM_CTL_SRC = 1 ∧ (p.master.isSome = true ∨ s.wantedMaster ≠ 0) ∧
        p.annAt + 3 * 2 ^ s.get R.TIM_PTPCFG_LANN * ticksPerSec ≤ s.now then
      (s.putPtp (fun p => { p with master := none, annAt := s.now })).sourceLost
    else s))

/-! ### Messages sent (R283, R286, R287) -/

/-- The ticks of an interval of 2^`log` seconds, -4 to +5. -/
def logTicks (log : Int) : Nat := 500 * 2 ^ (log + 4).toNat

/-- An interval has passed since the last message of its kind. -/
def State.intervalPast (s : State) (last : Option Nat) (log : Int) : Bool :=
  match last with
  | none => true
  | some t => decide (t + logTicks log ≤ s.now)

/-- The common header of an IEEE 1588 message of `len` bytes. -/
def State.ptpHead (s : State) (ty len flags corr seq ctl : Nat) (log : Nat) : List Byte :=
  [BitVec.ofNat 8 ty, 0x12#8] ++ beBytes 2 len ++ [BitVec.ofNat 8 (s.get R.TIM_PTPCFG_DOMAIN), 0#8] ++ beBytes 2 flags ++
    beBytes 8 corr ++ beBytes 4 0 ++ beBytes 8 (s.clockId (s.get R.TIM_CTL_PORT)) ++ beBytes 2 1 ++ beBytes 2 seq ++
    [BitVec.ofNat 8 ctl, BitVec.ofNat 8 log]

/-- Ten bytes of a timestamp in 2^-16 ns. -/
def ptpTime (t : Int) : List Byte :=
  let n := (t / nsU).toNat
  beBytes 6 (n / 1000000000) ++ beBytes 4 (n % 1000000000)

/-- The device is master (R283). -/
def State.ptpMaster (s : State) : Bool := s.on R.TIM_CTL_PTPM && s.ptpOn (s.get R.TIM_CTL_PORT)

/-- The IPv6 source address of a port's own packets. -/
def State.src6 (s : State) (n : Nat) : List Byte := if addrSet (s.ip6Of n) then s.ip6Of n else s.llOf n

/-- The destination of IEEE 1588 messages by TRANS (R283): link address, then IP address, 224.0.1.129 or FF0E::181. -/
def ptpMac (trans : Nat) : List Byte :=
  if trans = 0 then [0x01#8, 0x1B#8, 0x19#8, 0#8, 0#8, 0#8]
  else if trans = 1 then [0x01#8, 0#8, 0x5E#8, 0#8, 1#8, 0x81#8]
  else [0x33#8, 0x33#8, 0#8, 0#8, 1#8, 0x81#8]
def ptpIp (trans : Nat) : List Byte :=
  if trans = 1 then [224#8, 0#8, 1#8, 129#8] else [0xFF#8, 0x0E#8] ++ List.replicate 12 0#8 ++ [1#8, 0x81#8]

/-- A message in its frame (R283): Annex E; Annex C to port 319 or 320; Annex D likewise, with two octets behind the message.  `m0` is the
message as it stands before its timestamp is written into it: a Sync (`sync`) leaves with the UDP checksum 0 over IPv4, and over IPv6 with
the octets that keep the checksum of `m0` valid (R286). -/
def State.ptpFrame (s : State) (n : Nat) (event sync : Bool) (m0 m : List Byte) : List Byte :=
  let tr := s.get R.TIM_PTPCFG_TRANS
  let port := if event then 319 else 320
  if tr = 0 then s.ethFrame n (ptpMac 0) 0x88F7 m
  else
    let src := if tr = 1 then s.ip4Of n else s.src6 n
    let body := fun (b : List Byte) => if tr = 1 then b else b ++ [0#8, 0#8]
    let u0 := udpPacket src (ptpIp tr) port port (body m0)
    let u :=
      if sync = false then u0
      else if tr = 1 then u0.take 6 ++ [0#8, 0#8] ++ m
      else
        let v := u0.take 8 ++ m ++ [0#8, 0#8]
        u0.take 8 ++ m ++ inetSum (pseudo src (ptpIp tr) 17 v.length ++ v)
    s.ethFrame n (ptpMac tr) (if tr = 1 then 0x0800 else 0x86DD) (ipPacket src (ptpIp tr) 17 64 u)

/-- An event message of the port, Sync (0) or Delay_Req (1), with a timestamp in 2^-16 ns for a Sync. -/
def State.eventFrame (s : State) (n ty seq : Nat) (t : Int) : List Byte :=
  if ty = 0 then
    let h := s.ptpHead 0 44 0 0 seq 0 (unsgn 8 (sgn 4 (s.get R.TIM_PTPCFG_LSYNC)))
    s.ptpFrame n true true (h ++ ptpTime 0) (h ++ ptpTime t)
  else
    let m := s.ptpHead 1 44 0 0 seq 1 0x7F ++ List.replicate 10 0#8
    s.ptpFrame n true false m m

/-- TX_TIMESTAMP_ENQUEUE (R287). -/
def State.tsqPut (s : State) (e : TsEntry) : State :=
  if 16 ≤ s.tim.tsq.length then (s.flag R.TIM_STAT_TSQOVF).bump R.TIM_CNT_TSQLOST
  else ({ s with tim := { s.tim with tsq := s.tim.tsq ++ [e] } }).set R.TIM_TSQSTAT_COUNT (s.tim.tsq.length + 1)

/-- An event message leaves at a nanosecond of the tick (R286, R287): a Sync carries its timestamp, that of another is queued; with the queue
full it is discarded, for the servo too. -/
def State.emitEvent (s : State) (n ty seq off : Nat) : State :=
  let t := s.stamp off (s.get (R.ETH_LAT_TX n))
  let u := s.ethSend n { bytes := s.eventFrame n ty seq t }
  if ty = 0 then u
  else
    let ns := (t / nsU).toNat
    let full := decide (16 ≤ u.tim.tsq.length)
    let u := u.tsqPut { port := n, mtype := ty, seq := seq, gen := s.stampGen, sec := ns / 1000000000, ns := ns % 1000000000 }
    if full then u else u.putPtp (fun p => if p.reqSeq = seq then { p with t3 := some t, reqGen := s.stampGen } else p)

/-- An event message given to a port: it leaves, or waits with no timestamp yet. -/
def State.sendEvent (s : State) (n ty seq off : Nat) : State :=
  if s.ethOpen n then s.emitEvent n ty seq off
  else s.ethSend n { bytes := s.eventFrame n ty seq 0, event := some (ty, seq) }

/-- SYNC_SEND (R283, R286): one-step, at the Sync interval. -/
def execSyncSend (off : Nat) (s : State) : Out :=
  .next (s.run (fun s =>
    let p := s.tim.ptp
    if s.ptpMaster = true ∧ s.intervalPast p.atSync (sgn 4 (s.get R.TIM_PTPCFG_LSYNC)) = true then
      (s.sendEvent (s.get R.TIM_CTL_PORT) 0 p.nSync off).putPtp
        (fun p => { p with nSync := (p.nSync + 1) % 65536, atSync := some s.now })
    else s))

/-- ANNOUNCE_SEND (R283, R284): clockClass 6 with LOCK and SRC = PPS, else 248, and the UTC offset of TIM_UTC. -/
def execAnnounceSend (s : State) : Out :=
  .next (s.run (fun s =>
    let p := s.tim.ptp
    if s.ptpMaster = true ∧ s.intervalPast p.atAnn (s.get R.TIM_PTPCFG_LANN) = true then
      let n := s.get R.TIM_CTL_PORT
      let cls := if s.on R.TIM_STAT_LOCK ∧ s.get R.TIM_CTL_SRC = 2 then 6 else 248
      let m := s.ptpHead 11 64 (8 + 4 * b2n (s.on R.TIM_UTC_UVALID)) 0 p.nAnn 5 (s.get R.TIM_PTPCFG_LANN) ++
        List.replicate 10 0#8 ++ beBytes 2 (s.get R.TIM_UTC_OFS) ++ [0#8, 128#8, BitVec.ofNat 8 cls, 0xFE#8] ++
        beBytes 2 0xFFFF ++ [128#8] ++ beBytes 8 (s.clockId n) ++ beBytes 2 0 ++ [0xA0#8]
      (s.ethSend n { bytes := s.ptpFrame n false false m m }).putPtp
        (fun p => { p with nAnn := (p.nAnn + 1) % 65536, atAnn := some s.now })
    else s))

/-- DELAY_REQ_SEND (R283, R287): a slave's, at the Delay_Req interval. -/
def execDelayReqSend (off : Nat) (s : State) : Out :=
  .next (s.run (fun s =>
    let n := s.get R.TIM_CTL_PORT
    let p := s.tim.ptp
    if s.get R.TIM_CTL_SRC = 1 ∧ s.ptpOn n = true ∧ s.intervalPast p.atReq (sgn 4 (s.get R.TIM_PTPCFG_LDREQ)) = true then
      let t := s.putPtp (fun p => { p with nReq := (p.nReq + 1) % 65536, reqSeq := p.nReq, t3 := none, atReq := some s.now })
      t.sendEvent n 1 p.nReq off
    else s))

/-- The Delay_Resp that a master sends for a Delay_Req with its receive timestamp (R283). -/
def State.answerDelay (s : State) (m : PtpMsg) (t4 : Int) : State :=
  if s.ptpMaster = true ∧ s.ptpTaken m = true then
    let r := s.ptpHead 9 54 0 (unsgn 64 m.corr) m.seq 3 (unsgn 8 (sgn 4 (s.get R.TIM_PTPCFG_LDREQ))) ++ ptpTime t4 ++
      beBytes 8 m.src ++ beBytes 2 1
    s.ethSend m.port { bytes := s.ptpFrame m.port false false r r }
  else s

/-- DELAY_REQ_RECEIVED (R283, R285). -/
def execDelayReqReceived (m : PtpMsg) (s : State) : Out :=
  .next (s.receiveAt (.delayReqReceived m) false m.off (s.get (R.ETH_LAT_RX m.port)) (fun t4 _ _ s => s.answerDelay m t4))

/-- A write of TIM_TSQKEY (R287): the oldest matching entry leaves the queue. -/
def State.tsqSearch (s : State) (key : Nat) : State :=
  match s.tim.tsq.findIdx? (fun e => decide (e.port = bitsOf key 20 2 ∧ e.mtype = bitsOf key 16 4 ∧ e.seq = bitsOf key 0 16)) with
  | none => s.set R.TIM_TSQRES_FOUND 0
  | some k =>
    match s.tim.tsq[k]? with
    | none => s
    | some e =>
      ({ s with tim := { s.tim with tsq := s.tim.tsq.eraseIdx k } }).setAll
        [(R.TIM_TSQRES_FOUND, 1), (R.TIM_TSQRES_GEN, e.gen), (R.TIM_TSQRES_SECHI, e.sec / 2 ^ 32), (R.TIM_TSQSEC_SEC, e.sec % 2 ^ 32),
          (R.TIM_TSQNS_NS, e.ns), (R.TIM_TSQSTAT_COUNT, s.tim.tsq.length - 1)]

/-! ### TIME port (R288-R291) -/

/-- A write of TIM_TRGNk by a path (R289): the line arms, or sets MISSED for a compare time that device time has passed at the commit.  A
PERIODIC line whose pulse is not shorter than its period does not arm: the write is refused as a reserved encoding (R12). -/
def State.armTrigger (s : State) (p : Path) (k ns : Nat) : State :=
  let mode := s.get (R.TIM_TRGCTL_MODE k)
  if mode = 2 ∧ s.get (R.TIM_TRGP_PER k) ≤ 8 * s.get (R.TIM_TRGCTL_WIDTH k) then s.refuse .lock p (R.TIM_TRGN k)
  else
    let s := s.set (R.TIM_TRGN_NS k) ns
    if mode = 1 ∨ mode = 2 then
      let sec := s.nextStart / secUnits
      let c := (sec - sec % 2 ^ 32 + s.get (R.TIM_TRGS_SEC k)) * 1000000000 + ns
      if c < s.nextStart / nsUnits then
        { s.flag (R.TIM_CAPST_MISSED k) with tim := { s.tim with trig := SMap.del s.tim.trig k } }
      else { s with tim := { s.tim with trig := SMap.ins s.tim.trig k (c, c) } }
    else s

/-- TRIGGER_PULSE (R288, R289): the compare time lies in the current tick; the line is active for WIDTH x 8 ns. -/
def execTriggerPulse (k : Fin 4) (s : State) : Out :=
  .next (s.run (fun s =>
    match SMap.at? s.tim.trig k with
    | none => s
    | some (c0, c) =>
      if s.tim.start / nsUnits ≤ c ∧ c < s.tickEnd / nsUnits then
        let t := s.send (.pin ("TRIG" ++ toString k.val))
          ([BitVec.ofNat 8 (s.get (R.TIM_TRGCTL_POL k))] ++ leBytes 4 (8 * s.get (R.TIM_TRGCTL_WIDTH k)) ++ leBytes 8 c)
        let trig := if s.get (R.TIM_TRGCTL_MODE k) = 2 then SMap.ins t.tim.trig k (c0, c + max 1 (s.get (R.TIM_TRGP_PER k)))
          else SMap.del t.tim.trig k
        { t with tim := { t.tim with trig := trig } }
      else s))

/-- PPS_OUT_PULSE (R290): at a whole second of the current tick. -/
def execPpsOutPulse (s : State) : Out :=
  .next (s.run (fun s =>
    let whole := s.tim.start % secUnits = 0 ∨ s.tim.start / secUnits < (s.tickEnd - 1) / secUnits
    if s.on R.TIM_PPS_EN ∧ (s.on R.TIM_STAT_VALID ∨ s.on R.TIM_PPS_ALWAYS) ∧ whole then
      s.send (.pin "PPS_OUT") [BitVec.ofNat 8 (s.get R.TIM_PPS_POL), BitVec.ofNat 8 (s.get R.TIM_PPS_WIDTH)]
    else s))

/-- PPS_EDGE_ACCEPT (R292): an edge within 100 ppm of 1 s after the previous accepted one is a whole second of the reference. -/
def State.ppsEdge (s : State) (stamp at_ : Int) : State :=
  if s.get R.TIM_CTL_SRC = 2 then
    let ok := match s.tim.pps with
      | none => true
      | some a => decide ((at_ - a - 1000000000 * nsU).natAbs ≤ (100000 * nsU).natAbs)
    if ok then
      let t := { s with tim := { s.tim with pps := some at_, ppsAt := s.now } }
      let r := stamp / nsU % 1000000000
      t.takeOffset (if r < 500000000 then r else r - 1000000000)
    else s.bump R.TIM_CNT_PPSREJ
  else s

/-- An edge seen in a capture phase (R291): captured with its time and GEN, or counted in OVR. -/
def State.takeEdge (s : State) (k : Nat) (stamp at_ : Int) (g : Nat) : State :=
  if k = 4 ∨ s.get (R.TIM_TRGCTL_MODE k) = 3 then
    let t := if s.on (R.TIM_CAPST_CAPV k) then s.bump (R.TIM_CAPST_OVR k)
      else
        let n := (stamp / nsU).toNat
        (s.flag (R.TIM_CAPST_CAPV k)).setAll [(R.TIM_CAPS_SEC k, n / 1000000000), (R.TIM_CAPN_NS k, n % 1000000000),
          (R.TIM_CAPST_GEN k, g)]
    if k = 4 then t.ppsEdge stamp at_ else t
  else s

/-- CAPTURE_EDGE (R51, R291, R292): an edge of polarity POL at a nanosecond of the current tick. -/
def execCaptureEdge (k : Fin 5) (off : Nat) (s : State) : Out :=
  .next (s.receiveAt (.captureEdge k off) true off 0 (fun t e g s => s.takeEdge k t e g))

/-- PPS_SOURCE_LOSS (R52, R292): no edge accepted for 24,000 ticks. -/
def execPpsSourceLoss (s : State) : Out :=
  .next (s.inCommit (fun s =>
    if s.get R.TIM_CTL_SRC = 2 ∧ s.tim.ppsAt + 24000 ≤ s.now then
      ({ s with tim := { s.tim with pps := none, ppsAt := s.now } }).sourceLost
    else s))

/-- RTC_SYNC (R295): in the tick that ends at a whole device second. -/
def execRtcSync (s : State) : Out :=
  .next (s.run (fun s =>
    let sec := s.tickEnd / secUnits
    let d := (s.rtcNow : Int) * 1000000 - (s.tim.start * 32768 / (secUnits / 1000000) : Nat)
    let off := s.on R.TIM_STAT_LOCK && decide (s.get R.TIM_CTL_SRC ≠ 0) && decide (32768 * 1000 ≤ d.natAbs)
    if s.tim.start / secUnits < sec ∧ (s.tim.rtcDue = true ∨ off = true) then
      { s with
        tim := { s.tim with rtcDue := false }, isl := { s.isl with rtcDue := some (sec % 2 ^ 48) } }
    else s))

end Sys2Proof.Machine
end

