-- ==== Sys2Proof/Machine/Wired.lean ====
section
/-!
DEFINITION. Meter buses, radio and UARTs (R255-R269): poll frames of RS-485 and radio, the M-Bus master and its wrapped
telegrams, jam and overload.  A bus is named by its serving-port code: 4 + n for RS485_n, 12 + b for MBUSb, 14 + r for RADIOr.
-/
namespace Sys2Proof.Machine

/-- An idle bus. -/
def bus0 (_ : Nat) : Bus := {}

/-- The bus of a serving-port code. -/
def State.busOf (s : State) (c : Nat) : Bus := SMap.get bus0 s.bus c

/-- A bus replaced. -/
def State.putBus (s : State) (c : Nat) (x : Bus) : State := { s with bus := SMap.put bus0 s.bus c x }

/-- The code of poll bus k: RS485_0-7, then RADIO0-3. -/
def pollBus (k : Nat) : Nat := if k < 8 then 4 + k else 6 + k

/-- Kinds of bus by code. -/
def isSer (c : Nat) : Bool := decide (4 ≤ c ∧ c < 12)
def isMbus (c : Nat) : Bool := decide (12 ≤ c ∧ c < 14)

/-- The port at the balls. -/
def busPort (c : Nat) : Port := if isSer c then .rs485 (c - 4) else if isMbus c then .mbus (c - 12) else .radio (c - 14)

/-- A bus is enabled and not silenced (R266); a radio has its script (R262). -/
def State.busUp (s : State) (c : Nat) : Bool :=
  (if isSer c then s.on (R.SER_BCTL_EN (c - 4)) else if isMbus c then s.on (R.MBS_CTL_EN (c - 12))
    else s.on (R.RAD_CTL_EN (c - 14)) && (s.busOf c).loaded) && (s.busOf c).silent.isNone

/-- The record queue of a bus (R258, R261). -/
def State.busQueue (s : State) (c : Nat) : Nat :=
  s.get (if isSer c then R.SER_BCTL_QUEUE (c - 4) else if isMbus c then R.MBS_CTL_QUEUE (c - 12) else R.RAD_CTL_QUEUE (c - 14))

/-- Retry rounds of a bus (R257): SER_BCFGn.RETRY, and 3, its reset value, where a bus has no such field. -/
def State.busRetry (s : State) (c : Nat) : Nat := if isSer c then s.get (R.SER_BCFG_RETRY (c - 4)) else 3

/-- The reply timeout of a bus, ticks (R257, R260); the reset value of SER_BCFGn.RTO for the radio, which has no such field. -/
def State.busRto (s : State) (c : Nat) : Nat :=
  if isSer c then s.get (R.SER_BCFG_RTO (c - 4)) else if isMbus c then s.get (R.MBS_CFG_RTO (c - 12)) else 40

/-- A frame that is discarded counts here (R258, R260). -/
def State.badFrame (s : State) (c : Nat) : State :=
  s.bump (if isSer c then R.SER_BCNT_BADFRM (c - 4) else if isMbus c then R.MBS_CNT_BADFRM (c - 12) else R.RAD_CNT_BADFRM (c - 14))

/-- The CRC of a poll frame (R256). -/
def pollCrc (b : List Byte) : Nat := crcL 16 0x1021 0xFFFF b

/-- Bits per second of RS-485 and M-Bus, and the ticks that `n` characters of 11 bits take (R255, R259). -/
def State.charTicks (s : State) (c n : Nat) : Nat :=
  if isSer c then ceilDiv (11 * n * 8000) (nth [9600, 19200, 38400, 115200, 460800] (s.get (R.SER_BCFG_BAUD (c - 4))) 9600)
  else if isMbus c then ceilDiv (11 * n * 8000) (nth [300, 2400, 9600] (s.get (R.MBS_CTL_BAUD (c - 12))) 2400)
  else 0

/-- The enable of an RS-485 driver takes a level (R255). -/
def State.driverEnable (s : State) (c : Nat) (on : Bool) : State :=
  s.send (.pin "RS485_DE") [BitVec.ofNat 8 (c - 4), BitVec.ofNat 8 (b2n on)]

/-- An RS-485 bus loops its transmit data to its receiver (R523). -/
def State.busLooped (s : State) (c : Nat) : Bool :=
  isSer c && (s.get R.PRT_LOOP_SER).testBit (c - 4) && decide (s.get R.KEY_LC_STATE = lcTest)

/-- Bytes that a looped bus sends enter its own reply buffer, their last character when it has been sent (R258, R523). -/
def State.loopBack (s : State) (c : Nat) (b : List Byte) : State :=
  let old := ((s.busOf c).reply.map Reply.bytes).getD []
  s.putBus c { s.busOf c with reply := some { bytes := (old ++ b).take 263, first := s.now + 1, last := s.now + s.charTicks c b.length } }

/-- Bytes sent on a bus: an RS-485 driver is enabled from the first start bit to the last stop bit (R255); a looped bus keeps its driver
off (R523). -/
def State.busSend (s : State) (c : Nat) (b : List Byte) : State :=
  if isSer c then
    if s.busLooped c then s.loopBack c b
    else ((s.putBus c { s.busOf c with drive := some (s.now + s.charTicks c b.length) }).driverEnable c true).send (busPort c) b
  else s.send (busPort c) b

/-- The driver of a bus whose last stop bit has been sent is released (R255). -/
def State.driverEnd (s : State) (c : Nat) : State :=
  match (s.busOf c).drive with
  | some t => if t ≤ s.now then (s.putBus c { s.busOf c with drive := none }).driverEnable c false else s
  | none => s

/-! ### Sweeps, rounds and misses (R241, R257) -/

/-- A boundary tick starts a sweep, or lets one follow the sweep that runs over it (R241, R257). -/
def State.busBoundary (s : State) (c : Nat) : State :=
  let x := s.busOf c
  if s.atBoundary ∧ x.counted ≠ s.now then
    s.putBus c (if x.on then { x with counted := s.now, again := true } else { x with counted := s.now, on := true, cursor := 0 })
  else s

/-- The meter buses and radios by serving-port code. -/
def busCodes : List Nat := (List.range 14).map (· + 4)

/-- Sweeps and rounds brought up to date: a sweep that ran over a boundary tick is followed by the next; when every meter of the round has
been polled, its missed meters form the next round's retry list. -/
def State.busRound (s : State) (c : Nat) : State :=
  let x := (s.busBoundary c).busOf c
  let left := if x.on then s.servedFrom c x.cursor else []
  let x : Bus := if x.on ∧ left = [] then { x with on := false } else x
  let x : Bus := if x.on = false ∧ x.again = true then { x with on := true, again := false, cursor := 0 } else x
  let t := s.putBus c x
  if x.retry = [] ∧ left = [] ∧ x.missed ≠ [] then
    let r := t.missRounds c (s.busRetry c) x.missed
    r.2.putBus c { r.2.busOf c with retry := r.1, missed := [] }
  else t

/-- The entry polled next: the retry list, then the sweep. -/
def State.busNext (s : State) (c : Nat) : Option Nat :=
  let x := s.busOf c
  match x.retry.findSome? (fun m => (s.dirFind m).filter (s.serves c)) with
  | some i => some i
  | none => if x.on then (s.servedFrom c x.cursor).head? else none

/-- A poll that starts leaves its meter's place in the retry list or the sweep. -/
def State.busTake (s : State) (c i : Nat) (req : BusReq) : State :=
  let x := s.busOf c
  let m := s.dirMeter i
  s.putBus c { x with
    req := some req, reply := none, lateOk := false, retry := x.retry.filter (fun e => decide (e ≠ m)),
    cursor := if x.retry.contains m then x.cursor else i + 1 }

/-- The outstanding poll is a miss (R257). -/
def State.busMiss (s : State) (c : Nat) : State :=
  let x := s.busOf c
  match x.req with
  | none => s
  | some r =>
    let x : Bus := { x with lateOk := false }
    if r.nke then s.putBus c { x with req := none, reply := none }
    else
      let t := (s.putBus c { x with
        req := none, reply := none, missed := if x.missed.contains r.meter then x.missed else x.missed ++ [r.meter] }).readCandidates r.meter
      match t.dirFind r.meter with
      | some i => t.putStat i [t.stat16 i 72]
      | none => t

/-- The outstanding poll is ANSWERED (R252, R257, R267). -/
def State.busAnswer (s : State) (c : Nat) (dseq : Option Nat) : State :=
  let x := s.busOf c
  match x.req with
  | none => s
  | some r =>
    let t := (s.putBus c { x with
      req := none, reply := none, missed := x.missed.filter (fun m => decide (m ≠ r.meter)) }).readCandidates r.meter
    match t.dirFind r.meter with
    | some i =>
      let b := t.stat77 i 3 1 0
      let b := match dseq with
        | some d => b % 64 + 64 * d
        | none => b
      t.putStat i (t.statAnswered i true ++ [(77, [BitVec.ofNat 8 b])])
    | none => t

/-- The acknowledgement that a waiting frame of a bus will be owed (R258, R262); none on M-Bus. -/
def Waiter.busAck (c : Nat) (w : Waiter) : Option BusAck :=
  match w with
  | .plc q addr d => if q = c then some { addr := addr, dseq := d } else none
  | .radio q addr d => if q = c then some { addr := addr, dseq := d, only := true } else none
  | .sup _ _ => none

/-- Waiting frames of a bus that have all their verdicts, at most `fuel` of them, become acknowledgements (R258). -/
def State.busAcks (c : Nat) : Nat → State → State
  | 0, s => s
  | f + 1, s =>
    let r := s.takeDone (fun w => (w.busAck c).isSome)
    match r.1 with
    | some w =>
      let acks := if isMbus c then [] else (w.who.busAck c).toList
      let t := r.2.putBus c { r.2.busOf c with acks := (r.2.busOf c).acks ++ acks }
      State.busAcks c f (w.recs.foldl (fun t e => t.clearPending c e) t)
    | none => s

/-! ### RS-485 and radio -/

/-- A request frame (R256). -/
def pollRequest (addr rmax : Nat) (ack : Option Nat) : List Byte :=
  let b := [0xA5#8] ++ leBytes 2 addr ++ [BitVec.ofNat 8 (rmax + (match ack with | some d => 8 + 16 * d | none => 0))]
  b ++ leBytes 2 (pollCrc b)

/-- A meter polled with RMAX 4 and perhaps an acknowledgement (R256, R257). -/
def State.pollMeter (s : State) (c i : Nat) (ack : Option Nat) : State :=
  let r : BusReq :=
    { meter := s.dirMeter i, addr := s.shortAddr i, rmax := 4, deadline := s.now + s.charTicks c 6 + s.busRto c }
  (s.busTake c i r).busSend c (pollRequest (s.shortAddr i) 4 ack)

/-- The next request of a serial or radio bus (R256, R257): an acknowledgement goes with the poll of its meter when that is next, and by
itself otherwise; one of an unprompted reply always goes by itself (R262). -/
def State.pollNext (s : State) (c : Nat) : State :=
  let s := State.busAcks c s.val.waits.length (s.busRound c)
  let x := s.busOf c
  let next := s.busNext c
  match x.acks, next with
  | a :: rest, some i =>
    let t := s.putBus c { x with acks := rest }
    if a.only = false ∧ a.addr = s.shortAddr i then t.pollMeter c i (some a.dseq)
    else t.busSend c (pollRequest a.addr 0 (some a.dseq))
  | a :: rest, none => (s.putBus c { x with acks := rest }).busSend c (pollRequest a.addr 0 (some a.dseq))
  | [], some i => s.pollMeter c i none
  | [], none => s

/-- SERIAL_REQUEST (R256, R257): once the last request has left the line, the next meter is polled, with its acknowledgement; one owed to a meter that is not next goes out
by itself and opens no slot. -/
def execSerialRequest (k : Fin 12) (s : State) : Out :=
  .next (s.run (fun s =>
    let c := pollBus k
    if s.busUp c = false ∨ (s.busOf c).req.isSome ∨ (s.busOf c).drive.isSome then s
    else
      s.pollNext c))

/-- A reply that passes the checks of R258, with its record count, for a request that granted `rmax`. -/
def replyParse (rmax : Nat) (b : List Byte) : Option (Nat × Nat × Nat) :=
  let n := b.length
  let k := leAt b 3 1 % 8
  if 6 ≤ n ∧ leAt b 0 1 = 0x5A ∧ bitsOf (leAt b 3 1) 3 3 = 0 ∧ k ≤ rmax ∧ n = 6 + 64 * k ∧
      leAt b (n - 2) 2 = pollCrc (b.take (n - 2)) then some (leAt b 1 2, k, leAt b 3 1 / 64)
  else none

/-- Characters with no request outstanding discarded: the late reply of the last request counts once; anything else, as the tail of a reply
that has been discarded, is no reply (R257, R258). -/
def State.dropLate (s : State) (c : Nat) : State :=
  let x := s.busOf c
  let t := s.putBus c { x with reply := none, lateOk := false }
  if x.lateOk && isSer c then t.bump (R.SER_BCNT_LATE (c - 4)) else t

/-- A reply in its slot (R257, R258), its first character seen in tick `first`: late, damaged, from another meter, or good. -/
def State.takeReply (s : State) (c first : Nat) (bytes : List Byte) : State :=
  match (s.busOf c).req with
  | none => s.dropLate c
  | some r =>
    if r.deadline < first then (if isSer c then s.bump (R.SER_BCNT_LATE (c - 4)) else s).busMiss c
    else match replyParse r.rmax bytes with
      | none => (s.badFrame c).busMiss c
      | some (addr, k, d) =>
        if addr ≠ r.addr then s.busMiss c
        else
          let t := s.busAnswer c (some d)
          if k = 0 then t else (t.deliverFrom (t.busQueue c) (.plc c addr d) (recsAt bytes 4 k)).2

/-- Characters received into the reply buffer of a bus (R258): the first of them seen `ago` ticks ago (R51), the last `idle` ticks ago.  The
buffer holds 262 bytes; one more marks the reply as too long. -/
def State.bufferReply (s : State) (c ago idle : Nat) (bytes : List Byte) : State :=
  if bytes = [] then s
  else
    let x := s.busOf c
    let r : Reply := match x.reply with
      | some r => { r with bytes := (r.bytes ++ bytes).take 263, last := s.now - idle }
      | none => { bytes := bytes.take 263, first := s.seenTick - ago, last := s.now - idle }
    s.putBus c { x with reply := some r }

/-- The reply buffer of a bus is judged and emptied (R258). -/
def State.judgeReply (s : State) (c : Nat) : State :=
  match (s.busOf c).reply with
  | some r => (s.putBus c { s.busOf c with reply := none }).takeReply c r.first r.bytes
  | none => s

/-- The inter-character gap limit of an RS-485 bus, ticks (R258). -/
def State.busGap (s : State) (n : Nat) : Nat := s.get (R.SER_BCFG_GAP n)

/-- A reply of an RS-485 bus whose next character comes more than GAP ticks after the last is discarded (R258). -/
def State.gapBroken (s : State) (n ago : Nat) (bytes : List Byte) : Bool :=
  match (s.busOf (4 + n)).reply with
  | some r => decide (bytes ≠ []) && decide (r.last + s.busGap n < s.now - ago)
  | none => false

/-- SERIAL_REPLY (R257, R258): characters of a reply; once the line has been idle for GAP ticks the reply is checked.  A looped bus hears
itself only (R523). -/
def execSerialReply (n : Fin 8) (ago idle : Nat) (bytes : List Byte) (s : State) : Out :=
  .next (s.receive (.serialReply n ago idle bytes) (fun s =>
    let c := 4 + n.val
    if s.busUp c = false ∨ s.busLooped c = true then s
    else if s.gapBroken n ago bytes then (if (s.busOf c).req.isSome then (s.badFrame c).busMiss c else s.dropLate c)
    else
      let t := s.bufferReply c ago idle bytes
      if s.busGap n ≤ idle then t.judgeReply c else t))

/-- A reply is under way whose first character was seen by the deadline of the outstanding request (R51, R52, R257). -/
def State.replyBegun (s : State) (c : Nat) : Bool :=
  match (s.busOf c).req, (s.busOf c).reply with
  | some r, some y => decide (y.first ≤ r.deadline)
  | _, _ => false

/-- The outstanding poll is a miss with no reply in time; a reply may still come late. -/
def State.busLate (s : State) (c : Nat) : State :=
  let t := s.busMiss c
  t.putBus c { t.busOf c with lateOk := true }

/-- The deadline of the outstanding request of a bus has passed with no reply begun (R257, R260, R52).  A radio frame or a telegram that stops
before its end is given up the reply timeout after its last byte, and counts as a bad frame (assumption 112). -/
def State.replyExpired (s : State) (c : Nat) : State :=
  let x := s.busOf c
  match x.req, x.reply with
  | some r, some y =>
    if s.replyBegun c then
      (if isSer c ∨ s.now < y.last + s.busRto c then s else (s.badFrame c).busMiss c)
    else if r.deadline ≤ s.now then s.busLate c else s
  | some r, none => if r.deadline ≤ s.now then s.busLate c else s
  | none, _ => s

/-- SERIAL_REPLY_TIMEOUT (R257, R52): in the commit phase of the deadline tick the poll is a miss. -/
def execSerialReplyTimeout (k : Fin 12) (s : State) : Out := .next (s.inCommit (fun s => s.replyExpired (pollBus k)))

/-- SERIAL_GAP_TIMEOUT (R258, R52): more than GAP ticks after the last character of a reply under way: a reply that is not whole is
discarded. -/
def execSerialGapTimeout (n : Fin 8) (s : State) : Out :=
  .next (s.inCommit (fun s =>
    match (s.busOf (4 + n)).reply with
    | some r => if r.last + s.busGap n < s.now then s.judgeReply (4 + n) else s
    | none => s))

/-- An unprompted reply of 1 to 4 records, judged as if its request had granted RMAX 4 (R262). -/
def State.takeUnprompted (s : State) (c : Nat) (bytes : List Byte) : State :=
  match replyParse 4 bytes with
  | some (addr, k, d) => if k = 0 then s.badFrame c else (s.deliverFrom (s.busQueue c) (.radio c addr d) (recsAt bytes 4 k)).2
  | none => s.badFrame c

/-- An unprompted frame: taken, or, beyond 16 in a tick, waiting in the transceiver (R266). -/
def State.unprompted (s : State) (c : Nat) (bytes : List Byte) : State :=
  let x := s.busOf c
  if x.taken < 16 then (s.putBus c { x with taken := x.taken + 1 }).takeUnprompted c bytes
  else s.putBus c { x with held := x.held ++ [bytes] }

/-- RADIO_FRAME (R262): a frame start, with no bytes, or a frame: the reply to the outstanding request, or an unprompted one. -/
def execRadioFrame (r : Fin 4) (ago : Nat) (bytes : List Byte) (s : State) : Out :=
  .next (s.receive (.radioFrame r ago bytes) (fun s =>
    let c := 14 + r.val
    let x := s.busOf c
    let first := match x.reply with
      | some y => y.first
      | none => s.seenTick - ago
    if s.busUp c = false then s
    else if bytes = [] then s.putBus c { x with reply := some { bytes := [], first := first, last := s.now } }
    else if x.req.any (fun q => decide (leAt bytes 1 2 = q.addr)) then (s.putBus c { x with reply := none }).takeReply c first bytes
    else (s.putBus c { x with reply := none }).unprompted c bytes))

/-- The entries of a script up to its next wait or its end (R486): the chunks sent, the wait in ms, the rest; none when the script has ended. -/
def scriptRun : Nat → List Byte → List (List Byte) × Option (Nat × List Byte)
  | 0, _ => ([], none)
  | _ + 1, [] => ([], none)
  | f + 1, c :: t =>
    let n := c.toNat
    if n = 0 then ([], none)
    else if 0x80 ≤ n then ([], some (n - 0x7F, t))
    else
      let r := scriptRun f (t.drop n)
      (t.take n :: r.1, r.2)

/-- A script carried on (R262, R486): its bytes leave in one assertion of RADr_CS_N for each entry; at its end the radio is loaded. -/
def State.runScript (s : State) (c : Nat) (b : List Byte) : State :=
  let r := scriptRun b.length b
  let t := r.1.foldl (fun (t : State) x => t.send (busPort c) x) s
  match r.2 with
  | some (ms, rest) => t.putBus c { t.busOf c with script := some (rest, t.now + 8 * ms) }
  | none => t.putBus c { t.busOf c with script := none, loaded := true }

/-- TRANSCEIVER_SCRIPT (R262, R486): a script begins after a reset of the port, and goes on after each of its waits. -/
def execTransceiverScript (r : Fin 4) (s : State) : Out :=
  .next (s.run (fun s =>
    let c := 14 + r.val
    let x := s.busOf c
    if s.on (R.RAD_CTL_EN r) ∧ x.loaded = false then
      match x.script, SMap.at? s.scripts r with
      | some (b, at1), _ => if at1 ≤ s.now then s.runScript c b else s
      | none, some b => s.runScript c b
      | none, none => s
    else s))

/-! ### M-Bus -/

/-- A short frame of EN 13757-2 (R259). -/
def mbusShort (ctl addr : Nat) : List Byte :=
  [0x10#8, BitVec.ofNat 8 ctl, BitVec.ofNat 8 addr, BitVec.ofNat 8 (ctl + addr), 0x16#8]

/-- The primary address of a slave (R260). -/
def State.primary (s : State) (i : Nat) : Nat := s.shortAddr i % 256

/-- SND_NKE to one slave (R260). -/
def State.sendNke (s : State) (c i : Nat) : State :=
  let x := s.busOf c
  let m := s.dirMeter i
  let r : BusReq :=
    { meter := m, addr := s.primary i, rmax := 0, deadline := s.now + s.charTicks c 5 + s.busRto c, nke := true }
  (s.putBus c { x with nke := x.nke ++ [m], req := some r, reply := none, fcb := x.fcb.filter (fun e => decide (e ≠ m)) }).busSend c
    (mbusShort 0x40 (s.primary i))

/-- SND_NKE (R260): each slave once after a die reset. -/
def execSndNke (b : Fin 2) (s : State) : Out :=
  .next (s.run (fun s =>
    let c := 12 + b.val
    let x := s.busOf c
    if s.busUp c = false ∨ x.req.isSome then s
    else match (s.servedFrom c 0).find? (fun i => !(x.nke.contains (s.dirMeter i))) with
      | none => s
      | some i =>
        s.sendNke c i))

/-- REQ_UD2 to the next slave of the sweep (R260). -/
def State.sendReqUd2 (s : State) (c : Nat) : State :=
  let s := State.busAcks c s.val.waits.length (s.busRound c)
  match s.busNext c with
  | none => s
  | some i =>
    let x := s.busOf c
    let m := s.dirMeter i
    if x.nke.contains m = false then s
    else
      let up := !(x.fcb.contains m)
      let fcb := if up then x.fcb ++ [m] else x.fcb.filter (fun e => decide (e ≠ m))
      let r : BusReq := { meter := m, addr := s.primary i, rmax := 0, deadline := s.now + s.charTicks c 5 + s.busRto c }
      let t := s.busTake c i r
      (t.putBus c { t.busOf c with fcb := fcb }).busSend c (mbusShort (if up then 0x7B else 0x5B) (s.primary i))

/-- REQ_UD2 (R259, R260): the next slave of the sweep that has had its SND_NKE, the FCB toggled. -/
def execReqUd2 (b : Fin 2) (s : State) : Out :=
  .next (s.run (fun s =>
    let c := 12 + b.val
    if s.busUp c = false ∨ (s.busOf c).req.isSome then s
    else
      s.sendReqUd2 c))

/-- A correct RSP_UD long frame from primary address `a` (R259, R260). -/
def longFrameOk (a : Nat) (b : List Byte) : Bool :=
  let n := b.length
  let l := leAt b 1 1
  decide (9 ≤ n ∧ leAt b 0 1 = 0x68 ∧ leAt b 2 1 = l ∧ leAt b 3 1 = 0x68 ∧ n = l + 6 ∧ leAt b (n - 1) 1 = 0x16 ∧
    leAt b (n - 2) 1 = ((b.drop 4).take l).foldl (fun t x => (t + x.toNat) % 256) 0 ∧
    leAt b 4 1 % 16 = 8 ∧ leAt b 4 1 < 64 ∧ leAt b 5 1 = a)

/-- The meter key of a METER and epoch, derived inside the key derivation unit (R108, R362). -/
def State.keyOfMeter (s : State) (meter epoch : Nat) : Option (List Byte) :=
  s.baseNote.map (fun b => meterKey (heartNote b (domainOf meter) epoch) meter epoch)

/-- A type 05h record (R74, R261). -/
def wrapRecord (key : List Byte) (meter ctr stamp bus addr k n : Nat) (frag : List Byte) : Rec :=
  let head := [5#8, BitVec.ofNat 8 (4 + frag.length), 1#8, 0#8] ++ leBytes 4 meter ++ leBytes 4 ctr ++ leBytes 4 stamp ++
    [BitVec.ofNat 8 (16 * k + (n - 1)), BitVec.ofNat 8 bus, BitVec.ofNat 8 addr, 0#8] ++ frag
  let r := sliceB head 0 56
  recOf (r ++ (cmac key r).take 8)

/-- A telegram wrapped and delivered (R261). -/
def State.wrapTelegram (s : State) (c i : Nat) (bytes : List Byte) : State :=
  let x := s.busOf c
  let m := s.dirMeter i
  let slot := s.dirNat i 4 4 % 2 ^ 20
  let first := !(x.raised.contains m)
  let raise := fun (s : State) =>
    let t := (s.fwDir 10 ⟨0, slot, 0, 0⟩).putBus c { x with raised := x.raised ++ [m] }
    if t.dirNat i 78 4 < t.rpl slot then t.putStat i [(78, leBytes 4 (t.rpl slot))] else t
  let s := if first then raise s else s
  let w := s.dirNat i 78 4
  let n := ceilDiv bytes.length 36
  match s.keyOfMeter m (s.dirNat i 10 2) with
  | none => s
  | some key =>
    if 2 ^ 32 ≤ w + n then s
    else
      let recs := ((List.range n).zip (chunks 36 n bytes)).map (fun e =>
        wrapRecord key m (w + 1 + e.1) s.curInt (c - 12) (s.primary i) e.1 n e.2)
      let t := s.putStat i [(78, leBytes 4 (w + n))]
      (t.deliverFrom (t.busQueue c) (.plc c (t.primary i) 0) recs).2

/-- A reply has all its bytes: E5h, or a long frame as its length field has it; one that begins otherwise is whole as it is (R259). -/
def mbusWhole (b : List Byte) : Bool :=
  decide (leAt b 0 1 ≠ 0x68) || (decide (2 ≤ b.length) && decide (leAt b 1 1 + 6 ≤ b.length))

/-- A correct telegram of a slave: wrapped, or, while the test interface holds the directory and firmware cannot keep the wrap counter,
waiting (R261, R524; DESIGN CHOICE, assumption 136). -/
def State.giveTelegram (s : State) (c meter : Nat) (bytes : List Byte) : State :=
  if s.on R.PRT_CTL_DIRHOLD then s.putBus c { s.busOf c with grams := (s.busOf c).grams ++ [(meter, bytes)] }
  else
    let t := s.readCandidates meter
    match t.dirFind meter with
    | some i => t.wrapTelegram c i bytes
    | none => t

/-- The telegrams that waited, once the directory is free. -/
def State.wrapHeld (s : State) (c : Nat) : State :=
  if s.on R.PRT_CTL_DIRHOLD ∨ (s.busOf c).grams = [] then s
  else (s.busOf c).grams.foldl (fun t e => t.giveTelegram c e.1 e.2) (s.putBus c { s.busOf c with grams := [] })

/-- A whole M-Bus reply whose first character was seen in tick `first` (R260, R261): E5h answers SND_NKE; a long frame, or E5h of a slave with
nothing to send, answers REQ_UD2; anything else is a bad frame. -/
def State.takeTelegram (s : State) (c first : Nat) (bytes : List Byte) : State :=
  match (s.busOf c).req with
  | none => if bytes = [0xE5#8] ∨ longFrameOk (leAt bytes 5 1) bytes = true then s else s.badFrame c
  | some r =>
    if r.deadline < first then s.busMiss c
    else if bytes = [0xE5#8] then
      (if r.nke then s.putBus c { s.busOf c with req := none } else s.busAnswer c none)
    else if r.nke = false ∧ longFrameOk r.addr bytes = true then
      (s.busAnswer c none).giveTelegram c r.meter bytes
    else (s.badFrame c).busMiss c

/-- RSP_UD (R260, R261): characters of a reply, the first of them seen `ago` ticks ago; the reply is taken when it is whole. -/
def execRspUd (b : Fin 2) (ago : Nat) (bytes : List Byte) (s : State) : Out :=
  .next (s.receive (.rspUd b ago bytes) (fun s =>
    let c := 12 + b.val
    let t := s.bufferReply c ago 0 bytes
    match (t.busOf c).reply with
    | some y => if mbusWhole y.bytes then (t.putBus c { t.busOf c with reply := none }).takeTelegram c y.first y.bytes else t
    | none => t))

/-- MBUS_REPLY_TIMEOUT (R260, R52). -/
def execMbusReplyTimeout (b : Fin 2) (s : State) : Out := .next (s.inCommit (fun s => s.replyExpired (12 + b)))

/-! ### Every tick -/

/-- What the buses do in a capture phase: boundary ticks are noted, drivers released, telegrams that waited wrapped, and waiting radio frames
taken, 16 in a tick (R241, R255, R261, R266). -/
def State.busTick (s : State) : State :=
  busCodes.foldl (fun (s : State) c =>
    let t := ((s.busBoundary c).driverEnd c).wrapHeld c
    let x := t.busOf c
    if x.taken = 0 ∧ x.held = [] then t
    else x.held.foldl (fun (t : State) b => t.unprompted c b) (t.putBus c { x with taken := 0, held := [] })) s

/-! ### Jam and overload (R266) -/

/-- A bus falls silent: the poll under way ends as a miss. -/
def State.silence (s : State) (c kind : Nat) : State :=
  let t := s.busMiss c
  (t.putBus c { t.busOf c with silent := some s.now, reply := none }).raise 0x0B01 11 1 [(0, 1, c), (1, 1, kind)]

/-- A silence of 8,000 ticks ends, in a commit phase (R52). -/
def State.unsilence (s : State) (c : Nat) : State :=
  match (s.busOf c).silent with
  | some t => if t + 8000 ≤ s.now then s.putBus c { s.busOf c with silent := none } else s
  | none => s

/-- JAM (R51, R266). -/
def execJam (k : Fin 12) (s : State) : Out :=
  .next (s.sense (.jam k) (fun s =>
    let c := pollBus k
    if s.busUp c then (s.flag (if isSer c then R.SER_BSTAT_JAM (c - 4) else R.RAD_STAT_JAM (c - 14))).silence c 0 else s))

/-- JAM_END (R266). -/
def execJamEnd (k : Fin 12) (s : State) : Out := .next (s.inCommit (fun s => s.unsilence (pollBus k)))

/-- MBUS_OVERLOAD (R51, R266). -/
def execMbusOverload (b : Fin 2) (s : State) : Out :=
  .next (s.sense (.mbusOverload b) (fun s => if s.busUp (12 + b) then (s.flag (R.MBS_STAT_OVL b)).silence (12 + b) 1 else s))

/-- MBUS_OVERLOAD_RETRY (R266). -/
def execMbusOverloadRetry (b : Fin 2) (s : State) : Out := .next (s.inCommit (fun s => s.unsilence (12 + b)))

/-! ### Token lines (R264) -/

/-- A hex digit in upper case. -/
def hexVal (b : Byte) : Option Nat :=
  let n := b.toNat
  if 48 ≤ n ∧ n ≤ 57 then some (n - 48) else if 65 ≤ n ∧ n ≤ 70 then some (n - 55) else none

/-- Bytes from upper-case hex digits. -/
def hexBytes : List Byte → Option (List Byte)
  | [] => some []
  | [_] => none
  | a :: b :: t => match hexVal a, hexVal b, hexBytes t with
    | some x, some y, some r => some (BitVec.ofNat 8 (16 * x + y) :: r)
    | _, _, _ => none

/-- The token identifier of a line of R264, when the line is good. -/
def tokenOf (line : List Byte) : Option (List Byte) :=
  let n := line.length
  if 7 ≤ n ∧ line.take 2 = [84#8, 44#8] ∧ line.drop (n - 2) = [13#8, 10#8] ∧ leAt line (n - 5) 1 = 44 ∧
      (n = 15 ∨ n = 21 ∨ n = 27) then
    match hexBytes ((line.drop 2).take (n - 7)), hexBytes ((line.drop (n - 4)).take 2) with
    | some id, some x => if x = [id.foldl (· ^^^ ·) 0#8] then some id else none
    | _, _ => none
  else none

end Sys2Proof.Machine
end

