-- ==== Sys2Proof/Machine/Charge.lean ====
section
/-!
DEFINITION. The charging outlets (R381-R412): pilot, contactor, lock, residual current, offers, sessions, records, accounts,
token lines and display lines.
-/
namespace Sys2Proof.Machine

/-! ### Outlets -/

/-- An outlet at reset. -/
def out0 (_ : Nat) : Outlet := {}
def State.outlet (s : State) (o : Nat) : Outlet := SMap.get out0 s.chg.outlets o
def State.putOutlet (s : State) (o : Nat) (x : Outlet) : State :=
  { s with chg := { s.chg with outlets := SMap.put out0 s.chg.outlets o x } }

/-- An outlet changed. -/
def State.onOutlet (s : State) (o : Nat) (f : Outlet → Outlet) : State := s.putOutlet o (f (s.outlet o))

/-- The state of an outlet (R399): 0 OFF, 1 IDLE, 2 CONNECTED, 3 AUTH, 4 CHARGING, 5 PAUSED, 6 ENDING, 7 LOCKOUT, 8 FAULT,
9 DISABLED. -/
def State.outState (s : State) (o : Nat) : Nat := s.get (R.CHG_STAT_STATE o)

/-- A pin of an outlet. -/
def chgPort (o : Nat) (name : String) : Port := .pin ("CHG" ++ toString o ++ "_" ++ name)

/-- A level that a pin of an outlet takes at cycle 0 of the next tick (R37). -/
def State.chgPin (s : State) (o : Nat) (name : String) (v : Nat) : State := s.drive (chgPort o name) [BitVec.ofNat 8 v]

/-- The test winding of a residual-current channel (R381, R393). -/
def rdcTest (o : Nat) : Port := .pin ("RDC" ++ toString o ++ "_TEST")

/-- The pilot output that the state and the duty give (R384, R399): low, the PWM at a duty, or +12 V, in FAULT during a measurement. -/
def State.pilotOut (s : State) (o : Nat) : State :=
  let st := s.outState o
  let d := s.get (R.CHG_OFFER_DUTY o)
  let b := if st = 8 ∧ (s.outlet o).measAt.isSome then [1#8] else if st = 0 ∨ 8 ≤ st then [0#8] else if (st = 3 ∨ st = 4) ∧ d ≠ 0 then [2#8] ++ leBytes 2 d else [1#8]
  s.drive (chgPort o "CPOUT") b

/-- The latch of a trip released; the safe-open line follows the comparator (R394). -/
def State.clearTrip (s : State) (o : Nat) : State :=
  (s.onOutlet o (fun x => { x with tripped := false })).set (R.CHG_STAT_SAFE o) (b2n (s.outlet o).comp)

/-- An outlet placed in a state; one that leaves LOCKOUT releases the latch of its trip (R394). -/
def State.toOut (s : State) (o st : Nat) : State :=
  let t := if s.outState o = 7 ∧ st ≠ 7 then s.clearTrip o else s
  let t := t.set (R.CHG_STAT_STATE o) st
  let t := if st = 3 then t.onOutlet o (fun x => { x with inAuth := s.now }) else t
  t.pilotOut o

/-- The duty of an offer in per mille (R385). -/
def dutyOf (i : Nat) : Nat := if i < 60 then 0 else if i ≤ 510 then 5 * i / 3 else 2 * i / 5 + 640

/-- The cable capability of a proximity code, 0.1 A (R387). -/
def cableOf (code : Nat) : Nat := nth [0, 130, 200, 320, 630] code 0
def State.cable (s : State) (o : Nat) : Nat :=
  cableOf (if s.on (R.CHG_CTL_TETHER o) then s.get (R.CHG_CTL_CABLE o) else s.get (R.CHG_STAT_PP o))

/-- A session is open on an outlet (R402, R410): SACC.REASON reads 0. -/
def State.inSession (s : State) (o : Nat) : Bool := decide (s.get (R.CHG_SID_SID o) ≠ 0) && decide (s.get (R.CHG_SACC_REASON o) = 0)

/-- The pilot allows charging (R388): state C, or D with VENT. -/
def State.pilotReady (s : State) (o : Nat) : Bool :=
  let cp := s.get (R.CHG_STAT_CP o)
  decide (cp = 2) || (decide (cp = 3) && s.on (R.CHG_CTL_VENT o))

/-- CHGo_K removed: the contacts must follow (R389). -/
def State.dropK (s : State) (o : Nat) : State :=
  if s.on (R.CHG_STAT_K o) then
    ((s.set (R.CHG_STAT_K o) 0).onOutlet o (fun x => { x with kAll := false, check := some (false, s.now), kAt := none })).chgPin o "K" 0
  else s

/-- A close decided in this tick does not take place (R409): K is not asserted, and the session is as it was before. -/
def State.undoClose (s : State) (o : Nat) : State :=
  let t := (s.set (R.CHG_STAT_K o) 0).onOutlet o (fun x => { x with kAll := false, check := none, kAt := none })
  let t := { t with outNext := t.outNext.filter (fun e => decide (e.1 ≠ chgPort o "K")) }
  if (s.outlet o).kFirst then
    { t.set (R.CHG_SE0_E0 o) 0 with isl := { t.isl with closed := SMap.put zB t.isl.closed o false } }
  else t

/-- K forced inactive by the hard-wired line, not at the tick (R394, R502); it meets a close of its own tick before K is asserted (R409). -/
def State.forceOpen (s : State) (o : Nat) : State :=
  if s.on (R.CHG_STAT_K o) then
    if (s.outlet o).kAt = some s.now then s.undoClose o else (s.dropK o).send (chgPort o "K") [0#8]
  else s

/-- A self-test given up: the test winding is released (R393). -/
def State.stopTest (s : State) (o : Nat) : State :=
  let x := s.outlet o
  let t := s.onOutlet o (fun x => { x with test := none, inj := none })
  if x.test.isSome ∧ x.inj.isNone then t.drive (rdcTest o) [0#8] else t

/-! ### Accounts and receipts (R406) -/

def tariff0 (_ : Nat) : TariffT := {}

/-- The receipt key (R365, R406): in the first page that a processor owns, loaded at the generation of the array. -/
def State.rcptLoad (s : State) : Option Nat × State :=
  let own := (List.range 256).find? (fun p => decide (1 ≤ s.pageOwner p ∧ s.pageOwner p ≤ 4))
  match own, s.ftl.sys with
  | some p, some y =>
    if s.chg.rcpt = some (p, y.gen) ∧ (s.page p).key ≠ [] then (some p, s)
    else
      let r := (s.nameSlot p 1).loadKey (s.pageOwner p) p 2 y.gen
      if r.1 = 1 then (some p, { r.2 with chg := { r.2.chg with rcpt := some (p, y.gen) } }) else (none, r.2)
  | _, _ => (none, s)

/-- The 40-byte body of a receipt (R406). -/
def rcptBody (acct : Nat) (a : Option Acct) (sid rtc : Nat) : List Byte :=
  match a with
  | some a =>
    leBytes 2 acct ++ [BitVec.ofNat 8 (1 + 2 * b2n a.blocked), BitVec.ofNat 8 a.tariff] ++ leBytes 8 (unsgn 64 a.bal) ++ leBytes 4 a.xfer ++
      leBytes 4 sid ++ leBytes 4 rtc ++ [BitVec.ofNat 8 a.token.length] ++ sliceB a.token 0 10 ++ List.replicate 5 0#8
  | none => sliceB (leBytes 2 acct ++ List.replicate 14 0#8 ++ leBytes 4 sid ++ leBytes 4 rtc) 0 40

/-- The account in a receipt body. -/
def rcptParse (b : List Byte) : Option Acct :=
  if (leAt b 2 1).testBit 0 then
    some ⟨sliceB b 25 (leAt b 24 1), leAt b 3 1, (leAt b 2 1).testBit 1, sgn 64 (leAt b 4 8), leAt b 12 4⟩
  else none

/-- A receipt sealed with a counter of slot 1 and accepted by the ledger: false when either fails. -/
def State.receipt (s : State) (acct sid : Nat) : Bool × State :=
  let l := s.rcptLoad
  match l.1 with
  | none => (false, l.2)
  | some p =>
    if l.2.storWrites = false then (false, l.2)
    else
      let c := l.2.sealSlot p 1 [] (rcptBody acct (SMap.at? s.chg.accounts acct) sid (s.get R.RTC_SECLO_SEC))
      match c.1 with
      | none => (false, c.2)
      | some x =>
        let r := c.2.acceptOne 3 0 0 0 false (recOf (leBytes 8 x.1 ++ x.2.1 ++ x.2.2))
        match r.1 with
        | some lsn => (true, { r.2 with ftl := { r.2.ftl with receipt := SMap.put zN r.2.ftl.receipt acct (lsn + 1) } })
        | none => (false, r.2)

/-- An account put in the table, or removed from it. -/
def State.putAcct (s : State) (acct : Nat) (a : Option Acct) : State :=
  { s with chg := { s.chg with accounts := match a with
      | some a => SMap.ins s.chg.accounts acct a
      | none => SMap.del s.chg.accounts acct } }

/-- A balance as a 64-bit two's-complement value (R406). -/
def bal64 (n : Int) : Int := sgn 64 (unsgn 64 n)

/-- Task 0Ah runs: not through a restart (R409). -/
def State.task0A (s : State) : Bool := s.upd.pauseAt.isNone && !s.upd.lanes && decide (s.get R.CFG_STAT_SAFE = 0)

/-- One debit that waits: the table is debited once it stands, and a receipt follows (R403, R409). -/
def State.payOne (s : State) (e : Nat × Nat × Nat) : Bool × State :=
  match SMap.at? s.chg.accounts e.1 with
  | none => (true, s)
  | some a => (s.putAcct e.1 (some { a with bal := bal64 (a.bal - e.2.2) })).receipt e.1 e.2.1

/-- Debits that wait (R409). -/
def State.payOwed (s : State) : State :=
  if s.chg.restored then
    s.chg.owed.foldl (fun (s : State) e =>
      let r := s.payOne e
      if r.1 then r.2 else { r.2 with chg := { r.2.chg with owed := r.2.chg.owed ++ [(e.1, e.2.1, 0)] } })
      { s with chg := { s.chg with owed := [] } }
  else s

/-! ### Sessions -/

/-- The sum of the import registers on the outlet's phases, 0.1 Wh (R403). -/
def State.importSum (s : State) (o : Nat) : Nat :=
  [0, 1, 2].foldl (fun a p =>
    if (s.get (R.CHG_CTL_PHASES o)).testBit p then a + s.cum (s.get (R.CHG_CTL_MGRP o)) p 0 else a) 0

/-- K has been asserted in the session. -/
def State.wasClosed (s : State) (o : Nat) : Bool := SMap.get zB s.isl.closed o

/-- CHG_SENG brought up to the import registers. -/
def State.sessEnergy (s : State) (o : Nat) : State :=
  if s.wasClosed o then
    s.set (R.CHG_SENG_E o) ((s.importSum o + 2 ^ 32 - s.get (R.CHG_SE0_E0 o)) % 2 ^ 32)
  else s

/-- The amount charged (R403). -/
def amountOf (t : TariffT) (e d : Nat) : Nat := t.fee + e * t.pkwh / 10000 + d * t.phour / 3600

/-- The end reasons of R401 in the order of their priority. -/
def reasonOrder : List Nat := [4, 5, 6, 7, 14, 10, 13, 8, 9, 1, 3, 2, 12, 11]

/-- The priority of a reason, and whether it removes K at once. -/
def reasonPrio (code : Nat) : Nat := (reasonOrder.findIdx? (fun c => decide (c = code))).getD 14
def reasonAtOnce (code : Nat) : Bool := decide (reasonPrio code < 8)

/-- The session's account is debited and its record waits (R403, R405). -/
def State.closeBooks (s : State) (o code dur : Nat) (t : TariffT) : State :=
  let s := s.sessEnergy o
  let amount := if s.wasClosed o then amountOf t (s.get (R.CHG_SENG_E o)) dur else 0
  let u := (s.setAll [(R.CHG_SACC_REASON o, code), (R.CHG_STAT_PEND o, 1)]).wrap R.CHG_CNT_SESS
  let u := u.onOutlet o (fun x => { x with ended := some ⟨dur, amount, t.id, s.curInt, s.now⟩ })
  let acct := s.get (R.CHG_SACC_ACCT o)
  let sid := s.get (R.CHG_SID_SID o)
  match SMap.at? s.chg.accounts acct, s.chg.restored with
  | some a, true =>
    let v := u.putAcct acct (some { a with bal := bal64 (a.bal - amount) })
    { v with chg := { v.chg with owed := v.chg.owed ++ [(acct, sid, 0)] } }
  | _, _ => { u with chg := { u.chg with owed := u.chg.owed ++ [(acct, sid, amount)] } }

/-- SESSION_END (R401): the reason with the lowest priority number found in the tick; the PWM stops, and K is removed at once for the
reasons that say so. -/
def State.endCharge (s : State) (o code : Nat) : State :=
  if s.isl.warned then s
  else if s.inSession o then
    let x := s.outlet o
    let t := s.closeBooks o code ((s.now - x.authAt) / ticksPerSec) x.table
    let t := t.setAll [(R.CHG_OFFER_OFFER o, 0), (R.CHG_OFFER_DUTY o, 0)]
    let t := (t.stopTest o).onOutlet o (fun x => { x with
      stopAt := some (x.stopAt.getD s.now), passed := false, lockAt := none })
    let t := t.toOut o 6
    if reasonAtOnce code then t.dropK o else t
  else
    match (s.outlet o).ended with
    | some e =>
      if e.tick = s.now ∧ reasonPrio code < reasonPrio (s.get (R.CHG_SACC_REASON o)) then
        let t := s.set (R.CHG_SACC_REASON o) code
        if reasonAtOnce code then t.dropK o else t
      else s
    | none => s

/-- CONTACTOR_WELD (R389). -/
def State.weld (s : State) (o : Nat) : State :=
  let t := (s.set (R.CHG_STAT_WELD o) 1).raise 0x0902 9 2
    [(0, 1, o), (1, 1, s.get (R.CHG_STAT_MIR o)), (2, 1, s.get (R.CHG_STAT_VP o))]
  let t := (t.endCharge o 6).toOut o 8
  let t := t.onOutlet o (fun x => { x with check := none })
  if s.on (R.CHG_CTL_SHUNT o) then (t.onOutlet o (fun x => { x with shuntAt := some s.now })).chgPin o "SHUNT" 1 else t

/-! ### Inputs of a tick -/

/-- DC of a window of ticks, each with the mean and the mean square of its current (R392): the mean.  DESIGN CHOICE (assumption 138): the
value shown is the mean cut off to 0.1 mA, and a window that is not full yet is the ticks there are. -/
def windowDc (w : List (Int × Nat)) : Int := Int.tdiv (w.foldl (fun a x => a + x.1) 0) w.length

/-- AC of a window of ticks (R392): the rms with DC removed. -/
def windowAc (w : List (Int × Nat)) : Nat :=
  let s := w.foldl (fun a x => a + x.1) 0
  isqrt ((((w.length * w.foldl (fun a x => a + x.2) 0 : Nat) : Int) - s * s).toNat / (w.length * w.length))

/-- The window without the current of the outlet's own test winding (R393). -/
def ownRemoved (w : List (Int × Nat × Int)) : List (Int × Nat) :=
  w.map (fun x => (x.1 - x.2.2, ((x.2.1 : Int) - 2 * x.2.2 * x.1 + x.2.2 * x.2.2).toNat))

/-- The trip counters of R392 after the values of a tick. -/
def runsAfter (dc ac : Nat) (osc : Bool) (runs : List Nat) : List Nat :=
  let hit := [decide (60 ≤ dc), decide (600 ≤ dc), decide (2000 ≤ dc), decide (300 ≤ ac), !osc]
  hit.zipWith (fun h n => if h then n + 1 else 0) (sliceN runs)
where
  /-- five counters -/
  sliceN (l : List Nat) : List Nat := (List.range 5).map (fun k => nth l k 0)

/-- The current that the test winding of an outlet carries in a tick, 0.1 mA (R393). -/
def Outlet.own (x : Outlet) (now : Nat) : Int := if x.test.any (fun a => decide (a < now)) ∧ x.inj.isNone then 300 else 0

/-- The window of an outlet after a further tick (R392). -/
def Outlet.window (y : Outlet) (now : Nat) (x : ChgIn) : List (Int × Nat × Int) := ((x.cur, x.sq, y.own now) :: y.win).take 80

/-- The values of a tick taken by the trip logic (R392, R393, R410): DC and AC of the window as measured are shown, and the trip counters
take them without the outlet's own test current. -/
def State.rcdValues (s : State) (o : Nat) (x : ChgIn) : State :=
  let w := (s.outlet o).window s.now x
  let seen := w.map (fun e => (e.1, e.2.1))
  let dc := windowDc seen
  let t := s.setAll [(R.CHG_RC_DC o, unsgn 16 (clampI (-32768) 32767 dc)), (R.CHG_RC_AC o, min 65535 (windowAc seen))]
  let t := if s.inSession o then t.set (R.CHG_SMAX_DCMAX o) (max (s.get (R.CHG_SMAX_DCMAX o)) (min 65535 dc.natAbs)) else t
  t.onOutlet o (fun y => { y with
    win := w,
    runs := runsAfter (windowDc (ownRemoved w)).natAbs (windowAc (ownRemoved w)) x.osc y.runs,
    inj := if y.test.any (fun a => decide (a + 240 ≤ s.now)) ∧ y.inj.isNone then some dc else y.inj })

/-- The inputs of an outlet sampled in a capture phase: contacts that have followed end the check, a lock that has engaged ends the
wait (R389, R390); the comparator follows its input (R394). -/
def State.outInputs (s : State) (o : Nat) (x : ChgIn) : State :=
  let t := s.setAll [(R.CHG_STAT_MIR o, b2n x.mir), (R.CHG_STAT_VP o, b2n x.vp), (R.CHG_STAT_LOCKED o, b2n x.lock)]
  if s.on (R.CHG_CTL_EN o) then
    let t := t.rcdValues o x
    let t := t.onOutlet o (fun y =>
      let sec := decide (s.now % ticksPerSec = 0)
      { y with
        check := (match y.check with
          | some (true, a) => if x.mir = false ∧ x.vp = true then none else some (true, a)
          | some (false, a) => if x.mir = true ∧ x.vp = false then none else some (false, a)
          | none => none),
        lockAt := if x.lock then none else y.lockAt,
        comp := y.comp && s.on (R.CHG_STAT_K o),
        kSec := if sec then y.kAll else y.kSec,
        kAll := if sec then s.on (R.CHG_STAT_K o) else y.kAll })
    let t := if (t.outlet o).inj.isSome ∧ (s.outlet o).inj.isNone then
        t.drive (rdcTest o) [0#8] else t
    t.set (R.CHG_STAT_SAFE o) (b2n ((t.outlet o).tripped || (t.outlet o).comp))
  else t

/-- The pilot state ends a session with CPFAULT (R401). -/
def State.pilotBad (s : State) (o : Nat) : Bool :=
  let cp := s.get (R.CHG_STAT_CP o)
  decide (4 ≤ cp ∧ cp ≤ 6) || (decide (cp = 3) && !(s.on (R.CHG_CTL_VENT o)))

/-- The states that the pilot state in force moves on (R399): IDLE and CONNECTED follow it, and ENDING ends at A. -/
def State.pilotFollow (s : State) (o : Nat) : State :=
  let st := s.outState o
  let cp := s.get (R.CHG_STAT_CP o)
  if st = 1 ∧ cp = 1 then s.toOut o 2 else if cp = 0 ∧ (st = 2 ∨ st = 6) then s.toOut o 1 else s

/-- The measurement of the pilot in FAULT (R399): +12 V for the 3 ms that a state takes, and low again unless it has found A.  When one
begins, while WELD is 0, is open (assumption 138): a free value says so. -/
def State.faultMeasure (s : State) (o : Nat) : State :=
  if s.outState o = 8 then
    match (s.outlet o).measAt with
    | some a => if a + 25 ≤ s.now then (s.onOutlet o (fun x => { x with measAt := none })).pilotOut o else s
    | none =>
      if s.on (R.CHG_STAT_WELD o) then s
      else
        let d := s.draw
        if d.1.getLsbD 0 then (d.2.onOutlet o (fun x => { x with measAt := some s.now })).pilotOut o else d.2
  else s

/-- What the commit phase of each tick does for an outlet: a pilot fault (R401), energy and credit limit (R403), lock release (R390), the end of the shunt
pulse (R389), the trips of the last hour (R392), the measurement in FAULT (R399). -/
def State.outTick (s : State) (o : Nat) : State :=
  if s.on (R.CHG_CTL_EN o) then
    let t := if s.inSession o then s.sessEnergy o else s
    let t := if t.inSession o ∧ t.pilotBad o then t.endCharge o 5 else t
    let t := if t.inSession o ∧ t.get (R.CHG_SLIM_LIM o) ≤ t.get (R.CHG_SENG_E o) then t.endCharge o 3 else t
    let x := t.outlet o
    let t := if x.lock ∧ t.inSession o = false ∧ t.on (R.CHG_STAT_MIR o) ∧ t.on (R.CHG_STAT_VP o) = false ∧
        t.on (R.CHG_STAT_WELD o) = false then
        (t.onOutlet o (fun x => { x with lock := false })).chgPin o "LOCK" 0 else t
    let t := if x.shuntAt.any (fun a => decide (a + 800 ≤ s.now)) then
        (t.onOutlet o (fun x => { x with shuntAt := none })).chgPin o "SHUNT" 0 else t
    let trips := x.trips.filter (fun a => decide (s.now < a + 28800000))
    ((t.onOutlet o (fun x => { x with trips := trips })).set (R.CHG_TRIP_HOUR o) (min 15 trips.length)).pilotFollow o |>.faultMeasure o
  else s

/-- The commit phase for both outlets. -/
def State.chgTick (s : State) : State := if s.isl.warned then s else (List.range 2).foldl State.outTick s

/-! ### Pilot and proximity -/

/-- The pilot PWM runs (R384, R399). -/
def State.pwmOn (s : State) (o : Nat) : Bool :=
  decide (s.outState o = 3 ∨ s.outState o = 4) && decide (s.get (R.CHG_OFFER_DUTY o) ≠ 0)

/-- The pilot state that a period's positive and negative levels in mV give (R386). -/
def pilotCode (pwm : Bool) (pos neg : Int) : Nat :=
  if 10500 ≤ pos then 0
  else if 1500 ≤ pos then
    if pwm = true ∧ -10500 < neg then 5 else if 7500 ≤ pos then 1 else if 4500 ≤ pos then 2 else 3
  else if -1500 ≤ pos ∧ -1500 ≤ neg ∧ neg ≤ 1500 then 4
  else 6

/-- The proximity code of a resistance in Ω (R387). -/
def proxCode (r : Nat) : Nat :=
  if 4500 ≤ r then 0 else if 1100 ≤ r ∧ r ≤ 2460 then 1 else if 400 ≤ r ∧ r ≤ 936 then 2 else if 164 ≤ r ∧ r ≤ 308 then 3
  else if 80 ≤ r ∧ r ≤ 140 then 4 else 7

/-- What three readings in a row that agree give (R386, R387). -/
def agreed (l : List Nat) : Option Nat :=
  match l with
  | [a, b, c] => if a = b ∧ b = c then some a else none
  | _ => none

/-- A pilot state taken (R386, R391, R399, R401): outside C and D the contactor opens; a fault, or a vehicle that leaves, ends the session;
A found by the measurement in FAULT ends it while WELD is 0. -/
def State.pilotChange (s : State) (o cp : Nat) : State :=
  let old := s.get (R.CHG_STAT_CP o)
  let t := s.set (R.CHG_STAT_CP o) cp
  let ok := t.pilotReady o
  let t := if ok then t else t.dropK o
  let t := if ok = false ∧ t.outState o = 4 then t.toOut o 3 else t
  let t := if t.pilotBad o then t.endCharge o 5 else if cp = 0 ∧ old ≠ 0 ∧ old ≠ 7 then t.endCharge o 1 else t
  if cp = 0 ∧ t.outState o = 8 ∧ t.on (R.CHG_STAT_WELD o) = false ∧ (t.outlet o).measAt.any (fun a => decide (a + 24 ≤ s.now)) then
    (t.onOutlet o (fun x => { x with measAt := none })).toOut o 1
  else t.pilotFollow o

/-- PILOT_STATE_CHANGE (R51, R386): the levels of three periods in a row. -/
def execPilotStateChange (o : Fin 2) (r : List (Int × Int)) (s : State) : Out :=
  .next (s.sense (.pilotStateChange o r) (fun s =>
    match agreed (r.map (fun x => pilotCode (s.pwmOn o) x.1 x.2)) with
    | some cp => if s.on (R.CHG_CTL_EN o) then s.pilotChange o cp else s
    | none => s))

/-- PROXIMITY_CHANGE (R387, R401): three readings in a row; ignored with TETHER; a plug that leaves a socket outlet is UNPLUG. -/
def execProximityChange (o : Fin 2) (r : List Nat) (s : State) : Out :=
  .next (s.receive (.proximityChange o r) (fun s =>
    match agreed (r.map proxCode) with
    | some pp =>
      if s.on (R.CHG_CTL_EN o) ∧ s.on (R.CHG_CTL_TETHER o) = false then
        let t := s.set (R.CHG_STAT_PP o) pp
        if pp = 0 ∧ s.get (R.CHG_STAT_PP o) ≠ 0 then t.endCharge o 1 else t
      else s
    | none => s))

/-! ### Contactor and lock -/

/-- The contactor of an outlet closed, and the energy of the first close kept (R388, R405). -/
def State.closeK (s : State) (o : Nat) : State :=
  let t := s.set (R.CHG_STAT_K o) 1
  let t := if s.wasClosed o then t
    else { t.set (R.CHG_SE0_E0 o) (s.importSum o % 2 ^ 32) with isl := { t.isl with closed := SMap.put zB t.isl.closed o true } }
  let t := t.onOutlet o (fun x => { x with check := some (true, s.now), kAt := some s.now, kFirst := !(s.wasClosed o) })
  (t.chgPin o "K" 1).toOut o 4

/-- CONTACTOR_CLOSE (R388, R389, R403, R409): K is asserted in a commit phase in which every condition holds; contacts found wrong
before it are a weld. -/
def execContactorClose (o : Fin 2) (s : State) : Out :=
  .next (s.inCommit (fun s =>
    let x := s.outlet o
    let off := s.get (R.CHG_OFFER_OFFER o)
    if s.inSession o = true ∧ x.passed = true ∧ s.outState o = 3 ∧ s.pilotReady o = true ∧ 60 ≤ off ∧
        off ≤ s.cable o ∧ s.on (R.CHG_STAT_SAFE o) = false ∧ s.on (R.CHG_STAT_K o) = false ∧
        (s.on (R.CHG_CTL_TETHER o) = true ∨ s.on (R.CHG_CTL_LOCKEN o) = false ∨ s.on (R.CHG_STAT_LOCKED o) = true) ∧ x.check = none then
      if s.on (R.CHG_STAT_MIR o) = false ∨ s.on (R.CHG_STAT_VP o) = true then s.weld o
      else
        s.closeK o
    else s))

/-- CONTACTOR_CHECK_TIMEOUT (R52, R389): the contacts have not followed within 1,600 ticks; after a close K is removed and a session that
is still open ends with CONFAIL. -/
def execContactorCheckTimeout (o : Fin 2) (s : State) : Out :=
  .next (s.inCommit (fun s =>
    match (s.outlet o).check with
    | some (want, a) =>
      if a + 1600 ≤ s.now then
        if want then ((s.onOutlet o (fun x => { x with check := none })).endCharge o 7).dropK o else s.weld o
      else s
    | none => s))

/-- LOCK_TIMEOUT (R52, R390). -/
def execLockTimeout (o : Fin 2) (s : State) : Out :=
  .next (s.inCommit (fun s =>
    match (s.outlet o).lockAt with
    | some a =>
      if a + 8000 ≤ s.now ∧ s.on (R.CHG_STAT_LOCKED o) = false then
        (s.onOutlet o (fun x => { x with lockAt := none })).endCharge o 14
      else s
    | none => s))

/-! ### Residual current -/

/-- The row of R392 that has been met. -/
def tripLevel (runs : List Nat) : Option Nat :=
  (List.range 5).find? (fun k => decide (nth [6400, 240, 16, 16, 2] k 0 ≤ nth runs k 0))

/-- The decision of the trip logic (R392, R394, R401): a row that has been met removes K, latches the safe-open line, is counted and
reported, and ends the session. -/
def State.tripCheck (s : State) (o : Nat) : State :=
  let x := s.outlet o
  match tripLevel x.runs with
  | none => s
  | some k =>
    if x.tripped ∨ s.on (R.CHG_CTL_EN o) = false then s
    else
      let trips := (x.trips.filter (fun a => decide (s.now < a + 28800000))) ++ [s.now]
      let t := s.forceOpen o
      let t := (t.setAll [(R.CHG_TRIP_LEVEL o, k + 1), (R.CHG_TRIP_HOUR o, min 15 trips.length), (R.CHG_STAT_SAFE o, 1)])
      let t := t.set (R.CHG_TRIP_TOTAL o) (satAdd 16 (s.get (R.CHG_TRIP_TOTAL o)) 1)
      let t := t.onOutlet o (fun x => { x with tripped := true, trips := trips })
      let t := t.raise 0x0901 9 2 [(0, 1, o), (1, 1, k + 1), (2, 2, s.get (R.CHG_RC_DC o)), (4, 2, s.get (R.CHG_RC_AC o)),
        (6, 4, s.get (R.CHG_SID_SID o))]
      let t := t.endCharge o 4
      if s.outState o = 9 then t else t.toOut o (if s.get R.CHG_LM2_TRIPMAX ≤ trips.length then 9 else 7)

/-- The inputs of both outlets in a capture phase, and the trips that they are (R392). -/
def State.chgCapture (s : State) (l : List ChgIn) : State :=
  (List.range 2).foldl (fun (s : State) o => match l[o]? with
    | some x => (s.outInputs o x).tripCheck o
    | none => s) s

/-- RESIDUAL_CURRENT_TRIP (R392): the decision of the capture phase. -/
def execResidualCurrentTrip (o : Fin 2) (s : State) : Out := .next (s.run (fun s => s.tripCheck o))

/-- TRIP_ISLAND_TIMER (R395): the trip logic goes on with the values of the island's 125 us timer. -/
def execTripIslandTimer (o : Fin 2) (x : ChgIn) (s : State) : Out :=
  .next (s.run (fun s => if s.on (R.CHG_CTL_EN o) then (s.rcdValues o x).tripCheck o else s))

/-- SELF_TEST (R393): when a session opens and to leave LOCKOUT, with K inactive. -/
def execSelfTest (o : Fin 2) (s : State) : Out :=
  .next (s.run (fun s =>
    let x := s.outlet o
    let due := (s.inSession o && !x.passed) || (decide (s.outState o = 7) && decide (s.get (R.CHG_STAT_CP o) = 0))
    if s.on (R.CHG_CTL_EN o) ∧ due = true ∧ x.test = none ∧ s.on (R.CHG_STAT_K o) = false then
      (s.onOutlet o (fun x => { x with test := some s.now, inj := none })).drive (rdcTest o) [1#8]
    else s))

/-- SELF_TEST_RESULT (R393, R399): passed once DC has fallen below 3.0 mA, failed on a reading out of range or after 240 ticks more. -/
def execSelfTestResult (o : Fin 2) (s : State) : Out :=
  .next (s.run (fun s =>
    let x := s.outlet o
    match x.test, x.inj with
    | some a, some i =>
      let low := decide ((sgn 16 (s.get (R.CHG_RC_DC o))).natAbs < 30)
      let good := decide (250 ≤ i ∧ i ≤ 350)
      if good = false ∨ (low = false ∧ s.phase = .commit ∧ a + 480 ≤ s.now) then
        ((s.stopTest o).endCharge o 8).toOut o 8
      else if low then
        let t := (s.stopTest o).onOutlet o (fun x => { x with passed := s.inSession o })
        if s.outState o = 7 then t.toOut o 1 else t
      else s
    | _, _ => s))

/-- CP_COMPARATOR_SAFE_OPEN (R394, R409): K is forced inactive; with a close in the same tick the session ends with CPFAULT. -/
def execCpComparatorSafeOpen (o : Fin 2) (s : State) : Out :=
  .next (s.run (fun s =>
    if s.on (R.CHG_STAT_K o) then
      let now := decide ((s.outlet o).kAt = some s.now)
      let t := (s.forceOpen o).set (R.CHG_STAT_SAFE o) 1
      let t := t.onOutlet o (fun x => { x with comp := true })
      if now then t.endCharge o 5 else if t.outState o = 4 then t.toOut o 3 else t
    else s))

/-! ### Offers -/

/-- The available current of phase p (R396), 0.1 A. -/
def State.headroom (s : State) (p : Nat) : Nat :=
  let own := [0, 1].foldl (fun a o => if (s.outlet o).kSec then a + s.get (R.MTR_IRMS_IRMS (s.get (R.CHG_CTL_MGRP o)) p) / 100 else a) 0
  (((s.get R.CHG_LM_IRATED + own : Nat) : Int) - s.get (R.MTR_IRMS_IRMS 0 p) / 100 - s.get R.CHG_LM_RESERVE).toNat

/-- The cap of an outlet, and whether it competes on a phase (R397). -/
def State.cap (s : State) (o : Nat) : Nat := min (s.cable o) (s.get (R.CHG_LIM_IMAX o))
def State.competes (s : State) (o p : Nat) : Bool := s.inSession o && (s.get (R.CHG_CTL_PHASES o)).testBit p

/-- The target of an outlet (R397). -/
def State.target (s : State) (o : Nat) : Nat :=
  let cap := s.cap o
  let blind := (s.get R.MTR_STAT_EXCFLT).testBit 0 || !(s.chgSecond.any Prod.snd)
  let t := if blind then min cap 60
    else [0, 1, 2].foldl (fun a p =>
      if s.competes o p then
        let h := s.headroom p
        min a (if s.competes (1 - o) p then max (h / 2) (h - s.cap (1 - o)) else h)
      else a) cap
  if t < 60 then 0 else t

/-- OFFER_CHANGE (R398, R399): the offer becomes the target when the hold time and the step allow. -/
def State.offerChange (s : State) (o : Nat) : State :=
  let off := s.get (R.CHG_OFFER_OFFER o)
  let tgt := s.target o
  let x := s.outlet o
  let st := s.outState o
  if s.inSession o ∧ 3 ≤ st ∧ st ≤ 5 ∧ x.tripped = false ∧ (x.offerAt.all (fun a => decide (a + 40000 ≤ s.now))) ∧
      (tgt < off ∨ off + s.get R.CHG_LM2_STEP ≤ tgt) ∧ tgt ≠ off then
    let t := s.setAll [(R.CHG_OFFER_OFFER o, tgt), (R.CHG_OFFER_DUTY o, dutyOf tgt),
      (R.CHG_SMAX_OFFMAX o, max (s.get (R.CHG_SMAX_OFFMAX o)) tgt)]
    let t := t.onOutlet o (fun x => { x with offerAt := some s.now, stopAt := if tgt = 0 then some s.now else none })
    if tgt = 0 then t.toOut o 5
    else if st = 5 then t.toOut o (if s.on (R.CHG_STAT_K o) then 4 else 3)
    else t.pilotOut o
  else s

/-- The offers of a second whose values have been published: CHG_HEAD when group 0 has values, then both outlets (R396-R398). -/
def State.offerTick (s : State) : State :=
  let t := if s.chgSecond.any Prod.snd then
      [0, 1, 2].foldl (fun (t : State) p => t.set (R.CHG_HEAD_A p) (min 65535 (s.headroom p))) s
    else s
  { [0, 1].foldl State.offerChange t with chgSecond := none }

/-- OFFER_COMPUTE (R396-R398): in the first tick after the values of R168 are published. -/
def execOfferCompute (s : State) : Out :=
  .next (s.run (fun s => if s.chgSecond.any (fun e => decide (e.1 + 1 = s.now)) then s.offerTick else s))

/-- PAUSED_CONTACTOR_RELEASE (R52, R398, R401): pilot B, or 24,000 ticks after the PWM stopped. -/
def execPausedContactorRelease (o : Fin 2) (s : State) : Out :=
  .next (s.run (fun s =>
    let st := s.outState o
    let late := decide (s.phase = .commit) && (s.outlet o).stopAt.any (fun a => decide (a + 24000 ≤ s.now))
    if st ≠ 3 ∧ st ≠ 4 ∧ (s.get (R.CHG_STAT_CP o) = 1 ∨ late = true) then s.dropK o else s))

/-! ### Authorisation -/

/-- The credit limit at a duration (R403). -/
def creditLimit (bal : Int) (t : TariffT) (d : Nat) : Nat :=
  if t.pkwh = 0 then 0xFFFFFFFF
  else min 0xFFFFFFFF (((bal - t.fee - ((d + 60) * t.phour / 3600 : Nat)) * 10000) / t.pkwh).toNat

/-- An account with an open session. -/
def State.acctOpen (s : State) (acct : Nat) : Bool :=
  [0, 1].any (fun o => s.inSession o && decide (s.get (R.CHG_SACC_ACCT o) = acct))

/-- A session opens (R390, R399, R403, R410). -/
def State.openCharge (s : State) (o acct : Nat) (a : Acct) : State :=
  let sid := (s.get R.CHG_SEQ_SEQ + 1) % 2 ^ 32
  let tb := SMap.get tariff0 s.chg.tariffs a.tariff
  let t := s.setAll [(R.CHG_SEQ_SEQ, sid), (R.CHG_SID_SID o, sid), (R.CHG_SACC_ACCT o, acct), (R.CHG_SACC_TARIFF o, a.tariff),
    (R.CHG_SACC_REASON o, 0), (R.CHG_SSTART_RTC o, s.get R.RTC_SECLO_SEC), (R.CHG_SE0_E0 o, 0), (R.CHG_SENG_E o, 0),
    (R.CHG_SMAX_OFFMAX o, 0), (R.CHG_SMAX_DCMAX o, 0), (R.CHG_SLIM_LIM o, creditLimit a.bal tb 0)]
  let t := { t with isl := { t.isl with closed := SMap.put zB t.isl.closed o false, tables := SMap.put tariff0 t.isl.tables o tb } }
  let lock := s.on (R.CHG_CTL_LOCKEN o)
  let t := (t.stopTest o).onOutlet o (fun x => { x with
    authAt := s.now, table := tb, offerAt := none, stopAt := none, passed := false,
    lock := x.lock || lock, lockAt := if lock then some s.now else none })
  let t := if lock then t.chgPin o "LOCK" 1 else t
  t.toOut o 3

/-- TOKEN_AUTHORISATION and START (R400): 1 started, or why it is refused: 2 outlet busy, 3 no account or blocked, 4 low credit,
5 otherwise. -/
def State.authorise (s : State) (o acct : Nat) : Nat × State :=
  let st := s.outState o
  let no := fun (t : State) (k : Nat) => (k, t.bump R.CHG_CNT_REFUSED)
  if ¬(st = 1 ∨ st = 2) ∨ s.on (R.CHG_STAT_PEND o) then no s 2
  else
    match SMap.at? s.chg.accounts acct with
    | none => no s (if s.chg.restored then 3 else 5)
    | some a =>
      if a.blocked then no s 3
      else if s.acctOpen acct ∨ s.chg.restored = false then no s 5
      else
        let l := s.rcptLoad
        if l.1 = none ∨ s.stor = 3 then no l.2 5
        else if creditLimit a.bal (SMap.get tariff0 s.chg.tariffs a.tariff) 0 < 1000 then no l.2 4
        else (1, l.2.openCharge o acct a)

/-- The five operations of CHG_AUTH (R399-R401, R410). -/
def State.authOp (s : State) (o op acct : Nat) : State :=
  let st := s.outState o
  if s.isl.warned then s
  else if op = 1 then
    let r := s.authorise o acct
    r.2.set (R.CHG_STAT_ARES o) r.1
  else if op = 2 then s.endCharge o 2
  else if op = 3 then
    let t := s.set (R.CHG_STAT_WELD o) 0
    if st = 8 then t.toOut o 1 else t
  else if op = 4 then (if st = 0 then s else (s.endCharge o 12).toOut o 9)
  else if op = 5 then
    (if st = 9 then ((s.dropK o).clearTrip o).toOut o 1 else s)
  else s

/-- AUTHORISATION_TIMEOUT (R52, R400). -/
def execAuthorisationTimeout (o : Fin 2) (s : State) : Out :=
  .next (s.inCommit (fun s =>
    if s.outState o = 3 ∧ s.inSession o = true ∧ (s.outlet o).inAuth + s.get (R.CHG_LIM_AUTHTO o) * ticksPerSec ≤ s.now then s.endCharge o 11
    else s))

/-- The limit that firmware writes for the open session of an outlet (R403). -/
def State.limitNow (s : State) (o : Nat) : Option Nat :=
  if s.inSession o then
    (SMap.at? s.chg.accounts (s.get (R.CHG_SACC_ACCT o))).map (fun a =>
      creditLimit a.bal (s.outlet o).table ((s.now - (s.outlet o).authAt) / ticksPerSec))
  else none

/-! ### Records (R405) -/

/-- The type 04h record of an ended session (R73, R405). -/
def State.chargeRecord (s : State) (o ctr : Nat) (e : EndedSession) (key : List Byte) : Rec :=
  let head := [4#8, 40#8, 0#8, 0#8] ++ leBytes 4 (s.get R.CHG_MTR_METER) ++ leBytes 4 ctr ++ leBytes 4 e.stamp ++
    leBytes 4 (s.get (R.CHG_SACC_ACCT o)) ++ [BitVec.ofNat 8 o, BitVec.ofNat 8 (s.get (R.CHG_SACC_REASON o))] ++
    leBytes 2 (s.get (R.CHG_SMAX_OFFMAX o)) ++ leBytes 4 (s.get (R.CHG_SSTART_RTC o)) ++ leBytes 4 e.dur ++
    leBytes 4 (s.get (R.CHG_SENG_E o)) ++ leBytes 4 e.amount ++ leBytes 4 e.tariff ++ leBytes 4 (s.get (R.CHG_SID_SID o)) ++
    leBytes 2 (s.get (R.CHG_SMAX_DCMAX o)) ++ List.replicate 6 0#8
  recOf (head ++ (cmac key head).take 8)

/-- The session record of an ended session, under the counter and key of the outlet's own meter (R405, R406); a refused frame is counted
(R80) and the record waits. -/
def State.writeSession (s : State) (o i : Nat) (e : EndedSession) : State :=
  let slot := s.dirNat i 4 4 % 2 ^ 20
  let s := if s.chg.raised then s
    else
      let t := s.fwDir 10 ⟨0, slot, 0, 0⟩
      { t.set R.CHG_CTR_CTR (max (s.get R.CHG_CTR_CTR) (s.rpl slot)) with chg := { t.chg with raised := true } }
  match s.ownKey i with
  | none => s
  | some key =>
    let ctr := s.get R.CHG_CTR_CTR + 1
    let q := s.get R.CHG_CFG_QUEUE
    if 2 ^ 32 ≤ ctr then s
    else
      let t := s.openFrame q 1 false
      if (t.queue q).frame.isNone then t
      else
        let t := (t.commitFrame q [s.chargeRecord o ctr e key]).setAll [(R.CHG_CTR_CTR, ctr), (R.CHG_STAT_PEND o, 0)]
        t.onOutlet o (fun x => { x with ended := none })

/-- SESSION_RECORD (R405, R406): the debit's receipt, and the record once it can be made. -/
def execSessionRecord (o : Fin 2) (s : State) : Out :=
  .next (s.run (fun s =>
    if s.task0A = false then s
    else
      let s := s.payOwed.readCandidates (s.get R.CHG_MTR_METER)
      match (s.outlet o).ended, s.dirFind (s.get R.CHG_MTR_METER) with
      | some e, some i =>
        if s.on (R.CHG_STAT_PEND o) = false ∨ e.tick = s.now then s
        else
          s.writeSession o i e
      | _, _ => s))

/-! ### Account commands (R408) -/

/-- Results of R408. -/
def acDone : Nat := 0
def acNotfound : Nat := 1
def acOldxfer : Nat := 2
def acBadarg : Nat := 3
def acInsession : Nat := 4
def acNotable : Nat := 5
def acStorerr : Nat := 6

/-- A command completed. -/
def State.acctDone (s : State) (res : Nat) : State :=
  let t := (s.setAll [(R.CHG_ARES_RESULT, res), (R.CHG_ACMD_BUSY, 0)]).wrap R.CHG_ARES_SEQ
  { t with chg := { t.chg with cmd := none } }

/-- A write of CHG_ACMD.OP latched (R408). -/
def State.acctLatch (s : State) (op : Nat) : State :=
  { s.set R.CHG_ACMD_BUSY 1 with chg := { s.chg with cmd := some (op, 0, 0, 0, 0, s.now) } }

/-- The arguments of a command latched in this commit, as all its writes leave them. -/
def State.acctArgs (s : State) : State :=
  let a := fun n => s.get (R.CHG_AARG_ARG n)
  match s.chg.cmd with
  | some (op, _, _, _, _, t) =>
    if t = s.now then { s with chg := { s.chg with cmd := some (op, a 0, a 1, a 2, a 3, t) } } else s
  | none => s

/-- The latched command with this OP, carried out by task 0Ah from the tick after its commit (R408): its arguments to `act`, which gives the result. -/
def State.acctRun (s : State) (op : Nat) (act : Nat → Nat → Nat → Nat → State → Nat × State) : State :=
  match s.chg.cmd with
  | some (k, a0, a1, a2, a3, at1) =>
    if k = op ∧ s.task0A = true ∧ at1 < s.now then
      let r := act a0 a1 a2 a3 s
      r.2.acctDone r.1
    else s
  | none => s

/-- A change of an account with its receipt: STORERR, and no change, when the ledger does not accept it. -/
def State.acctChange (s : State) (acct : Nat) (a : Option Acct) : Nat × State :=
  let r := (s.putAcct acct a).receipt acct 0
  if r.1 then (acDone, r.2) else (acStorerr, r.2.putAcct acct (SMap.at? s.chg.accounts acct))

/-- An existing account of a table that stands. -/
def State.acctNamed (s : State) (a0 : Nat) (f : Nat → Acct → Nat × State) : Nat × State :=
  if s.chg.restored = false then (acNotable, s)
  else if 4096 ≤ a0 then (acBadarg, s)
  else match SMap.at? s.chg.accounts a0 with
    | some a => f a0 a
    | none => (acNotfound, s)

/-- SETACC (R408): creates or changes an account, with balance 0 when new. -/
def execSetacc (s : State) : Out :=
  .next (s.run (fun s => s.acctRun 1 (fun a0 a1 a2 a3 s =>
    let len := bitsOf a3 16 4
    let token := sliceB (leBytes 4 a1 ++ leBytes 4 a2 ++ leBytes 2 (a3 % 65536)) 0 len
    if s.chg.restored = false then (acNotable, s)
    else if 4096 ≤ a0 ∨ bitsOf a3 20 4 ≠ 0 ∨ bitsOf a3 28 4 ≠ 0 ∨ ¬(len = 4 ∨ len = 7 ∨ len = 10) then (acBadarg, s)
    else
      let old := SMap.at? s.chg.accounts a0
      if s.acctOpen a0 ∧ old.any (fun a => decide (a.token ≠ token)) then (acInsession, s)
      else
        let b := old.getD ⟨token, 0, false, 0, 0⟩
        s.acctChange a0 (some { b with token := token, tariff := bitsOf a3 24 4 }))))

/-- CREDIT (R408): when the transfer number exceeds the last one. -/
def execAccountCredit (s : State) : Out :=
  .next (s.run (fun s => s.acctRun 2 (fun a0 a1 a2 _ s => s.acctNamed a0 (fun n a =>
    if a2 ≤ a.xfer then (acOldxfer, s) else s.acctChange n (some { a with bal := bal64 (a.bal + sgn 32 a1), xfer := a2 })))))

/-- BLOCK (R408). -/
def execAccountBlock (s : State) : Out :=
  .next (s.run (fun s => s.acctRun 3 (fun a0 a1 _ _ s => s.acctNamed a0 (fun n a =>
    if 2 ≤ a1 then (acBadarg, s) else s.acctChange n (some { a with blocked := decide (a1 = 1) })))))

/-- READ (R408): balance, transfer number, status and tariff to CHG_ADAT. -/
def execAccountRead (s : State) : Out :=
  .next (s.run (fun s => s.acctRun 4 (fun a0 _ _ _ s => s.acctNamed a0 (fun _ a =>
    let b := unsgn 64 a.bal
    (acDone, s.setAll [(R.CHG_ADAT_DATA 0, b % 2 ^ 32), (R.CHG_ADAT_DATA 1, b / 2 ^ 32), (R.CHG_ADAT_DATA 2, a.xfer),
      (R.CHG_ADAT_DATA 3, 1 + 2 * b2n a.blocked + 256 * a.tariff)])))))

/-- TARIFF (R404, R408): replaces a table. -/
def execTariff (s : State) : Out :=
  .next (s.run (fun s => s.acctRun 5 (fun a0 a1 a2 a3 s =>
    if bitsOf a0 4 12 ≠ 0 then (acBadarg, s)
    else (acDone, { s with chg := { s.chg with
      tariffs := SMap.put tariff0 s.chg.tariffs (a0 % 16) ⟨a1, a2, a3, a0 / 65536⟩ } }))))

/-- REMOVE (R408). -/
def execAccountRemove (s : State) : Out :=
  .next (s.run (fun s => s.acctRun 6 (fun a0 _ _ _ s => s.acctNamed a0 (fun n _ =>
    if s.acctOpen n then (acInsession, s) else s.acctChange n none))))

/-- Every entry of the ledger with its LSN, in LSN order. -/
def State.ledgerEntries (s : State) : List (Nat × Entry) :=
  let put := fun (l : Nat) (es : List Entry) => (List.range es.length).zipWith (fun k e => (l + k, e)) es
  s.ftl.units.flatMap (fun u => match s.unitEntries u.lun with
    | some d => put d.1 d.2
    | none => []) ++ s.ftl.bufs.flatMap (fun b => put b.lsn b.ents)

/-- The ledger units on the array read (R417). -/
def State.ledgerSeen (s : State) : State := s.readLuns (s.ftl.units.map LUnit.lun)

/-- A receipt opened with the key in page `p` (R348, R406): its account, whether its tag verifies, its body and its LSN. -/
def State.rcptOpen (s : State) (p l : Nat) (e : Entry) : (Nat × Bool × List Byte × Nat) × State :=
  let b := recBytes e.data
  let c := leAt b 0 8
  let ct := sliceB b 8 40
  let body := gcmCrypt (s.page p).key (nonceOf (s.page p).salt c) ct
  let r := s.openSession p c [] ct (sliceB b 48 16) 1 (fun _ t => t)
  ((leAt body 0 2 % 4096, r.1.isSome, body, l), r.2)

/-- What the receipts of an account give so far (R407): the body of the newest one that verifies, whether the newest of all fails, and its
LSN. -/
abbrev RcptSeen := Option (List Byte) × Bool × Nat

/-- The account that its receipts give (R407): that of the newest receipt that verifies, blocked when the newest of all fails. -/
def rcptAccount (x : RcptSeen) : Option Acct :=
  let a := x.1.bind rcptParse
  if x.2.1 then some { a.getD ⟨[], 0, true, 0, 0⟩ with blocked := true } else a

/-- Accounts taken from the receipts of the ledger, opened with the key in page `p` (R407). -/
def State.rebuildFrom (s : State) (p : Nat) : State :=
  let s := s.ledgerSeen
  let r := (s.ledgerEntries.filter (fun e => decide (e.2.kind = 3))).foldl
    (fun (x : SMap RcptSeen × State) e =>
      let o := x.2.rcptOpen p e.1 e.2
      let old := (SMap.at? x.1 o.1.1).bind Prod.fst
      (SMap.ins x.1 o.1.1 (if o.1.2.1 then some o.1.2.2.1 else old, !o.1.2.1, o.1.2.2.2), o.2)) ([], s)
  let t := r.1.foldl (fun (t : State) e =>
    let u := t.putAcct e.1 (rcptAccount e.2)
    let u := { u with ftl := { u.ftl with receipt := SMap.put zN u.ftl.receipt e.1 (e.2.2.2 + 1) } }
    if e.2.2.1 = false then u else u.raise 0x0903 9 1 [(0, 2, e.1)]) { r.2 with chg := { r.2.chg with accounts := [] } }
  ({ t with chg := { t.chg with restored := true } }).payOwed

/-- ACCOUNT_REBUILD (R407): the table from the newest receipt of each account; one that fails is blocked. -/
def execAccountRebuild (s : State) : Out :=
  .next (s.run (fun s =>
    if s.chg.restored ∨ s.task0A = false ∨ s.on R.FTL_STAT_RESTORED = false then s
    else
      let r := s.rcptLoad
      match r.1 with
      | none => r.2
      | some p =>
        r.2.rebuildFrom p))

/-! ### Reader and display -/

/-- The ASCII bytes of a string. -/
def ascii (x : String) : List Byte := x.toList.map (fun c => BitVec.ofNat 8 c.toNat)

/-- TOKEN_AUTHORISATION (R400): a token that names an open session's account stops it; otherwise it authorises the lower-numbered
outlet of the reader in CONNECTED, else in IDLE. -/
def State.takeToken (s : State) (u : Nat) (id : List Byte) : Bool × State :=
  match if s.isl.warned then none else s.chg.accounts.find? (fun e => decide (e.2.token = id)) with
  | none => (false, s.bump R.CHG_CNT_REFUSED)
  | some (acct, _) =>
    match [0, 1].find? (fun o => s.inSession o && decide (s.get (R.CHG_SACC_ACCT o) = acct)) with
    | some o => (true, s.endCharge o 2)
    | none =>
      let mine := [0, 1].filter (fun o => s.on (R.CHG_CTL_EN o) && decide (s.get (R.CHG_CTL_RDR o) = u))
      let pick := match mine.find? (fun o => decide (s.outState o = 2)) with
        | some o => some o
        | none => mine.find? (fun o => decide (s.outState o = 1))
      match pick with
      | none => (false, s.bump R.CHG_CNT_REFUSED)
      | some o =>
        let r := s.authorise o acct
        (decide (r.1 = 1), r.2)

/-- A line of the RFID reader (R264, R400). -/
def State.takeLine (s : State) (u : Nat) (line : List Byte) : State :=
  let x := s.uartOf u
  let t := s.putUart u { x with lineAt := some s.now }
  if x.lineAt.any (fun a => decide (s.now < a + 800)) then t.bump (R.SER_UCNT_BADLINE u)
  else
    match tokenOf line with
    | none => (t.bump (R.SER_UCNT_BADLINE u)).send (.uart u) (ascii "NO\r\n")
    | some id => { t with chg := { t.chg with tokens := t.chg.tokens ++ [(u, id)] } }

/-- The tokens of a tick taken and answered, after the START commands of the tick (R400). -/
def State.takeTokens (s : State) : State :=
  s.chg.tokens.foldl (fun (t : State) e =>
    let r := t.takeToken e.1 e.2
    r.2.send (.uart e.1) (ascii (if r.1 then "OK\r\n" else "NO\r\n"))) { s with chg := { s.chg with tokens := [] } }

/-- RFID_LINE (R264, R266, R400, R409). -/
def execRfidLine (u : Fin 4) (line : List Byte) (s : State) : Out :=
  .next (s.receive (.rfidLine u line) (fun s =>
    if s.get (R.SER_UCTL_ROLE u) ≠ 2 ∨ s.task0A = false then s
    else
      s.takeLine u line))

/-- Digits of a number in a base, most significant first. -/
def digits (base : Nat) : Nat → Nat → List Byte
  | 0, _ => []
  | k + 1, n => digits base k (n / base) ++ [let d := n % base; BitVec.ofNat 8 (if d < 10 then 48 + d else 55 + d)]

/-- The line of the display in a second (R265). -/
def State.showLine (s : State) (u sec : Nat) : State :=
  let l := s.draw
  let line := ascii "D," ++ digits 16 8 s.curInt ++ ascii "," ++ digits 10 3 (s.get (R.CHG_OFFER_OFFER 0)) ++ ascii "," ++
    digits 10 3 (s.get (R.CHG_OFFER_OFFER 1)) ++ ascii "," ++
    [BitVec.ofNat 8 (65 + l.1.toNat % 26), BitVec.ofNat 8 (65 + l.1.toNat / 26 % 26)] ++ ascii "\r\n"
  (l.2.putUart u { s.uartOf u with shown := some sec }).send (.uart u) line

/-- DISPLAY_LINE (R265): one line for each device second; the letters of the outlet states are open. -/
def execDisplayLine (u : Fin 4) (s : State) : Out :=
  .next (s.run (fun s =>
    let sec := secOf s.tim.start
    if s.get (R.SER_UCTL_ROLE u) = 3 ∧ (s.uartOf u).shown ≠ some sec then
      s.showLine u sec
    else s))

/-! ### At a start, and an erased key store -/

/-- Outlets at step 7 of the start order (R399); the sessions open before it end with the reason that cut them off, else with `code`
(SESSION_END_AT_START, R402), under the table of their authorisation (R404); contacts that had not followed are checked (R389). -/
def State.chgStart (s : State) (code : Nat) : State :=
  [0, 1].foldl (fun (s : State) o =>
    let t := if s.inSession o then
        s.closeBooks o (let c := SMap.get zN s.isl.cutWith o; if c = 0 then code else c)
          ((s.get R.RTC_SECLO_SEC + 2 ^ 32 - s.get (R.CHG_SSTART_RTC o)) % 2 ^ 32) (SMap.get tariff0 s.isl.tables o)
      else s
    let t := if s.on (R.CHG_CTL_EN o) = true ∧ SMap.get zB s.isl.kCut o = true then
        t.onOutlet o (fun x => { x with check := some (false, s.now) })
      else t
    let t := { t with isl := { t.isl with cutWith := SMap.put zN t.isl.cutWith o 0, kCut := SMap.put zB t.isl.kCut o false } }
    t.toOut o (if s.on (R.CHG_CTL_EN o) then 1 else 0)) s

/-- Open sessions end with KEYLOST (R409). -/
def State.chgKeyLost (s : State) : State := [0, 1].foldl (fun (s : State) o => s.endCharge o 9) s

end Sys2Proof.Machine
end

