-- ==== Sys2Proof/Machine/Eth.lean ====
section
/-!
DEFINITION. The Ethernet ports (R270-R273, R299, R300): links and PAUSE, frames and their filter, buffers, IP and what firmware answers
itself.
-/
namespace Sys2Proof.Machine

/-! ### Links -/

/-- A port looped at its PCS (R523). -/
def State.ethLoop (s : State) (n : Nat) : Bool := decide (s.get R.KEY_LC_STATE = lcTest) && (s.get R.PRT_LOOP_ETH).testBit n

/-- LINK falls (R273): frames that wait are discarded and counted; a PTP slave on the port enters HOLD. -/
def State.linkDown (s : State) (n : Nat) : State :=
  if s.on (R.ETH_STAT_LINK n) ∧ s.ethLoop n = false then
    let x := s.ethPort n
    let t := (s.setAll [(R.ETH_STAT_LINK n, 0), (R.ETH_STAT_SPD n, 0)]).bumpBy (R.ETH_DROP_LINK n) x.tx.length
    let t := t.putEth n { x with tx := [], hold := [], pause := false }
    if s.get R.TIM_CTL_SRC = 1 ∧ s.get R.TIM_CTL_PORT = n then t.sourceLost else t
  else s

/-- ETH_LINK_LOSS (R273). -/
def execEthLinkLoss (n : Fin 3) (s : State) : Out := .next (s.receive (.ethLinkLoss n) (fun s => s.linkDown n))

/-- ETH_LINK_UP (R271, R273): an enabled port whose partner is there; ETH2 needs a module without loss of signal. -/
def execEthLinkUp (n : Fin 3) (spd : Fin 4) (s : State) : Out :=
  .next (s.receive (.ethLinkUp n spd) (fun s =>
    let sel := s.get (R.ETH_CTL_SPEED n)
    let ok := if n.val = 2 then !(s.on (R.ETH_STAT_MODABS 2)) && !(s.on (R.ETH_STAT_LOS 2)) && decide (spd.val = 3)
      else decide (spd.val ≠ 0) && (decide (sel = 0) || decide (sel = spd.val))
    if s.on (R.ETH_CTL_EN n) ∧ ok = true then s.setAll [(R.ETH_STAT_LINK n, 1), (R.ETH_STAT_SPD n, spd)] else s))

/-- SFP_MODULE_CHANGE (R273): ETH2 has no link with MODABS or LOS high; TXDIS follows MODABS. -/
def execSfpModuleChange (modabs los : Bool) (s : State) : Out :=
  .next (s.receive (.sfpModuleChange modabs los) (fun s =>
    let t := s.setAll [(R.ETH_STAT_MODABS 2, b2n modabs), (R.ETH_STAT_LOS 2, b2n los)]
    let t := t.drive (.pin "ETH2_TXDIS") [BitVec.ofNat 8 (b2n modabs)]
    if modabs ∨ los then t.linkDown 2 else t))

/-- The frames that waited in a transmit buffer leave in their order (R273, R286, R287): `offs` gives the nanosecond of the tick at which
each of them leaves. -/
def State.sendWaiting (s : State) (n : Nat) (offs : List Nat) : State :=
  let x := s.ethPort n
  (x.tx.zip (List.range x.tx.length)).foldl (fun (s : State) e => match e.1.event with
    | some (ty, q) => s.emitEvent n ty q (nth offs e.2 0)
    | none => s.ethSend n e.1) (s.putEth n { x with tx := [], pause := false })

/-- PAUSE_RECEIVED (R271, R273): obeyed when PAUSE is 1; a PAUSE of 0 quanta ends a pause. -/
def execPauseReceived (n : Fin 3) (quanta : BitVec 16) (offs : List Nat) (s : State) : Out :=
  .next (s.receive (.pauseReceived n quanta offs) (fun s =>
    if s.on (R.ETH_CTL_EN n) ∧ s.on (R.ETH_STAT_LINK n) ∧ s.on (R.ETH_CTL_PAUSE n) then
      if quanta.toNat = 0 then s.sendWaiting n offs else s.putEth n { s.ethPort n with pause := true }
    else s))

/-- PAUSE_QUANTA_EXPIRY (R273). -/
def execPauseQuantaExpiry (n : Fin 3) (offs : List Nat) (s : State) : Out :=
  .next (s.run (fun s => if (s.ethPort n).pause then s.sendWaiting n offs else s))

/-! ### IP sent (R299, R300); interface 3 is the modem link -/

/-- The UDP and IP address that the device has on an interface for a peer: on Ethernet, link-local toward a link-local peer or where none is
configured. -/
def State.srcFor (s : State) (n : Nat) (dst : List Byte) : Option (List Byte) :=
  if n = 3 then s.modemPort.bind s.pppAddr
  else if dst.length = 4 then some (s.ip4Of n)
  else if dst.take 2 = [0xFE#8, 0x80#8] ∨ addrSet (s.ip6Of n) = false then some (s.llOf n)
  else some (s.ip6Of n)

/-- Whether an address is one of an interface. -/
def State.hasIp (s : State) (n : Nat) (a : List Byte) : Bool :=
  if n = 3 then decide (s.modemPort.bind s.pppAddr = some a) else s.ownIp n a

/-- Two addresses agree in their first `k` bits. -/
def samePrefix (k : Nat) (a b : List Byte) : Bool :=
  decide (beNat a / 2 ^ (8 * a.length - k) = beNat b / 2 ^ (8 * b.length - k))

/-- The next hop of a packet on Ethernet (R299): the peer on the prefix of the port, else the default router of the port map. -/
def State.nextHop (s : State) (n : Nat) (dst : List Byte) : List Byte :=
  if dst.length = 4 then
    (if samePrefix (leNat (s.pmapAt (57 + 48 * n) 1)) (s.ip4Of n) dst then dst else s.pmapAt (80 + 48 * n) 4)
  else if dst.take 2 = [0xFE#8, 0x80#8] ∨ samePrefix (leNat (s.pmapAt (56 + 48 * n) 1)) (s.ip6Of n) dst then dst
  else s.pmapAt (64 + 48 * n) 16

/-- The checksum of an ICMPv6 message. -/
def icmp6Sum (src dst m : List Byte) : Nat := sum16 (pseudo src dst 58 m.length ++ m)

/-- An ICMPv6 message. -/
def icmp6 (src dst : List Byte) (ty : Nat) (body : List Byte) : List Byte :=
  let m := [BitVec.ofNat 8 ty, 0#8]
  let c := beBytes 2 (65535 - icmp6Sum src dst (m ++ [0#8, 0#8] ++ body))
  ipPacket src dst 58 255 (m ++ c ++ body)

/-- The solicited-node group of an address, and its link address. -/
def solicited (a : List Byte) : List Byte := [0xFF#8, 2#8] ++ List.replicate 9 0#8 ++ [1#8, 0xFF#8] ++ a.drop 13
def groupMac (a : List Byte) : List Byte := [0x33#8, 0x33#8] ++ a.drop 12

/-- The link address of a neighbour asked for (RFC 826, RFC 4861). -/
def State.askNeighbour (s : State) (n : Nat) (ip : List Byte) : State :=
  if ip.length = 4 then
    s.frameTo n (List.replicate 6 0xFF#8) 0x0806
      (beBytes 8 0x0001080006040001 ++ s.macOf n ++ s.ip4Of n ++ List.replicate 6 0#8 ++ ip)
  else
    s.frameTo n (groupMac (solicited ip)) 0x86DD
      (icmp6 (s.llOf n) (solicited ip) 135 ([0#8, 0#8, 0#8, 0#8] ++ ip ++ [1#8, 1#8] ++ s.macOf n))

/-- An IP packet sent on an interface: to a neighbour whose link address is known, else it waits for the answer to a question. -/
def State.ipSend (s : State) (n : Nat) (dst pkt : List Byte) : State :=
  if n = 3 then s.pppSend pkt
  else
    let x := s.ethPort n
    let hop := s.nextHop n dst
    match x.nbr.find? (fun e => decide (e.1 = hop)) with
    | some e => s.frameTo n e.2 (ipType pkt) pkt
    | none =>
      if s.on (R.ETH_STAT_LINK n) = false then s.bump (R.ETH_DROP_LINK n)
      else if heldBytes (x.hold.map Prod.snd) + pkt.length ≤ ethBuf n then
        (s.putEth n { x with hold := x.hold ++ [(hop, pkt)] }).askNeighbour n hop
      else s

/-- The link address of a neighbour learnt: what waited for it leaves. -/
def State.learn (s : State) (n : Nat) (ip mac : List Byte) : State :=
  let x := s.ethPort n
  let t := s.putEth n { x with
    nbr := (ip, mac) :: x.nbr.filter (fun e => decide (e.1 ≠ ip)), hold := x.hold.filter (fun e => decide (e.1 ≠ ip)) }
  (x.hold.filter (fun e => decide (e.1 = ip))).foldl (fun (t : State) e => t.frameTo n mac (ipType e.2) e.2) t

/-- An answer of firmware on the interface to the sender's link address (R299). -/
def State.reply (s : State) (n : Nat) (mac pkt : List Byte) : State := if n = 3 then s.pppSend pkt else s.frameTo n mac (ipType pkt) pkt

/-! ### Frames received -/

/-- Multicast addresses that a port takes (R272): IPv6 all-nodes and solicited-node, and those of the PTP transport in use. -/
def State.groupTaken (s : State) (n : Nat) (d : List Byte) : Bool :=
  let tr := s.get R.TIM_PTPCFG_TRANS
  let peer := if tr = 0 then [0x01#8, 0x80#8, 0xC2#8, 0#8, 0#8, 0x0E#8] else if tr = 1 then [0x01#8, 0#8, 0x5E#8, 0#8, 0#8, 0x6B#8]
    else [0x33#8, 0x33#8, 0#8, 0#8, 0#8, 0x6B#8]
  decide (d = [0x33#8, 0x33#8, 0#8, 0#8, 0#8, 1#8]) ||
  decide (d = groupMac (solicited (s.llOf n))) || (addrSet (s.ip6Of n) && decide (d = groupMac (solicited (s.ip6Of n)))) ||
  (decide (n = s.get R.TIM_CTL_PORT) && (decide (s.get R.TIM_CTL_SRC = 1) || s.on R.TIM_CTL_PTPM) && (d == ptpMac tr || d == peer))

/-- Whether a destination is taken by a port (R272). -/
def State.destTaken (s : State) (n : Nat) (d : List Byte) : Bool :=
  decide (d = s.macOf n) || decide (d = List.replicate 6 0xFF#8) || s.groupTaken n d

/-- An ARP packet for the port's IPv4 address (R299): its sender is learnt, and a request is answered. -/
def State.takeArp (s : State) (n : Nat) (p : List Byte) : State :=
  let op := beAt p 6 2
  if beAt p 0 6 = 0x000108000604 ∧ (op = 1 ∨ op = 2) ∧ s.ownIp n (sliceB p 24 4) = true then
    let t := s.learn n (sliceB p 14 4) (sliceB p 8 6)
    if op = 1 then
      t.frameTo n (sliceB p 8 6) 0x0806 (beBytes 8 0x0001080006040002 ++ s.macOf n ++ sliceB p 24 4 ++ sliceB p 8 10)
    else t
  else s

/-- A SUP datagram is delivered to the head-end protocol engine, which drops at once what is no message of a known type (check 1 of
R306); UDP to another port is not for it (R272, R300).  It is seen in the next capture phase (R51). -/
def State.takeUdp (s : State) (n : Nat) (src dst u : List Byte) : State :=
  let len := beAt u 4 2
  if len < 8 ∨ u.length < len ∨ beAt u 2 2 ≠ s.get R.SUP_PORT_LPORT then s
  else
    let ok := (decide (src.length = 4) && decide (beAt u 6 2 = 0)) || decide (sum16 (pseudo src dst 17 len ++ u.take len) = 65535)
    let b := (u.take len).drop 8
    if ok = false then s
    else if b.length < 24 ∨ leAt b 1 1 = 0 ∨ 11 < leAt b 1 1 then s.bump R.SUP_CNT0_MALF
    else
      { s with sup := { s.sup with
        inbox := s.sup.inbox ++ [({ iface := n, addr := src, port := beAt u 0 2, bytes := b }, s.seenTick)] } }

/-- An IPv4 packet: options are dropped, fragments are dropped and counted (R299, R300); echo requests are answered. -/
def State.takeIp4 (s : State) (n : Nat) (mac p : List Byte) : State :=
  let tot := beAt p 2 2
  let src := sliceB p 12 4
  let dst := sliceB p 16 4
  let pl := (p.take tot).drop 20
  if leAt p 0 1 ≠ 0x45 ∨ tot < 20 ∨ p.length < tot ∨ sum16 (p.take 20) ≠ 65535 ∨ s.hasIp n dst = false then s
  else if beAt p 6 2 % 0x4000 ≠ 0 then s.bump R.SUP_CNT0_MALF
  else if leAt p 9 1 = 17 then s.takeUdp n src dst pl
  else if leAt p 9 1 = 1 ∧ leAt pl 0 1 = 8 ∧ sum16 pl = 65535 then
    let body := pl.drop 4
    s.reply n mac (ipPacket dst src 1 64 ([0#8, 0#8] ++ inetSum ([0#8, 0#8, 0#8, 0#8] ++ body) ++ body))
  else s

/-- A neighbour solicitation or advertisement (R299): its sender is learnt, and a solicitation for an own address is answered. -/
def State.takeNd (s : State) (n : Nat) (mac src pl : List Byte) : State :=
  let target := sliceB pl 8 16
  if leAt pl 0 1 = 135 then
    if s.ownIp n target then
      let t := if leAt pl 24 2 = 0x0101 ∧ 32 ≤ pl.length ∧ addrSet src = true then s.learn n src (sliceB pl 26 6) else s
      t.reply n mac (icmp6 target src 136 ([0x60#8, 0#8, 0#8, 0#8] ++ target ++ [2#8, 1#8] ++ s.macOf n))
    else s
  else if leAt pl 24 2 = 0x0102 ∧ 32 ≤ pl.length then s.learn n target (sliceB pl 26 6)
  else s

/-- An IPv6 packet: one with an extension header is dropped (R299), a fragment header counts (R300); echo requests and neighbour
solicitations for the port's addresses are answered. -/
def State.takeIp6 (s : State) (n : Nat) (mac p : List Byte) : State :=
  let len := beAt p 4 2
  let src := sliceB p 8 16
  let dst := sliceB p 24 16
  let pl := (p.drop 40).take len
  let nh := leAt p 6 1
  if leAt p 0 1 / 16 ≠ 6 ∨ p.length < 40 + len then s
  else if nh = 44 then (if s.hasIp n dst then s.bump R.SUP_CNT0_MALF else s)
  else if nh = 17 then (if s.hasIp n dst then s.takeUdp n src dst pl else s)
  else if nh = 58 ∧ icmp6Sum src dst pl = 65535 then
    let ty := leAt pl 0 1
    if ty = 128 ∧ s.hasIp n dst = true then s.reply n mac (icmp6 dst src 129 (pl.drop 4))
    else if (ty = 135 ∨ ty = 136) ∧ n < 3 ∧ leAt p 7 1 = 255 ∧ 24 ≤ pl.length then s.takeNd n mac src pl
    else s
  else s

/-- The IP packets of a modem's receive buffer, read out by firmware in each tick (R263, R266). -/
def State.modemCapture (s : State) : State :=
  [0, 1, 2, 3].foldl (fun (s : State) u =>
    if s.isModem u then
      let r := State.modemRead u ((s.uartOf u).rx.length + 1) s
      (r.1.foldl (fun (t : State) p => if leAt p 0 1 / 16 = 4 then t.takeIp4 3 [] p else t.takeIp6 3 [] p) r.2)
    else s) s

/-- ETH_RECEIVE_DROP (R273): the buffer cannot hold the frame; 4 KiB are kept for IEEE 1588 messages. -/
def State.rxFits (s : State) (n len : Nat) (ptp : Bool) : Bool :=
  !((s.get R.PRT_BP1_ETH).testBit n) &&
    decide (heldBytes (s.ethPort n).rx + len ≤ if ptp then ethBuf n else ethBuf n - 4096)

/-- A frame that passed the filter is delivered in the order of arrival (R272, R273). -/
def State.deliverFrame (s : State) (n : Nat) (fr : List Byte) (ty : Nat) (p : List Byte) : State :=
  let udpPort := if ty = 0x0800 then beAt p 22 2 else if ty = 0x86DD then beAt p 42 2 else 0
  let ptp := decide (ty = 0x88F7 ∨ udpPort = 319 ∨ udpPort = 320)
  if s.rxFits n fr.length ptp then
    let x := s.ethPort n
    let t := (s.putEth n { x with rx := x.rx ++ [fr] }).wrap (R.ETH_RXCNT_FRAMES n)
    let mac := sliceB fr 6 6
    if ty = 0x0806 then t.takeArp n p
    else if ty = 0x0800 then t.takeIp4 n mac p
    else if ty = 0x86DD then t.takeIp6 n mac p
    else t
  else s.bump (R.ETH_DROP_FULL n)

/-- ETH_FRAME_RECEIVED (R272): the frame without its FCS, and whether the FCS is good.  A bad FCS, an overlong frame and a second
tag count in ETH_ERR; every other frame that the filter does not take is dropped. -/
def execEthFrameReceived (n : Fin 3) (fcs : Bool) (bytes : List Byte) (s : State) : Out :=
  .next (s.receive (.ethFrameReceived n fcs bytes) (fun s =>
    if s.on (R.ETH_CTL_EN n) = false ∨ s.on (R.ETH_STAT_LINK n) = false then s
    else
      let len := bytes.length + 4
      let tag := decide (beAt bytes 12 2 = 0x8100)
      if fcs = false ∨ 1522 < len ∨ (tag = true ∧ beAt bytes 16 2 = 0x8100) then s.bump (R.ETH_ERR_ERR n)
      else
        let vlan := s.on (R.ETH_CTL_VLAN n)
        let vidOk := !vlan || (tag && decide (beAt bytes 14 2 % 4096 = s.get (R.ETH_CTL_VID n)))
        if len < 64 ∨ vidOk = false ∨ s.destTaken n (bytes.take 6) = false then s
        else
          let o := if tag then 16 else 12
          s.deliverFrame n bytes (beAt bytes o 2) (bytes.drop (o + 2))))

end Sys2Proof.Machine
end

