-- ==== Sys2Proof/Machine/Perturb.lean ====
section
/-!
DEFINITION. The perturbation window (R519-R521): its opening, its closing and what closing restores.
-/
namespace Sys2Proof.Machine

/-- Whether an address lies in the PRT_ block. -/
def inPrt (a : Nat) : Bool := decide (a / 65536 = 0x2080)

/-- In TEST path T is open throughout (R519, R526). -/
def State.testOpen (s : State) : State :=
  if s.get R.KEY_LC_STATE = lcTest then s.setAll [(R.PRT_CTL_OPEN, 1), (R.PRT_WIN_LEFT, 0xFFFFFFFF), (R.PRT_MASK_MASK, 0x3FF)] else s

/-- WINDOW_CLOSE_RESTORE (R521): every PRT_ register returns to its reset value, whatever was written to it in this tick, and each
perturbation ends. -/
def State.restorePrt (s : State) : State :=
  { s with
    regs := SMap.keep (fun a => !inPrt a) s.regs,
    staged := s.staged.filter (fun w => !inPrt w.addr),
    plc := s.plc.map (fun e => (e.1, { e.2 with drops := 0 })),
    prt := {} }

/-- A window open in FIELD closes, with a BARRIER of source 15h, and the above flags follow R89 again from the same commit (R520, R521). -/
def State.closeNow (s : State) : State :=
  if s.get R.KEY_LC_STATE = lcField ∧ s.on R.PRT_CTL_OPEN then (s.restorePrt.watermarks.decideXoff).barrier 0x15 else s

/-- A window opens, or its DURATION and MASK are replaced (R520). -/
def State.openNow (s : State) (carrier dur mask : Nat) : State :=
  let t := s.setAll [(R.PRT_CTL_OPEN, 1), (R.PRT_WIN_LEFT, dur), (R.PRT_MASK_MASK, mask)]
  ({ t with prt := { t.prt with carrier := some carrier, setAt := some s.now } }).barrier 0x15

/-- The window opens or closes in the commit phase of the tick (R520, R521). -/
def State.closeWindow (s : State) : State :=
  if s.phase = .commit then s.closeNow else { s with prt := { s.prt with due := some none } }
def State.openWindow (s : State) (carrier dur mask : Nat) : State :=
  if s.phase = .commit then s.openNow carrier dur mask else { s with prt := { s.prt with due := some (some (carrier, dur, mask)) } }

/-- The session that carries the window, or one that is to open in this tick, has ended (R520). -/
def State.closeFor (s : State) (k : Nat) : State :=
  let opening := match s.prt.due with
    | some (some x) => decide (x.1 = k)
    | _ => false
  if s.prt.carrier = some k ∨ opening = true then s.closeWindow else s

/-- What requests and ended sessions of this tick do to the window, in its commit phase (R520). -/
def State.windowDue (s : State) : State :=
  let t := { s with prt := { s.prt with due := none } }
  match s.prt.due with
  | none => s
  | some none => t.closeNow
  | some (some x) => t.openNow x.1 x.2.1 x.2.2

/-- PERTURBATION_WINDOW_EXPIRY (R520, R521): in the commit phase at which the DURATION ticks of the window have run. -/
def execPerturbationWindowExpiry (s : State) : Out :=
  .next (s.run (fun s => s.inCommit (fun s => if s.get R.PRT_WIN_LEFT = 0 then s.closeWindow else s)))

end Sys2Proof.Machine
end

