-- ==== Sys2Proof/Machine/Sup.lean ====
section
/-!
DEFINITION. The Sarux Uplink Protocol (R299-R333): messages and their checks, sessions and their keys, records and items in both
directions, acknowledgement, and the frame in which requests of the head end are carried out.
-/
namespace Sys2Proof.Machine

/-! ### Messages (R300, R302) -/

/-- The header fields of a message. -/
def supType (b : List Byte) : Nat := leAt b 1 1
def supFlags (b : List Byte) : Nat := leAt b 2 2
def supPhase (b : List Byte) : Nat := supFlags b / 2 % 4
def supSess (b : List Byte) : Nat := leAt b 4 4
def supSeq (b : List Byte) : Nat := leAt b 8 8
def supLen (b : List Byte) : Nat := leAt b 16 2
def supReq (b : List Byte) : Nat := leAt b 20 4

/-- The types that carry requests (R303). -/
def isRequest (ty : Nat) : Bool := decide (4 ≤ ty ∧ ty ≤ 9) || decide (ty = 11)

/-- HELLO phases 1 and 2 carry no protection (R304). -/
def isOpenHello (b : List Byte) : Bool := decide (supType b = 1 ∧ (supPhase b = 1 ∨ supPhase b = 2))

/-- Check 1 of R306. -/
def supForm (b : List Byte) : Bool :=
  let ty := supType b
  let len := supLen b
  decide (24 ≤ b.length) && decide (leAt b 0 1 = 1) && decide (1 ≤ ty ∧ ty ≤ 11) && decide (supFlags b < 8) &&
    (if ty = 1 then decide (supPhase b ≠ 0) else decide (supPhase b = 0)) && decide (len ≤ 1192) && decide (leAt b 18 2 = 0) &&
    (if isRequest ty then decide (supReq b ≠ 0) else decide (supReq b = 0)) &&
    (if isOpenHello b then decide (b.length = 24 + len ∧ len = 152) else decide (b.length = 24 + len + 16))

/-- A header (R302). -/
def supHeader (ty flags sess seq len req : Nat) : List Byte :=
  [1#8, BitVec.ofNat 8 ty] ++ leBytes 2 flags ++ leBytes 4 sess ++ leBytes 8 seq ++ leBytes 2 len ++ [0#8, 0#8] ++ leBytes 4 req

/-! ### Sessions -/

/-- A session by its number. -/
def State.sessOf (s : State) (k : Nat) : Option Sess := s.sup.sess.find? (fun x => decide (x.num = k))

/-- A session replaced. -/
def State.putSess (s : State) (x : Sess) : State :=
  { s with sup := { s.sup with sess := s.sup.sess.map (fun y => if y.num = x.num then x else y) } }

/-- The established UPLINK session. -/
def State.uplink (s : State) : Option Sess := s.sup.sess.find? (fun x => x.up)

/-- Sessions of the SERVER role that are established, and half-open. -/
def State.srvSess (s : State) : List Sess := s.sup.sess.filter (fun x => !x.up && x.est)
def State.halfOpen (s : State) : List Sess := s.sup.sess.filter (fun x => !x.up && !x.est)

/-- SUP_STAT and SUP_UNACK brought up to the sessions (R332). -/
def State.syncSup (s : State) : State :=
  let up := s.uplink
  s.setAll [(R.SUP_STAT_UPSTATE, if up.isSome then 2 else if s.sup.hello.isSome then 1 else 0),
    (R.SUP_STAT_SRVCNT, s.srvSess.length), (R.SUP_UNACK_RECS, (up.map (fun x => x.recs.length)).getD 0)]

/-- UPLOADED (R458): the record that carries EVR_UPSEQ. -/
def State.evUploaded (s : State) : State :=
  let n := s.get R.EVR_UPSEQ_SEQ
  ({ s with evr := { s.evr with upAt := n } }).evMake 0x1107 0 [(0, 4, n)]

/-- A session ends (R312): its pages are zeroed; what it had not acknowledged is to be sent again; the window that it carries
closes (R520); the end of the UPLINK writes UPLOADED (R458). -/
def State.endSession (s : State) (k : Nat) : State :=
  match s.sessOf k with
  | none => s
  | some x =>
    let t := (s.zeroPage x.tx).zeroPage x.rx
    let back := x.items.filterMap (fun e => match e.1 with | .ev q => some q | _ => none)
    let log := t.evr.log.map (fun (r : EvRec) => if back.contains r.seq then { r with sent := false } else r)
    let t : State := { t with
      evr := { t.evr with log := log },
      sup := { t.sup with
        sess := t.sup.sess.filter (fun y => decide (y.num ≠ k)), reqs := t.sup.reqs.filter (fun r => decide (r.sess ≠ k)) },
      val := { t.val with waits := t.val.waits.filter (fun w => match w.who with | .sup n _ => decide (n ≠ k) | _ => true) } }
    let t : State := t.closeFor k
    let t := if x.up then t.evUploaded else t
    t.syncSup

/-! ### Sending -/

/-- A SUP message given to its link (R299, R300): a UDP datagram from LPORT in an IP packet, on Ethernet or over PPP on the UART in MODEM
role; without an address of its own yet, the modem link loses it. -/
def State.supEmit (s : State) (iface : Nat) (addr : List Byte) (port : Nat) (b : List Byte) : State :=
  let t := s.wrap R.SUP_TXCNT_DGRAMS
  match s.srcFor iface addr with
  | some src => t.ipSend iface addr (ipPacket src addr 17 64 (udpPacket src addr (s.get R.SUP_PORT_LPORT) port b))
  | none => t

/-- A protected message sent in a session (R304, R305); a page that is SPENT ends the session (R312). -/
def State.supSend (s : State) (k ty flags req : Nat) (body : List Byte) : State :=
  match s.sessOf k with
  | none => s
  | some x =>
    let head := fun c => supHeader ty flags x.id c body.length req
    let r := s.sealSession x.tx head body
    match r.1 with
    | none => r.2.endSession k
    | some (c, ct, tag) =>
      let t := (r.2.putSess { x with txAt := s.now }).supEmit x.iface x.addr x.port (head c ++ ct ++ tag)
      if (t.page x.tx).spent then t.endSession k else t

/-! ### The forwarding buffer (R318) -/

/-- Occupancy of every FORWARD and BOTH queue. -/
def State.fwdQueued (s : State) : Nat :=
  (List.range 32).foldl (fun a q => if s.qDisp q = 0 then a else a + s.qOcc q) 0

/-- The forwarding room. -/
def State.fwdRoom (s : State) : Nat := 8192 - s.sup.fbuf.length - s.val.fwd.length - s.fwdQueued

/-- The place that the record of number `k` takes: its own in the circle of 8,192, or the lowest free one where a record still stands there. -/
def State.fwdSlot (s : State) (k : Nat) : Nat :=
  let used := s.sup.fbuf.map FwdRec.slot
  if used.contains (k % 8192) then ((List.range 8192).find? (fun i => !(used.contains i))).getD 0 else k % 8192

/-- One record stored in the buffer. -/
def State.fwdPut (s : State) (r : Rec) : State :=
  let k := s.sup.fnext
  let i := s.fwdSlot k
  let t := s.memWrite (s.fwdAddr i) (recBytes r)
  { t with sup := { t.sup with fbuf := t.sup.fbuf ++ [{ k := k, tick := s.now, slot := i }], fnext := k + 1 } }

/-- Records admitted for forwarding are accepted for sending in the tick of their verdict, as far as the buffer holds them (R116, R318). -/
def State.supAccept (s : State) : State :=
  let n := if s.get R.SUP_CTL_FBANK = 0 then 0 else 8192 - s.sup.fbuf.length
  let t := (s.val.fwd.take n).foldl (fun (t : State) e => t.fwdPut e.2.1) s
  let t := { t with val := { t.val with fwd := s.val.fwd.drop n } }
  t.set R.SUP_STAT_FFREE (if s.get R.SUP_CTL_FBANK = 0 then 0 else 8192 - t.sup.fbuf.length)

/-! ### Acknowledgements (R314, R316) -/

/-- The queue of a SERVER session: the (s mod n)-th of SUP_QMAP (R317). -/
def State.sessQueue (s : State) (x : Sess) : Nat :=
  let l := (List.range 32).filter (fun q => (s.get R.SUP_QMAP_QUEUES).testBit q)
  nth l (x.id % max 1 l.length) 0

/-- WINDOW offered to a session (R317, R318, R327): the smallest of WMAX, the free space of its queue and the forwarding room, which limits
nothing where no bank is set aside for a buffer. -/
def State.windowFor (s : State) (x : Sess) : Nat :=
  let q := s.sessQueue x
  if x.up ∨ s.on (R.QUE_STAT_ABOVE q) = true ∨ s.pausing = true then 0
  else
    let w := min (s.get R.SUP_SCFG_WMAX) (s.qCap q - s.qOcc q)
    if s.get R.SUP_CTL_FBANK = 0 then w else min w s.fwdRoom

/-- An ACK sent in a session. -/
def State.ackSend (s : State) (k : Nat) : State :=
  match s.sessOf k with
  | none => s
  | some x =>
    (s.putSess { x with ackDue := none, ackedAt := some s.now }).supSend k 3 0 0
      (leBytes 8 x.rackr ++ leBytes 8 x.racka ++ leBytes 4 (s.windowFor x) ++ leBytes 4 0)

/-- An ACK that must leave by tick `by_`, or by an earlier one that it is due by already. -/
def Sess.due (x : Sess) (by_ : Nat) : Sess := { x with ackDue := some (min by_ (x.ackDue.getD by_)) }

/-- A session may send an ACK in this tick: at most one (R316). -/
def State.mayAck (s : State) (x : Sess) : Bool := x.est && decide (x.ackedAt ≠ some s.now)

/-- An ACK at once (R316), or, where one has left in this tick, in the next. -/
def State.ackNow (s : State) (k : Nat) : State :=
  match s.sessOf k with
  | none => s
  | some x => if s.mayAck x then s.ackSend k else s.putSess (x.due s.now)

/-- ACK_SEND (R316): at most one for a session in a tick. -/
def execAckSend (s : State) : Out :=
  .next (s.run (fun s =>
    match s.sup.sess.find? (fun x => x.ackDue.isSome && s.mayAck x) with
    | some x => s.ackSend x.num
    | none => s))

/-- In a commit phase every ACK that must leave by this tick leaves (R316). -/
def State.ackCommit (s : State) : State :=
  (s.sup.sess.filter (fun x => x.ackDue.any (fun t => decide (t ≤ s.now)) && s.mayAck x)).foldl (fun (t : State) x => t.ackSend x.num) s

/-- KEEPALIVE_ACK (R6, R52, R312): nothing sent for IDLE / 3 seconds, in whole ticks. -/
def execKeepaliveAck (s : State) : Out :=
  .next (s.inCommit (fun s =>
    match s.sup.sess.find? (fun x => s.mayAck x && decide (x.txAt + s.get R.SUP_TIM0_IDLE * ticksPerSec / 3 ≤ s.now)) with
    | some x => s.ackSend x.num
    | none => s))

/-! ### Receiving (R306) -/

/-- A datagram that is no message of a known type (check 1 of R306). -/
def notSup (b : List Byte) : Bool := decide (b.length < 24) || decide (supType b = 0) || decide (11 < supType b)

/-- The datagram that a command takes: the next one seen (R51) that `p` picks.  One that arrives with the command over the modem link is seen
in this tick only when it arrives in its capture phase, and waits like any other; one of no known type is dropped and counted. -/
def State.supTake (s : State) (d : Option Dgram) (p : List Byte → Bool) : Option Dgram × State :=
  let s := match d with
    | some d =>
      if s.modemPort.isNone then s
      else if notSup d.bytes then s.bump R.SUP_CNT0_MALF
      else { s with sup := { s.sup with inbox := s.sup.inbox ++ [({ d with iface := 3 }, s.seenTick)] } }
    | none => s
  match s.sup.inbox.findIdx? (fun d => decide (d.2 ≤ s.now) && p d.1.bytes) with
  | none => (none, s)
  | some k => ((s.sup.inbox[k]?).map Prod.fst, { s with sup := { s.sup with inbox := s.sup.inbox.eraseIdx k } })

/-- A datagram for a session, or with its SESSION, has been seen and waits for the engine: it has arrived in time (R51, R52). -/
def State.seenMsg (s : State) (p : List Byte → Bool) : Bool := s.sup.inbox.any (fun d => decide (d.2 ≤ s.now) && p d.1.bytes)

/-- SEQ is new in a session (R305). -/
def Sess.fresh (x : Sess) (q : Nat) : Bool :=
  decide (x.high < q) || (decide (q < x.high ∧ x.high ≤ q + 64) && !(x.seen.testBit (x.high - q - 1)))

/-- SEQ marked as seen (R305, R306). -/
def Sess.mark (x : Sess) (q now : Nat) : Sess :=
  if x.high < q then
    let d := q - x.high
    let seen := if x.high = 0 then 0 else x.seen * 2 ^ d + 2 ^ (d - 1)
    { x with high := q, seen := if 64 < d then 0 else seen % 2 ^ 64, rxAt := now }
  else { x with seen := x.seen ||| 2 ^ (x.high - q - 1), rxAt := now }

/-- The session that a datagram names, from the address and port that opened it (check 2 of R306). -/
def State.namedSess (s : State) (d : Dgram) : Option Sess :=
  s.sup.sess.find? (fun x => decide (x.id = supSess d.bytes ∧ x.addr = d.addr ∧ x.port = d.port))

/-- Check 5 of R306: what a peer may send in a session (R303). -/
def Sess.permits (x : Sess) (b : List Byte) : Bool :=
  let ty := supType b
  decide (supFlags b % 2 = 0) &&
    (if x.up then decide (ty = 3) || isRequest ty
    else decide (ty = 1 ∧ supPhase b = 3) || decide (ty = 2 ∨ ty = 3 ∨ ty = 10))

/-- Checks 1 to 3 of R306. -/
def State.supChecks (s : State) (d : Dgram) : Option Sess × State :=
  if supForm d.bytes = false then (none, s.bump R.SUP_CNT0_MALF)
  else
    match s.namedSess d with
    | none => (none, s.bump R.SUP_CNT0_MALF)
    | some x => if x.fresh (supSeq d.bytes) then (some x, s) else (none, s.bump R.SUP_CNT0_REPLAY)

/-- Check 4 of R306: the body when the tag verifies, SEQ then being marked; `res` and `dest` are those of the page's job. -/
def State.supOpenTo (s : State) (x : Sess) (d : Dgram) (res : Nat) (dest : List Byte → State → State) : Option (List Byte) × State :=
  let b := d.bytes
  let n := supLen b
  let r := s.openSession x.rx (supSeq b) (b.take 24) ((b.drop 24).take n) (b.drop (24 + n)) res dest
  match r.1 with
  | none => (none, r.2.bump R.SUP_CNT0_AUTHFAIL)
  | some body => (some body, (r.2.putSess (x.mark (supSeq b) s.now)).wrap R.SUP_RXCNT_DGRAMS)

/-- A datagram opened whose body goes to no queue. -/
def State.supOpen (s : State) (x : Sess) (d : Dgram) : Option (List Byte) × State := s.supOpenTo x d 1 (fun _ t => t)

/-- DATAGRAM_CHECK (R306): the session and the body of a datagram that passes every check. -/
def State.supCheck (s : State) (d : Dgram) : Option (Nat × List Byte) × State :=
  let a := s.supChecks d
  match a.1 with
  | none => (none, a.2)
  | some x =>
    let o := a.2.supOpen x d
    match o.1 with
    | none => (none, o.2)
    | some body => if x.permits d.bytes then (some (x.num, body), o.2) else (none, o.2.bump R.SUP_CNT0_MALF)

/-! ### Establishment (R307-R311) -/

/-- The identity key, when the device has one. -/
def State.identity (s : State) : Option (List Byte × List Byte) := s.isl.keys.ident

/-- A HELLO body signed by the identity key over `pre` and the message so far (R308); the nonce of the signature is drawn. -/
def State.signHello (s : State) (d : List Byte) (pre msg : List Byte) : List Byte × State :=
  let k := s.drawScalar
  (msg ++ ecdsaSign (beNat d) (beNat k.1) (pre ++ msg), k.2.countAgree)

/-- The head-end address of the UPLINK (R301). -/
def State.headAddr (s : State) : List Byte :=
  if s.on R.SUP_CTL_IPV then leBytes 4 (s.get (R.SUP_HADDR_ADDR 0))
  else (List.range 4).flatMap (fun i => leBytes 4 (s.get (R.SUP_HADDR_ADDR i)))

/-- HELLO phase 1 sent with a fresh ephemeral key and nonce (R308, R311); it waits for the identity (R493). -/
def State.helloSend (s : State) (wait : Nat) : State :=
  match s.identity with
  | none => s
  | some (d, _) =>
    let e := s.drawScalar
    let n := e.2.drawBytes 16
    let head := supHeader 1 2 0 0 152 0
    let part := head ++ leBytes 8 Config.serial.toNat ++ ecPublic (beNat e.1) ++ n.1
    let g := n.2.signHello d [] part
    let t := { g.2 with sup := { g.2.sup with hello := some { d := e.1, nonce := n.1, msg := g.1, sent := s.now }, wait := wait } }
    (t.supEmit (s.get R.SUP_CTL_IF) s.headAddr (s.get R.SUP_PORT_HPORT) g.1).syncSup

/-- The UPLINK may be opened: enabled, the start order at its end, no activation under way, and a TRNG that delivers (R301, R327, R380,
R490). -/
def State.uplinkOn (s : State) : Bool :=
  s.on R.SUP_CTL_UPEN && decide (10 ≤ s.get R.CFG_STAT_STEP) && !s.pausing && s.on R.RNG_STAT_OK

/-- HELLO_PHASE1_SEND (R311, R490 step 11): the first phase 1, at the start and when a session has ended. -/
def execHelloPhase1Send (s : State) : Out :=
  .next (s.run (fun s =>
    if s.uplinkOn ∧ s.uplink.isNone ∧ s.sup.hello.isNone then
      let t := s.helloSend 16000
      if s.get R.CFG_STAT_STEP = 10 ∧ t.sup.hello.isSome then
        t.setAll [(R.CFG_STAT_STEP, 11), (R.CFG_MARK_TICK 11, s.now % 2 ^ 32)]
      else t
    else s))

/-- HELLO_RETRY_TIMEOUT (R52, R311): the wait doubles for each later attempt, up to 2,048,000 ticks. -/
def execHelloRetryTimeout (s : State) : Out :=
  .next (s.inCommit (fun s =>
    match s.sup.hello with
    | some h => if s.uplinkOn = true ∧ h.sent + s.sup.wait ≤ s.now ∧
        s.seenMsg (fun b => decide (supType b = 1 ∧ supPhase b = 2)) = false then s.helloSend (min 2048000 (2 * s.sup.wait)) else s
    | none => s))

/-- SESSION_LIFETIME_EXPIRY (R52, R312): after LIFE minutes the initiator opens a new session. -/
def execSessionLifetimeExpiry (s : State) : Out :=
  .next (s.inCommit (fun s =>
    match s.uplink with
    | some x =>
      if s.uplinkOn ∧ s.sup.hello.isNone ∧ x.openAt + s.get R.SUP_TIM1_LIFE * 60 * ticksPerSec ≤ s.now then s.helloSend 16000 else s
    | none => s))

/-- SESSION_KEY_DERIVE (R310): key and salt from initiator to responder, key and salt from responder to initiator. -/
def sessionKeys (z ni nr : List Byte) (sess : Nat) : (List Byte × List Byte) × (List Byte × List Byte) :=
  let k := kdf z (label4 0x53 0x55 0x50 0x31) (ni ++ nr ++ leBytes 4 sess) 576
  ((sliceB k 0 32, sliceB k 64 4), (sliceB k 32 32, sliceB k 68 4))

/-- A session entered with its two pages loaded. -/
def State.enterSess (s : State) (x : Sess) (tx rx : List Byte × List Byte) : State :=
  let t := (s.loadPage x.tx tx.1 tx.2).loadPage x.rx rx.1 rx.2
  ({ t with sup := { t.sup with sess := t.sup.sess ++ [x], next := t.sup.next + 1 } }).syncSup

/-- Two EMPTY pages of the head-end protocol engine (R337). -/
def State.pagePair (s : State) : Option (Nat × Nat) :=
  match s.emptyPage 12 [] with
  | none => none
  | some a => (s.emptyPage 12 [a]).map (fun b => (a, b))

/-- A failure of check 4 for a HELLO (R307), or of a phase 1 that cannot be taken (R309, R311, R337). -/
def State.helloFail (s : State) : State := s.bump R.SUP_CNT0_HELLOFAIL

/-- HELLO_PHASE1 (R307-R311, R337): a phase 1 that passes is answered with phase 2 and opens a half-open session. -/
def State.takePhase1 (s : State) (d : Dgram) : State :=
  let b := d.bytes
  if supForm b = false then s.bump R.SUP_CNT0_MALF
  else if supSess b ≠ 0 ∨ supSeq b ≠ 0 ∨ supFlags b ≠ 2 ∨ s.on R.SUP_CTL_SRVEN = false ∨ d.iface = 3 then s.bump R.SUP_CNT0_MALF
  else if s.pausing then s
  else
    let serial := sliceB b 24 8
    match s.sup.peers.find? (fun p => decide (p.1 = serial)), s.identity, s.pagePair with
    | some peer, some me, some pg =>
      let t := s.countVerify
      let est := s.srvSess.filter (fun x => decide (x.serial ≠ serial))
      if 16 ≤ s.halfOpen.length ∨ s.get R.SUP_SCFG_MAXSESS ≤ est.length ∨
          ecdsaVerify peer.2 (sliceB b 112 64) (b.take 112) = false then t.helloFail
      else
        let r := t.draw
        let base := r.1.toNat
        let id := ((List.range 128).map (fun k => (base + k) % (2 ^ 32 - 1) + 1)).find? (fun i => !(t.sup.sess.any (fun x => decide (x.id = i))))
        let e := r.2.drawScalar
        let n := e.2.drawBytes 16
        let sid := id.getD 1
        let part := supHeader 1 4 sid 0 152 0 ++ leBytes 8 Config.serial.toNat ++ ecPublic (beNat e.1) ++ n.1
        let g := n.2.signHello me.1 b part
        let keys := sessionKeys (ecdh (beNat e.1) (sliceB b 32 64)) (sliceB b 96 16) n.1 sid
        let x : Sess := {
          num := s.sup.next, id := sid, up := false, est := false, addr := d.addr, port := d.port, iface := d.iface,
          serial := serial, tx := pg.1, rx := pg.2, openAt := s.now, rxAt := s.now, txAt := s.now }
        (g.2.countAgree.enterSess x keys.2 keys.1).supEmit d.iface d.addr d.port g.1
    | _, _, _ => s.helloFail

def execHelloPhase1 (d : Option Dgram) (s : State) : Out :=
  .next (s.receive (.helloPhase1 d) (fun s =>
    let t := s.supTake d (fun b => decide (supType b = 1 ∧ supPhase b = 1))
    match t.1 with
    | some d => if s.on R.RNG_STAT_OK then t.2.takePhase1 d else { t.2 with sup := { t.2.sup with inbox := (d, s.now) :: t.2.sup.inbox } }
    | none => t.2))

/-- HELLO_PHASE2 (R307, R309-R312, R319): the initiator establishes the session, ends the one that it replaces, and sends phase 3. -/
def State.takePhase2 (s : State) (d : Dgram) : State :=
  let b := d.bytes
  if supForm b = false then s.bump R.SUP_CNT0_MALF
  else
    match s.sup.hello with
    | none => s.bump R.SUP_CNT0_MALF
    | some h =>
      let sid := supSess b
      if sid = 0 ∨ supFlags b ≠ 4 ∨ s.sup.sess.any (fun x => decide (x.id = sid)) ∨ d.addr ≠ s.headAddr ∨
          d.port ≠ s.get R.SUP_PORT_HPORT ∨ d.iface ≠ s.get R.SUP_CTL_IF ∨ supSeq b ≠ 0 then s.bump R.SUP_CNT0_MALF
      else
        match s.isl.keys.hevk with
        | none => s.helloFail
        | some hevk =>
          let t := s.countVerify
          if ecdsaVerify hevk (sliceB b 112 64) (h.msg ++ b.take 112) = false then t.helloFail
          else
            let t := match t.uplink with
              | some x => t.endSession x.num
              | none => t
            match t.pagePair with
            | none => t.helloFail
            | some pg =>
              let t := t.countAgree
              let keys := sessionKeys (ecdh (beNat h.d) (sliceB b 32 64)) h.nonce (sliceB b 96 16) sid
              let k := t.sup.next
              let rto := t.get R.SUP_TIM1_RTO * 800
              let x : Sess := {
                num := k, id := sid, up := true, est := true, addr := d.addr, port := d.port, iface := d.iface,
                serial := sliceB b 24 8, tx := pg.1, rx := pg.2, openAt := s.now, rxAt := s.now, txAt := s.now, rto := rto, rtoA := rto }
              let t := { t with sup := { t.sup with hello := none, wait := 16000 } }
              (t.enterSess x keys.1 keys.2).supSend k 1 6 0 []

def execHelloPhase2 (d : Option Dgram) (s : State) : Out :=
  .next (s.receive (.helloPhase2 d) (fun s =>
    let t := s.supTake d (fun b => decide (supType b = 1 ∧ supPhase b = 2))
    match t.1 with
    | some d => t.2.takePhase2 d
    | none => t.2))

/-- HELLO_PHASE3 (R301, R311, R312): the responder's session is established, which ends the one that it replaces; an ACK answers.  Beyond
MAXSESS the half-open session ends, counted in HELLOFAIL (DESIGN CHOICE, assumption 113). -/
def execHelloPhase3 (d : Option Dgram) (s : State) : Out :=
  .next (s.receive (.helloPhase3 d) (fun s =>
    let t := s.supTake d (fun b => decide (supType b = 1 ∧ supPhase b ≠ 1 ∧ supPhase b ≠ 2))
    match t.1 with
    | none => t.2
    | some d =>
      let c := t.2.supCheck d
      match c.1 with
      | none => c.2
      | some (k, _) =>
        match c.2.sessOf k with
        | none => c.2
        | some x =>
          if supType d.bytes ≠ 1 ∨ x.est = true then c.2
          else if s.get R.SUP_SCFG_MAXSESS ≤ (c.2.srvSess.filter (fun y => decide (y.serial ≠ x.serial))).length then
            (c.2.endSession k).helloFail
          else
            let old := c.2.srvSess.filter (fun y => decide (y.serial = x.serial))
            let u := old.foldl (fun (u : State) y => u.endSession y.num) c.2
            ((u.putSess { x with est := true }).syncSup).ackSend k))

/-- HALF_OPEN_TIMEOUT (R52, R311). -/
def execHalfOpenTimeout (s : State) : Out :=
  .next (s.inCommit (fun s =>
    match s.halfOpen.find? (fun x => decide (x.openAt + 16000 ≤ s.now) && !(s.seenMsg (fun b => decide (supSess b = x.id)))) with
    | some x => s.endSession x.num
    | none => s))

/-- SESSION_IDLE_TIMEOUT (R52, R312). -/
def execSessionIdleTimeout (s : State) : Out :=
  .next (s.inCommit (fun s =>
    match s.sup.sess.find? (fun x => x.est && decide (x.rxAt + s.get R.SUP_TIM0_IDLE * ticksPerSec ≤ s.now) &&
      !(s.seenMsg (fun b => decide (supSess b = x.id)))) with
    | some x => s.endSession x.num
    | none => s))

/-! ### Records received (R316-R318) -/

/-- A frame of a station refused (R317, R318): as under R80, and counted in QREF. -/
def State.refuseRecords (s : State) (q : Nat) : State := ((s.rewind q).bump (R.QUE_CNT_REJECT q)).bump R.SUP_CNT1_QREF

/-- A datagram that carries no frame for this session: verified, and dropped; in the UPLINK no peer may send it, and a wrong length is
malformed. -/
def State.dropRecords (s : State) (x : Sess) (d : Dgram) : State :=
  let o := s.supOpen x d
  if o.1.isSome = true ∧ (x.up = true ∨ x.est = true) then o.2.bump R.SUP_CNT0_MALF else o.2

/-- The decrypted body of a frame opened for `k` records of a session (R317, R349): the engine issues COMMIT on the page, or ABANDON when
the body does not continue at ACKR. -/
def State.enterRecords (s : State) (x : Sess) (q k : Nat) (body : List Byte) : State :=
  if leAt body 8 1 ≠ k ∨ leAt body 9 3 ≠ 0 then (s.settleJob x.rx false).bump R.SUP_CNT0_MALF
  else if leAt body 0 8 ≠ x.rnext then (s.settleJob x.rx false).ackNow x.num
  else
    let recs := recsAt body 12 k
    let u := s.settleJob x.rx true
    let w : Waiting := ⟨.sup x.num x.rnext, q, recs.map (fun r => (r, if isFence r || isPad r then some 0 else none))⟩
    let u := { u with val := { u.val with waits := u.val.waits ++ [w] } }
    match u.sessOf x.num with
    | some y => u.putSess { y with rnext := y.rnext + k }
    | none => u

/-- RECORDS of a station: the frame is opened first, so a refusal costs no decryption; a bad tag or another RNO rewinds it. -/
def State.takeRecords (s : State) (d : Dgram) : State :=
  let a := s.supChecks d
  match a.1 with
  | none => a.2
  | some x =>
    let n := supLen d.bytes
    if x.up = true ∨ x.est = false ∨ n < 76 ∨ (n - 12) % 64 ≠ 0 ∨ 18 < (n - 12) / 64 then a.2.dropRecords x d
    else
      let k := (n - 12) / 64
      let q := s.sessQueue x
      if s.qDisp q ≠ 0 ∧ s.fwdRoom < k then a.2.refuseRecords q
      else
        let f := a.2.openFrame q k true
        if (f.queue q).frame.isNone then f.bump R.SUP_CNT1_QREF
        else
          let o := f.supOpenTo x d 7 (fun body t => t.holdJob x.rx q 12 body)
          match o.1 with
          | none => o.2.rewind q
          | some body => o.2.enterRecords x q k body

/-- RECORDS (R317). -/
def execRecords (d : Option Dgram) (s : State) : Out :=
  .next (s.receive (.records d) (fun s =>
    let t := s.supTake d (fun b => decide (supType b = 2))
    match t.1 with
    | some d => t.2.takeRecords d
    | none => t.2))

/-- Records of a session that have their verdict, taken off the front of its waiting frames: how many. -/
def verdictsIn (k : Nat) : List Waiting → Bool → Nat × List Waiting
  | [], _ => (0, [])
  | w :: t, go =>
    match w.who with
    | .sup n _ =>
      if n = k ∧ go = true then
        let m := (w.recs.takeWhile (fun x => x.2.isSome)).length
        let r := verdictsIn k t (decide (m = w.recs.length))
        (m + r.1, if m = w.recs.length then r.2 else { w with recs := w.recs.drop m } :: r.2)
      else
        let r := verdictsIn k t (go && decide (n ≠ k))
        (r.1, w :: r.2)
    | .plc _ _ _ | .radio _ _ _ =>
      let r := verdictsIn k t go
      (r.1, w :: r.2)

/-- ACKR of a session advanced past records whose fence has completed; a FAILED fence is issued again (R317). -/
def State.passFences (s : State) (x : Sess) : List (Nat × Nat) → Nat × List (Nat × Nat) × State
  | [] => (0, [], s)
  | (n, f) :: t =>
    if s.fenceEnded f then
      if s.fenceOk f then
        let r := s.passFences x t
        (n + r.1, r.2)
      else
        let u := s.issueFence
        (0, (n, u.get R.FTL_FISS_NUM) :: t, u)
    else (0, (n, f) :: t, s)

/-- ACKR of a session advanced by `n`: an ACK is due within ACKDLY ticks (R316). -/
def State.passAckr (s : State) (x : Sess) (n : Nat) : State :=
  let y := { x with rackr := x.rackr + n }
  s.putSess (if n = 0 then y else y.due (s.now + s.get R.SUP_SCFG_ACKDLY))

/-- One session's ACKR brought up to its verdicts and fences (R317). -/
def State.advanceAckr (s : State) (k : Nat) : State :=
  match s.sessOf k with
  | none => s
  | some x =>
    let v := verdictsIn k s.val.waits true
    let s := { s with val := { s.val with waits := v.2 } }
    if s.on R.SUP_CTL_DURABLE then
      let s := if v.1 = 0 then s else s.issueFence
      let await := if v.1 = 0 then x.await else x.await ++ [(v.1, s.get R.FTL_FISS_NUM)]
      let r := s.passFences x await
      r.2.2.passAckr { x with await := r.2.1 } r.1
    else s.passAckr x v.1

/-- ACKR_ADVANCE (R317). -/
def execAckrAdvance (s : State) : Out :=
  .next (s.run (fun s => (s.srvSess.map Sess.num).foldl State.advanceAckr s))

/-! ### Records sent (R315) -/

/-- A RECORDS datagram with records from number `rno` on. -/
def State.sendRecords (s : State) (k rno : Nat) (recs : List Rec) : State :=
  s.supSend k 2 0 0 (leBytes 8 rno ++ [BitVec.ofNat 8 recs.length, 0#8, 0#8, 0#8] ++ recs.flatMap recBytes)

/-- The batch timer in a commit phase (R52, R315): at its expiry every ledger record present is to be sent. -/
def State.batchTick (s : State) : State :=
  if s.sup.batch + s.get R.SUP_TIM0_BATCH * ticksPerSec ≤ s.now then
    { s with sup := { s.sup with batch := s.now, batchTo := s.lsn } }
  else s

/-- The records that may be sent now: forwarded ones when 18 are gathered or FWDWAIT has passed, else ledger records of the last
expiry. -/
def State.sendable (s : State) : List (RecSrc × Rec) :=
  let l := s.upstream
  let fwd := l.filter (fun e => match e.1 with | .fwd _ => true | _ => false)
  let led := l.filter (fun e => match e.1 with | .led n => decide (n < s.sup.batchTo) | _ => false)
  let due := decide (18 ≤ fwd.length) || (match fwd.head? with
    | some (.fwd k, _) => s.sup.fbuf.any (fun f => decide (f.k = k ∧ f.tick + s.get R.SUP_TIM1_FWDWAIT ≤ s.now))
    | _ => false)
  (if due then fwd else led).take 18

/-- RECORDS_SEND (R315): one datagram, within WINDOW. -/
def execRecordsSend (s : State) : Out :=
  .next (s.run (fun s =>
    match s.uplink with
    | none => s
    | some x =>
      let recs := s.sendable.take (x.window - x.recs.length)
      if recs.isEmpty then s
      else
        let y : Sess := { x with recs := x.recs ++ recs, rtoAt := if x.recs.isEmpty then s.now else x.rtoAt }
        (((s.touchFwd (recs.map Prod.fst)).putSess y).sendRecords x.num (x.ackr + x.recs.length) (recs.map Prod.snd)).syncSup))

/-- Every unacknowledged record sent again in datagrams of 18, from ACKR on. -/
def State.resendFrom (s : State) (k : Nat) : Nat → Nat → List Rec → State
  | 0, _, _ => s
  | f + 1, rno, l =>
    if l.isEmpty then s
    else ((s.sendRecords k rno (l.take 18)).wrap R.SUP_CNT1_RETX).resendFrom k f (rno + 18) (l.drop 18)

/-- An ALARM datagram with items from number `ano` on (R321). -/
def State.sendItems (s : State) (k ano : Nat) (items : List (List Byte)) : State :=
  s.supSend k 10 0 0 (leBytes 8 ano ++ [BitVec.ofNat 8 items.length, 0#8, 0#8, 0#8] ++ items.flatten)

/-- The items of one ALARM: at most 32, in a body of at most 1,192 bytes. -/
def itemsFit : Nat → Nat → List (ItemSrc × List Byte) → List (ItemSrc × List Byte)
  | 0, _, _ => []
  | _, _, [] => []
  | n + 1, room, e :: t => if e.2.length ≤ room then e :: itemsFit n (room - e.2.length) t else []

/-- Every unacknowledged item sent again. -/
def State.resendItems (s : State) (k : Nat) : Nat → Nat → List (ItemSrc × List Byte) → State
  | 0, _, _ => s
  | f + 1, ano, l =>
    let m := itemsFit 32 1180 l
    if m.isEmpty then s
    else ((s.sendItems k ano (m.map Prod.snd)).wrap R.SUP_CNT1_RETX).resendItems k f (ano + m.length) (l.drop m.length)

/-- RECORDS_RETRANSMIT (R52, R315, R321): no advance for the wait, and no ACK of the session seen; it then doubles, up to 64 s. -/
def execRecordsRetransmit (s : State) : Out :=
  .next (s.inCommit (fun s =>
    match s.uplink with
    | none => s
    | some x =>
      let seen := s.seenMsg (fun b => decide (supType b = 3 ∧ supSess b = x.id))
      let a := !seen && decide (x.recs ≠ [] ∧ x.rtoAt + x.rto ≤ s.now)
      let b := !seen && decide (x.items ≠ [] ∧ x.rtoAAt + x.rtoA ≤ s.now)
      let y : Sess := if a then { x with rto := min 512000 (2 * x.rto), rtoAt := s.now } else x
      let y : Sess := if b then { y with rtoA := min 512000 (2 * y.rtoA), rtoAAt := s.now } else y
      let t := s.putSess y
      let t := if a then t.resendFrom x.num (x.recs.length + 1) x.ackr (x.recs.map Prod.snd) else t
      if b then t.resendItems x.num (x.items.length + 1) x.acka x.items else t))

/-! ### Alarms and reports (R321, R458) -/

/-- The item of an event record, and of a balance report. -/
def evItem (b : List Byte) : List Byte := [1#8, 0#8] ++ leBytes 2 32 ++ b
def repItem (b : List Byte) : List Byte := [2#8, 0#8] ++ leBytes 2 208 ++ sliceB b 0 208

/-- EVENT_UPLOAD (R458): kept records not yet sent as they stand, above EVR_UPSEQ or merged since, in SEQ order. -/
def State.evItems (s : State) : List (ItemSrc × List Byte) :=
  let up := s.get R.EVR_UPSEQ_SEQ
  (s.evr.log.filter (fun (r : EvRec) => !r.sent && (decide (up < r.seq) || r.stale))).map (fun r => (.ev r.seq, evItem (s.evBytes r)))

/-- The oldest report of the queue while storage writes no ledger: firmware sends it from the queue and removes it when the head end has it
(R154; DESIGN CHOICE, assumption 133). -/
def State.queueItem (s : State) (x : Sess) : List (ItemSrc × List Byte) :=
  match s.bal.reports with
  | [] => []
  | r :: _ => if s.storWrites ∨ x.items.any (fun i => decide (i.1 = .oldest)) then [] else [(.oldest, repItem r)]

/-- Balance reports in the ledger that await acknowledgement and are not under way, and what the queue itself gives. -/
def State.repItems (s : State) (x : Sess) : List (ItemSrc × List Byte) :=
  s.queueItem x ++ s.ftl.await.filterMap (fun l => match s.entryAt l with
    | some e =>
      if e.kind = 4 ∧ e.part = 0 ∧ l ≤ s.ackLsn + 65536 ∧ !(x.items.any (fun i => decide (i.1 = .rep l))) then
        some (.rep l, repItem ([0, 1, 2, 3].flatMap (fun k => match s.entryAt (l + k) with
          | some e => recBytes e.data
          | none => List.replicate 64 0#8)))
      else none
    | none => none)

/-- ALARM_SEND (R321): within the limit of 64 unacknowledged items. -/
def execAlarmSend (s : State) : Out :=
  .next (s.run (fun s =>
    match s.uplink with
    | none => s
    | some x =>
      let m := itemsFit (min 32 (64 - x.items.length)) 1180 (s.evItems ++ s.repItems x)
      if m.isEmpty then s
      else
        let seqs := m.filterMap (fun e => match e.1 with | .ev q => some q | _ => none)
        let s := (s.evSeen (s.evr.log.filter (fun (r : EvRec) => seqs.contains r.seq))).lsnSeen
          (m.filterMap (fun e => match e.1 with | .rep l => some l | _ => none))
        let log := s.evr.log.map (fun (r : EvRec) => if seqs.contains r.seq then { r with sent := true } else r)
        let y : Sess := { x with items := x.items ++ m, rtoAAt := if x.items.isEmpty then s.now else x.rtoAAt }
        (({ s with evr := { s.evr with log := log } }).putSess y).sendItems x.num (x.acka + x.items.length) (m.map Prod.snd)))

/-- EVR_UPSEQ: the highest SEQ up to which every item has been passed by ACKA; UPLOADED at every advance of 4,096 (R458). -/
def State.evUpseq (s : State) (items : List (ItemSrc × List Byte)) : State :=
  let open1 := (s.evr.log.filter (fun (r : EvRec) => !r.sent || items.any (fun e => decide (e.1 = .ev r.seq)))).map EvRec.seq
  let top := (s.evr.log.getLast?.map EvRec.seq).getD 0
  let n := match open1.head? with
    | some q => q - 1
    | none => top
  let t := if s.get R.EVR_UPSEQ_SEQ < n then s.set R.EVR_UPSEQ_SEQ n else s
  if t.evr.upAt + 4096 ≤ t.get R.EVR_UPSEQ_SEQ then t.evUploaded else t

/-- ALARM_RECEIVED (R321, R316): a station's items are taken at ACKA; none is forwarded. -/
def execAlarmReceived (d : Option Dgram) (s : State) : Out :=
  .next (s.receive (.alarmReceived d) (fun s =>
    let t := s.supTake d (fun b => decide (supType b = 10))
    match t.1 with
    | none => t.2
    | some d =>
      let c := t.2.supCheck d
      match c.1 with
      | none => c.2
      | some (k, body) =>
        match c.2.sessOf k with
        | none => c.2
        | some x =>
          let n := leAt body 8 1
          if body.length < 12 ∨ n = 0 ∨ 32 < n ∨ leAt body 9 3 ≠ 0 then c.2.bump R.SUP_CNT0_MALF
          else if x.est = false then c.2
          else if leAt body 0 8 = x.racka then c.2.putSess ({ x with racka := x.racka + n }.due (s.now + s.get R.SUP_SCFG_ACKDLY))
          else c.2.ackNow k))

/-! ### ACK (R314) -/

/-- What an ACK acknowledges to a sender: records, items, the window. -/
def State.takeAck (s : State) (x : Sess) (seq : Nat) (body : List Byte) : State :=
  if seq ≤ x.ackSeq then s
  else
    let r := leAt body 0 8
    let a := leAt body 8 8
    let n := if x.ackr ≤ r ∧ r ≤ x.ackr + x.recs.length then r - x.ackr else 0
    let m := if x.acka ≤ a ∧ a ≤ x.acka + x.items.length then a - x.acka else 0
    let base := s.get R.SUP_TIM1_RTO * 800
    let gone := x.items.take m
    let left := x.items.drop m
    let y : Sess := { x with
      ackSeq := seq, window := leAt body 16 4, ackr := x.ackr + n, recs := x.recs.drop n, acka := x.acka + m, items := left,
      rto := if n = 0 then x.rto else base, rtoAt := if n = 0 then x.rtoAt else s.now,
      rtoA := if m = 0 then x.rtoA else base, rtoAAt := if m = 0 then x.rtoAAt else s.now }
    let t := (s.putSess y).upAcked ((x.recs.take n).map Prod.fst)
    let lsns := gone.filterMap (fun e => match e.1 with | .rep l => some l | _ => none)
    let t := if lsns.isEmpty then t else t.ledgerAck lsns
    let t := if gone.any (fun e => decide (e.1 = .oldest) && decide (t.bal.reports.head?.map repItem = some e.2)) then t.popReport else t
    (if m = 0 then t else t.evUpseq left).syncSup

/-- ACK (R314, R315, R318, R320). -/
def execAck (d : Option Dgram) (s : State) : Out :=
  .next (s.receive (.ack d) (fun s =>
    let t := s.supTake d (fun b => decide (supType b = 3))
    match t.1 with
    | none => t.2
    | some d =>
      let c := t.2.supCheck d
      match c.1 with
      | none => c.2
      | some (k, body) =>
        if body.length ≠ 24 ∨ 65535 < leAt body 16 4 ∨ leAt body 20 4 ≠ 0 then c.2.bump R.SUP_CNT0_MALF
        else match c.2.sessOf k with
          | some x => if x.up then c.2.takeAck x (supSeq d.bytes) body else c.2
          | none => c.2))

/-! ### Requests (R322) -/

/-- STATUS codes (R322). -/
def stOk : Nat := 0
def stPath : Nat := 1
def stPartial : Nat := 2
def stUnmapped : Nat := 3
def stBadreq : Nat := 4
def stNotfound : Nat := 5
def stNoroom : Nat := 6
def stBusy : Nat := 7
def stRefused : Nat := 8

/-- A response body that begins with STATUS. -/
def respBody (st : Nat) (rest : List Byte) : List Byte := [BitVec.ofNat 8 st, 0#8, 0#8, 0#8] ++ rest

/-- A response sent and kept among the last 16. -/
def State.respond (s : State) (k ty reqid : Nat) (body : List Byte) : State :=
  let t := { s with sup := { s.sup with cache := ((ty, reqid, body) :: s.sup.cache).take 16 } }
  t.supSend k ty 1 reqid body

/-- A request answered: it leaves the list. -/
def State.answer (s : State) (r : Req) (body : List Byte) : State :=
  let t := { s with sup := { s.sup with reqs := s.sup.reqs.filter (fun x => decide (x.reqid ≠ r.reqid ∨ x.sess ≠ r.sess)) } }
  t.respond r.sess r.ty r.reqid body

/-- A request is being carried out (R322, R331). -/
def State.reqRuns (s : State) : Bool := s.sup.reqs.any (fun r => r.started)

/-- The request marked as started, with what its response holds so far. -/
def State.startReq (s : State) (r : Req) (resp : List Byte) (due : Nat) : State :=
  { s with sup := { s.sup with reqs := s.sup.reqs.map (fun x =>
      if x.reqid = r.reqid ∧ x.sess = r.sess then { x with started := true, resp := resp, due := due } else x) } }

/-- A request entered in the order of SEQ. -/
def insertReq (r : Req) : List Req → List Req
  | [] => [r]
  | x :: t => if x.started ∨ x.seq < r.seq then x :: insertReq r t else r :: x :: t

/-- The oldest request waiting, when none runs and it is of a kind that `p` picks: carried out by `act`. -/
def State.runNext (s : State) (p : Req → Bool) (act : Req → State → State) : State :=
  if s.reqRuns then s
  else match s.sup.reqs.head? with
    | some r => if p r then act r s else s
    | none => s

/-- A request received (R306, R322): a stored response is sent again; FW_CHUNK and ACTIVATE are BUSY while an activation runs;
otherwise the request waits for its turn and is carried out at once when it has it. -/
def State.takeRequest (s : State) (d : Dgram) (p : Req → Bool) (act : Req → State → State) : State :=
  let c := s.supCheck d
  match c.1 with
  | none => c.2
  | some (k, body) =>
    let ty := supType d.bytes
    let id := supReq d.bytes
    match c.2.sup.cache.find? (fun e => decide (e.2.1 = id)) with
    | some e => c.2.supSend k e.1 1 id e.2.2
    | none =>
      if c.2.sup.reqs.any (fun r => decide (r.reqid = id)) then c.2
      else if (ty = 7 ∨ ty = 8) ∧ c.2.sup.activate.isSome then c.2.respond k ty id (respBody stBusy [])
      else
        let r : Req := { sess := k, ty := ty, reqid := id, seq := supSeq d.bytes, body := body }
        ({ c.2 with sup := { c.2.sup with reqs := insertReq r c.2.sup.reqs } }).runNext p act

/-- A request command: the next request waiting, or the datagram that it takes. -/
def State.request (s : State) (d : Option Dgram) (ty : Nat) (p : Req → Bool) (act : Req → State → State) : State :=
  let q := fun (r : Req) => decide (r.ty = ty) && p r
  let t := s.supTake d (fun b => decide (supType b = ty))
  match t.1 with
  | some d => t.2.takeRequest d q act
  | none => t.2.runNext q act

/-! ### DOWNLINK (R328) -/

/-- DOWNLINK carried out. -/
def State.runDownlink (r : Req) (s : State) : State :=
  let b := r.body
  let meter := leAt b 0 4
  let id := leAt b 4 4
  let cls := leAt b 8 1
  let frag := leAt b 9 1
  let n := leAt b 10 2
  let done := fun (t : State) st => t.answer r (respBody st [])
  if b.length ≠ 12 + n ∨ n = 0 ∨ 200 < n ∨ id = 0 ∨ cls = 0 ∨ 4 < cls then done s stBadreq
  else
    let s := s.readCandidates meter
    match s.dirFind meter with
    | none => done s stNotfound
    | some i =>
      if 3 < s.servingPort i then done s stBadreq
      else if (s.dlsOf meter).any (fun m => decide (m.id = id ∧ m.frag = frag)) then done s stOk
      else if s.fragInOrder meter id frag = false then done s stBadreq
      else
        match s.dlsFree with
        | none => done (s.flag R.SUP_DLS_DLFULL) stNoroom
        | some k => done (s.dlsPut k meter id cls frag (b.drop 12)) stOk

/-- DOWNLINK (R328): SETDOWN waits while the test interface holds the directory (R524). -/
def execDownlink (d : Option Dgram) (s : State) : Out :=
  .next (s.receive (.downlink d) (fun s => s.request d 9 (fun _ => !(s.on R.PRT_CTL_DIRHOLD)) State.runDownlink))

/-! ### TEST (R325, R519) -/

/-- The answer to a perturbation request and what it does, in the order of checks of R519. -/
def State.testCheck (s : State) (x : Sess) (b : List Byte) : Nat × State :=
  let dur := leAt b 16 4
  let op := leAt b 22 1
  let g := leAt b 12 4
  if b.length ≠ 48 ∨ leAt b 23 9 ≠ 0 ∨ g = 0 ∨ ¬((op = 1 ∧ 8000 ≤ dur ∧ dur ≤ 28800000) ∨ (op = 2 ∧ dur = 0)) ∨
      1024 ≤ leAt b 20 2 then (stBadreq, s)
  else if leAt b 0 8 ≠ Config.serial.toNat ∨ leAt b 8 4 ≠ x.id then (stRefused, s)
  else if s.lc = lcTest then (stOk, s)
  else if s.lc ≠ lcField then (stRefused, s)
  else
    match s.baseNote with
    | none => (stRefused, s)
    | some base =>
      if cmac (supKey base g) (b.take 32) = b.drop 32 then
        (stOk, if op = 1 then s.openWindow x.num dur (leAt b 20 2) else s.closeWindow)
      else (stRefused, s)

/-- A TEST request carried out. -/
def State.runTest (r : Req) (s : State) : State :=
  match s.sessOf r.sess with
  | none => s
  | some x =>
    let c := s.testCheck x r.body
    c.2.answer r (respBody c.1 [])

/-- The text of a datagram as its session's key deciphers it: which of the two TEST commands it is. -/
def State.peekOp (s : State) (b : List Byte) : Nat :=
  match s.sup.sess.find? (fun x => decide (x.id = supSess b)) with
  | some x =>
    let g := s.page x.rx
    leAt (gcmCrypt g.key (nonceOf g.salt (supSeq b)) ((b.drop 24).take (supLen b))) 22 1
  | none => 0

/-- The TEST requests whose OP satisfies `p`. -/
def State.testRequest (s : State) (d : Option Dgram) (p : Nat → Bool) : State :=
  let q := fun (r : Req) => decide (r.ty = 11) && p (leAt r.body 22 1)
  let t := s.supTake d (fun b => decide (supType b = 11) && p (s.peekOp b))
  match t.1 with
  | some d => t.2.takeRequest d q State.runTest
  | none => t.2.runNext q State.runTest

/-- TEST_OPEN (R519, R520). -/
def execTestOpen (d : Option Dgram) (s : State) : Out :=
  .next (s.receive (.testOpen d) (fun s => s.testRequest d (fun op => decide (op ≠ 2))))

/-- TEST_CLOSE (R519, R520). -/
def execTestClose (d : Option Dgram) (s : State) : Out :=
  .next (s.receive (.testClose d) (fun s => s.testRequest d (fun op => decide (op = 2))))

end Sys2Proof.Machine
end

