-- ==== Sys2Proof/Machine/Reset.lean ====
section
/-!
DEFINITION. The kinds of reset and their reach (R10, R20, R23, R553), what the island does while the main clusters are held, and
the ERASE line (R374).
-/
namespace Sys2Proof.Machine

/-! ### What a reset leaves -/

/-- Addresses of island registers (R10): the island blocks, the energy registers (R175, R188), the session registers of the
outlets with CHG_CTR and CHG_SEQ (R410, R411), KEY_UCTR (R371) and CFG_RECOV (R497). -/
def islandReg (a : Nat) : Bool :=
  decide (a / 65536 = 0x2F00 ∨ a / 65536 = 0x2F01 ∨ a / 65536 = 0x2F02 ∨ a / 65536 = 0x2F03 ∨ a / 65536 = 0x2F04 ∨
    a / 65536 = 0x2F05) ||
  decide (a = R.NRG_STAT ∨ a = R.NRG_UNMET ∨ (0x22010100 ≤ a ∧ a < 0x22010200)) ||
  decide ((R.CHG_SID 0 ≤ a ∧ a ≤ R.CHG_SMAX 0) ∨ (R.CHG_SID 1 ≤ a ∧ a ≤ R.CHG_SMAX 1) ∨ a = R.CHG_CTR ∨ a = R.CHG_SEQ) ||
  decide (a = R.KEY_UCTR ∨ a = R.CFG_RECOV)

/-- Registers of the grid cluster (R21). -/
def gridReg (a : Nat) : Bool := decide (a / 0x1000000 = 0x22)

/-- Registers and whole blocks that go on through a restart (R553): the island, the grid cluster, the time unit, the CFG_ block, and
the registers that describe what a restart keeps. -/
def restartKeeps (a : Nat) : Bool :=
  islandReg a || gridReg a ||
  decide (a / 65536 = 0x2306 ∨ a / 65536 = 0x2503) ||
  decide (a = R.TSQ_TICK ∨ a = R.TSQ_TICKHI ∨ a = R.TSQ_LEN ∨ a = R.TSQ_STEPOFS ∨ (R.TSQ_SLOTA 0 ≤ a ∧ a < R.TSQ_OVR 0) ∨
    (R.TSQ_PROOF 0 ≤ a ∧ a ≤ R.TSQ_PROOF 31)) ||
  decide ((R.VAL_WINA 0 ≤ a ∧ a ≤ R.VAL_WIND 15) ∨ a = R.DIR_USED ∨ (R.BAL_ASG 0 0 ≤ a ∧ a ≤ R.BAL_ASG 3 3 ∧
    0x30 ≤ a % 0x40) ∨ a = R.RPL_STAT) ||
  decide (a = R.EVR_SEQ ∨ a = R.EVR_USED ∨ a = R.EVR_OLDEST ∨ a = R.EVR_DISCARD ∨ a = R.EVR_UPSEQ)

/-- Fields kept in registers that otherwise return to reset (R553, R378): at a restart. -/
def restartFields : List Fld :=
  [R.TSQ_STAT_PLAN_OK, R.TSQ_STAT_ALIGNING, R.TSQ_STAT_STEPPED, R.TSQ_STAT_SLOTS, R.VAL_STAT_HUSED, R.VAL_STAT_HFULL,
    R.KEY_STAT_ERASED]

/-- The register file with only the addresses that `p` picks, and some fields of the old one. -/
def State.keepRegs (s : State) (p : Nat → Bool) (l : List Fld) : State :=
  let t := { s with regs := SMap.keep p s.regs, shown := SMap.keep p s.shown }
  l.foldl (fun (t : State) f => s.keepFld t f) t

/-- The levels that output balls take at the start of a die reset, until step 6 of the start order and in SAFE (R542). -/
def resetBalls : List (Port × List Byte) :=
  let low := fun (n : String) => (Port.pin n, [0#8])
  let high := fun (n : String) => (Port.pin n, [1#8])
  ["0", "1"].flatMap (fun o => [low ("CHG" ++ o ++ "_K"), low ("CHG" ++ o ++ "_SHUNT"), low ("CHG" ++ o ++ "_LOCK"),
    low ("CHG" ++ o ++ "_CPOUT"), high ("MBUS" ++ o ++ "_TX")]) ++
  ["0", "1", "2", "3"].flatMap (fun k => [low ("PULSE" ++ k), low ("PLC" ++ k ++ "_TXEN"), high ("UART" ++ k ++ "_TX"),
    low ("RAD" ++ k ++ "_RST_N"), high ("RAD" ++ k ++ "_CS_N"), high ("NAND_CE" ++ k ++ "_N"), low ("TRIG" ++ k)]) ++
  ["0", "1", "2", "3", "4", "5", "6", "7"].flatMap (fun n => [low ("RS485_" ++ n ++ "_DE"), high ("RS485_" ++ n ++ "_TX")]) ++
  [(.pin "XOFF", [0xFF#8]), high "QSPI_CS_N", low "NAND_WP_N", high "ETH2_TXDIS", low "PPS_OUT", low "VHOLD_SINKEN"]

/-- The balls with the main supplies absent (R542): the banks drive nothing, and the island drives its two outputs low. -/
def lossBalls : List (Port × List Byte) :=
  [(.pin "BANKS_UNDRIVEN", []), (.pin "VHOLD_CHGEN", [0#8]), (.pin "VHOLD_SINKEN", [0#8])]

/-- What a die reset leaves of the charging sessions in the island: why the open ones end at the next start (R402), and the outlets whose
contacts have still to follow the removal of K (R389). -/
def State.cutCharge (s : State) (cause : Nat) : Isl :=
  [0, 1].foldl (fun (i : Isl) o =>
    let x := s.outlet o
    { i with
      cutWith := if s.inSession o ∧ SMap.get zN i.cutWith o = 0 then
          SMap.put zN i.cutWith o (if cause = 0 ∨ s.isl.warned = true then 10 else 13) else i.cutWith,
      kCut := if s.on (R.CHG_STAT_K o) ∨ x.check.any (fun c => !c.1) then SMap.put zB i.kCut o true else i.kCut }) s.isl

/-- DIE_RESET (R23, R477): every main cluster in reset, every bank zero-filled; the island, the fuses, the NAND array and the NOR
keep what they hold.  Partial and staged images are lost (R466): what a slot not named by the record holds is as it stands. -/
def State.dieReset (s : State) (cause : Nat) : State :=
  let base := State.reset
  let t : State := { base with
    regs := s.regs, fresh := s.fresh, otp := s.fused, nand := s.nand, nor := s.nor, pending := s.pending,
    out := s.out ++ resetBalls,
    jtag := s.jtag, svc := { vbus := s.svc.vbus }, isl := { s.cutCharge cause with cause := cause, wd4B := false } }
  let u := { t with regs := SMap.keep islandReg s.regs }
  s.keepFld u R.KEY_STAT_ERASED

/-- Events that have reached the recorder and stand in no record are lost with the main clusters, and counted in the island: every one
raised from the power-fail warning onward, else those of earlier ticks (R456, R513). -/
def State.evLose (s : State) : State :=
  s.set R.ISL_EVLOST_COUNT (satAdd 32 (s.get R.ISL_EVLOST_COUNT)
    (s.raised.filter (fun e => s.isl.warned || decide (e.tick < s.now))).length)

/-- A change that only happens while the island runs: it has supply from either source. -/
def State.islRun (s : State) (f : State → State) : State := if s.isl.dead then s else f s

/-- An event of the island or the grid cluster while the recorder does not run is held in the island, up to 64; further ones are
added to the count of R456 (R470, R514). -/
def State.islRaise (s : State) (code src sev : Nat) (data : List (Nat × Nat × Nat)) : State :=
  if s.up then s.raise code src sev data
  else
    let e : Ev := ⟨code, src, sev, evData data, s.get R.ISL_OPSEC_SEC, s.get R.ISL_PCYC_PCYC, s.now⟩
    if s.isl.evHeld.length < 64 then
      let t := { s with isl := { s.isl with evHeld := s.isl.evHeld ++ [e] } }
      t.set R.ISL_EVHELD_COUNT t.isl.evHeld.length
    else s.set R.ISL_EVLOST_COUNT (satAdd 32 (s.get R.ISL_EVLOST_COUNT) 1)

/-! ### The island's clocks -/

/-- The RTC given a reading in 1/32,768 s: seconds modulo 2^48 and the fraction (R507). -/
def State.putRtc (s : State) (v : Nat) : State :=
  let sec := v / 32768 % 2 ^ 48
  s.setAll [(R.RTC_SECHI_SEC, sec / 2 ^ 32), (R.RTC_SECLO_SEC, sec % 2 ^ 32), (R.RTC_FRAC_FRAC, v % 32768)]

/-- RTC_CORRECTION (R507): `n` crystal periods counted, with CAL counts in 2^20 of them added or skipped, spread evenly. -/
def State.rtcRun (s : State) (n : Nat) : State :=
  let acc := s.isl.rtcAcc + (n : Int) * sgn 9 (s.get R.RTC_CAL_CAL)
  let t := { s with isl := { s.isl with rtcAcc := acc % 2 ^ 20 } }
  t.putRtc ((s.rtcNow : Int) + n + acc / 2 ^ 20).toNat

/-- Operating seconds and the trial timer after `n` periods of their clock (R447, R509, R511). -/
def State.opsRun (s : State) (n : Nat) : State :=
  let f := s.isl.opFrac + n
  let k := f / 32768
  let t := ({ s with isl := { s.isl with opFrac := f % 32768 } }).wrapBy R.ISL_OPSEC_SEC k
  if t.on R.ISL_TRIAL_RUN then t.set R.ISL_TRIAL_LEFT (t.get R.ISL_TRIAL_LEFT - k) else t

/-! ### ERASE -/

/-- What ERASE does in the island, whatever the main clusters do (R374): the key store and the drydown items of keyed regions cleared, the
heart-note table emptied, the count, the time and the event of the erase. -/
def State.clearKeys (s : State) : State :=
  let t := ({ s with isl := { s.isl with keys := {}, dry := { s.isl.dry with items := s.isl.dry.items.filter (fun i => decide (i.region ≤ 2)) } }, val := { s.val with hearts := [], fill := none, rederive := false } }).mirrorKeys
  let u := (t.flag R.KEY_STAT_ERASED).setAll [(R.VAL_STAT_HFULL, 0), (R.VAL_STAT_HUSED, 0), (R.KEY_STAT_REDERIVE, 0),
    (R.TMP_ERCNT_COUNT, satAdd 16 (t.get R.TMP_ERCNT_COUNT) 1), (R.TMP_ERTIME_SEC, t.get R.RTC_SECLO_SEC)]
  u.islRaise 0x1401 20 2 [(0, 1, u.get R.TMP_STAT_PIN), (1, 1, u.get R.TMP_STAT_INT), (2, 2, u.get R.TMP_ERCNT_COUNT),
    (4, 4, u.get R.TMP_ERTIME_SEC)]

/-- Counters in use, the key message that is being processed (R377: the one that waits for its commit, else the first of those that have
arrived) and a handshake under way are gone with the key store. -/
def State.dropKeyed (s : State) : State :=
  let k := s.sec.kup
  let w := if k.accepted.isSome then k.waiting else k.waiting.drop 1
  { s with sec := { s.sec with next := [], kup := { k with accepted := none, item := [], waiting := w } }, sup := { s.sup with hello := none } }

/-- What ERASE does in the main clusters (R110, R374, R377, R401, R437, R438): every cipher page EMPTY, every session ended, a message that
waits for its commit discarded; storage that is mounted enters KEYLESS, and open charging sessions end with reason 09h when their receipt key
goes. -/
def State.eraseRunning (s : State) : State :=
  let t := (s.sup.sess.map Sess.num).foldl (fun (t : State) k => t.endSession k) s
  let t := (List.range 256).foldl (fun (t : State) p => t.zeroPage p) t
  let t := t.dropKeyed
  let t := if t.ftl.mounted = true ∧ (t.storWrites = true ∨ t.stor = 3) then t.keyless else t
  t.chgKeyLost.syncSup

/-- ERASE (R374). -/
def State.eraseKeys (s : State) : State :=
  let t := s.clearKeys
  if t.up then t.eraseRunning else t

end Sys2Proof.Machine
end

