-- ==== Sys2Proof/Machine/KeyUpdate.lean ====
section
/-!
DEFINITION. KEY_UPDATE as it arrives and as it is applied (R325, R367-R371, R377), and the tamper inputs (R372-R375).
-/
namespace Sys2Proof.Machine

/-! ### Messages over SVC (R495) -/

/-- An SVC message: TYPE, request or response, REQID, body length, body. -/
def svcFrame (ty resp req : Nat) (body : List Byte) : List Byte :=
  [BitVec.ofNat 8 ty, BitVec.ofNat 8 resp] ++ leBytes 4 req ++ leBytes 2 body.length ++ body

/-- A response over SVC. -/
def State.svcSend (s : State) (ty req : Nat) (body : List Byte) : State := s.send .svc (svcFrame ty 1 req body)

/-! ### KEY_UPDATE -/

/-- The response of a KEY_UPDATE to where it came from (R325, R495). -/
def State.kupAnswer (s : State) (src : KupSrc) (st : Nat) : State :=
  match src with
  | .svc q => s.svcSend 6 q (respBody st [])
  | .sup k q =>
    match s.sup.reqs.find? (fun r => decide (r.sess = k ∧ r.reqid = q)) with
    | some r => s.answer r (respBody st [])
    | none => s

/-- Messages that wait are processed one at a time, until one is accepted; none while the fuses of the last are being programmed (R367,
R370). -/
def State.kupDrain : Nat → State → State
  | 0, s => s
  | n + 1, s =>
    if s.sec.kup.accepted.isSome || s.sec.kup.fusing.isSome then s
    else match s.sec.kup.waiting with
      | [] => s
      | w :: rest =>
        let t := { s with sec := { s.sec with kup := { s.sec.kup with waiting := rest } } }
        let r := t.kupProcess w.src w.msg
        if r.1 = 1 then r.2 else (r.2.kupAnswer w.src stRefused).kupDrain n

/-- In a commit phase the messages that have arrived are processed, until one is accepted (R367). -/
def State.kupCommitPhase (s : State) : State := s.kupDrain (s.sec.kup.waiting.length + 1)

/-- Whether a message came over the SVC port. -/
def KupMsg.bySvc (w : KupMsg) : Bool :=
  match w.src with
  | .svc _ => true
  | .sup _ _ => false

/-- A message that arrives waits its turn: one of SUP goes before those of SVC of its own tick (R367); none is accepted while the
life-cycle fuses could not be read (R493). -/
def State.kupArrive (s : State) (src : KupSrc) (m : List Byte) : State :=
  let w : KupMsg := ⟨src, m, s.now⟩
  let after := fun (x : KupMsg) => x.bySvc && !w.bySvc && decide (x.tick = s.now)
  let l := s.sec.kup.waiting
  if s.get R.CFG_ERR_CODE = 1 then s.kupAnswer src stRefused
  else { s with sec := { s.sec with kup := { s.sec.kup with waiting := l.filter (fun x => !(after x)) ++ [w] ++ l.filter after } } }

/-- A KEY_UPDATE request carried out: its response follows the processing. -/
def State.runKeyUpdate (r : Req) (s : State) : State :=
  (s.startReq r [] 0).kupArrive (.sup r.sess r.reqid) r.body

/-- KEY_UPDATE (R325, R367): the request of an UPLINK session, one at a time. -/
def execKeyUpdate (d : Option Dgram) (s : State) : Out :=
  .next (s.receive (.keyUpdate d) (fun s => s.request d 6 (fun _ => true) State.runKeyUpdate))

/-- What follows the commit of an accepted message: its response, and the next message that waits. -/
def State.kupDone (s : State) (src : KupSrc) : State :=
  (s.kupAnswer src stOk).kupCommitPhase

/-- An accepted message of one OP applied in the commit phase (R370): KEY_UCTR first, then what the message does. -/
def State.kupApply (s : State) (op : Nat) (act : List Byte → List Byte → State → State) : State :=
  if s.phase = .commit then
    match s.kupReady op with
    | none => s
    | some (src, m) => (act m s.sec.kup.item (s.kupCommit m)).kupDone src
  else s

/-- KEY_UPDATE_WRITE (R364, R368, R370): the item placed; a write of the selected root starts the fill of R111 too. -/
def execKeyUpdateWrite (s : State) : Out :=
  .next (s.run (fun s => s.kupApply 1 (fun m item s =>
    let t := s.kupWrite (leAt m 2 1) item
    if t.val.rederive then { t with val := { t.val with fill := some 0, scanFrom := t.now + 1 } } else t)))

/-- KEY_UPDATE_TRANSITION (R369, R370); a key store erased whole ends the open charging sessions (R401). -/
def execKeyUpdateTransition (s : State) : Out :=
  .next (s.run (fun s => s.kupApply 2 (fun m _ s =>
    let t := s.kupTransition (leAt m 2 1)
    if leAt m 2 1 = 4 ∨ s.lc = 2 then t.chgKeyLost else t)))

/-- KEY_UPDATE_SETAUTH (R368, R370). -/
def execKeyUpdateSetauth (s : State) : Out :=
  .next (s.run (fun s => s.kupApply 3 (fun m _ s => s.kupSetauth (leAt m 2 1) (sliceB m 148 32))))

/-- TRANSITION_DIE_RESET (R370): 800 ticks after the fuses of a TRANSITION verify.  The manual names no START cause for it: the
value is open. -/
def execTransitionDieReset (s : State) : Out :=
  .next (s.inCommit (fun s =>
    match s.sec.kup.transAt with
    | some t =>
      if t + 800 ≤ s.now then
        let d := s.draw
        d.2.evLose.dieReset (d.1.toNat % 8)
      else s
    | none => s))

/-! ### Tamper -/

/-- The samples of input `n` at its active level so far, whether they are FILT in a row, and whether it holds the ERASE line (R372). -/
def State.noteTamper (s : State) (n k : Nat) (hit line : Bool) : State :=
  let t := { s with isl := { s.isl with tampRun := SMap.put zN s.isl.tampRun n k, erasing := SMap.put zB s.isl.erasing n line } }
  if hit then t.flagBit R.TMP_STAT_PIN n else t

/-- TAMPER_INPUT (R51, R372): one sample of TAMPi, in a capture phase while the main clusters run.  The input counts toward FILT while EN is 1 and the pin is at the level POL; the
ERASE line is asserted at every sample at which FILT is reached while ERASE is 1.  A line held asserted is one erase, unless it
clears something again. -/
def execTamperInput (n : Fin 8) (pin : Bool) (s : State) : Out :=
  .next (s.islRun (fun s => (if s.up then s.sense (.tamperInput n pin) else fun f => f s) (fun s =>
    let active := s.on (R.TMP_CFG_EN n) && decide (pin = s.on (R.TMP_CFG_POL n))
    let k := if active then SMap.get zN s.isl.tampRun n + 1 else 0
    let hit := active && decide (s.get (R.TMP_CFG_FILT n) ≤ k)
    let line := hit && s.on (R.TMP_CFG_ERASE n)
    let was := SMap.get zB s.isl.erasing n
    let t := s.noteTamper n k hit line
    if line ∧ (was = false ∨ s.isl.keys ≠ {}) then t.eraseKeys else t)))

/-- TAMPER_INTERNAL (R373): an enabled internal source reports its condition; GLITCH has none once the main supplies have been declared
lost. -/
def execTamperInternal (src : Fin 3) (s : State) : Out :=
  .next (s.islRun (fun s =>
    if (s.get R.TMP_INT_EN).testBit src = true ∧ ¬(src.val = 1 ∧ s.isl.battery = true) then (s.flagBit R.TMP_STAT_INT src).eraseKeys else s))

end Sys2Proof.Machine
end

