-- ==== Sys2Proof/Machine/Update.lean ====
section
/-!
DEFINITION. Images in NOR, their headers and staging, the active-slot record, ACTIVATE, the confirmation, and the fixative
(R326, R327, R463-R474, R480, R481).
-/
namespace Sys2Proof.Machine

/-! ### The active-slot record (R471) -/

/-- The active-slot record: sequence, active slots, flags, versions, floors. -/
structure ActRec where
  seq   : Nat := 0
  fslot : Nat := 0
  cslot : Nat := 0
  flags : Nat := 0
  fver  : Nat := 0
  cver  : Nat := 0
  ffl   : Nat := 0
  cfl   : Nat := 0
  deriving DecidableEq, Repr

/-- Whether the record carries TRIAL. -/
def ActRec.trial (r : ActRec) : Bool := r.flags.testBit 0

/-- The 32 bytes of a record. -/
def ActRec.bytes (r : ActRec) : List Byte :=
  let b := label4 0x41 0x53 0x4C 0x54 ++ leBytes 4 r.seq ++
    [BitVec.ofNat 8 r.fslot, BitVec.ofNat 8 r.cslot, BitVec.ofNat 8 r.flags, 0#8] ++
    leBytes 4 r.fver ++ leBytes 4 r.cver ++ leBytes 4 r.ffl ++ leBytes 4 r.cfl
  b ++ leBytes 4 (crc32 b)

/-- A copy of the record when it is valid. -/
def actParse (b : List Byte) : Option ActRec :=
  if b.length = 32 ∧ b.take 4 = label4 0x41 0x53 0x4C 0x54 ∧ crc32 (b.take 28) = leAt b 28 4 then
    some { seq := leAt b 4 4, fslot := leAt b 8 1 % 2, cslot := leAt b 9 1 % 2, flags := leAt b 10 1 % 8,
           fver := leAt b 12 4, cver := leAt b 16 4, ffl := leAt b 20 4, cfl := leAt b 24 4 }
  else none

/-- The record in force: the valid copy with the higher sequence; slots F0 and C0, floors 0, TRIAL clear when neither is valid
(R471, R493). -/
def Nor.record (n : Nor) : ActRec :=
  match actParse n.rec0, actParse n.rec1 with
  | some a, some b => if a.seq < b.seq then b else a
  | some a, none => a
  | none, some b => b
  | none, none => {}

/-- The record written to the copy that does not hold the newest valid one, with the sequence plus 1 (R471). -/
def Nor.writeRecord (n : Nor) (r : ActRec) : Nor :=
  let old := n.record
  let b := { r with seq := (old.seq + 1) % 2 ^ 32 }.bytes
  if actParse n.rec0 = some old then { n with rec1 := b } else { n with rec0 := b }

/-- The UPD_ registers that show the record (R474). -/
def State.showRecord (s : State) : State :=
  let r := s.nor.record
  s.setAll [(R.UPD_STAT_TRIAL, b2n r.trial), (R.UPD_FVER_VER, r.fver), (R.UPD_CVER_VER, r.cver),
    (R.UPD_FLOOR_VER 0, r.ffl), (R.UPD_FLOOR_VER 1, r.cfl)]

/-- ACTIVE_SLOT_RECORD_WRITE (R471). -/
def State.putRecord (s : State) (r : ActRec) : State := ({ s with nor := s.nor.writeRecord r }).showRecord

/-! ### Slots -/

/-- The bytes of slot `k` of a kind (1 firmware, 2 Accord) (R463). -/
def Nor.slot (n : Nor) (kind k : Nat) : List Byte :=
  if kind = 1 then (if k = 0 then n.f0 else n.f1) else if k = 0 then n.c0 else n.c1

/-- A slot rewritten. -/
def Nor.setSlot (n : Nor) (kind k : Nat) (b : List Byte) : Nor :=
  if kind = 1 then (if k = 0 then { n with f0 := b } else { n with f1 := b })
  else if k = 0 then { n with c0 := b } else { n with c1 := b }

/-- The image that stands in a slot: as many bytes as its header gives (R464). -/
def imageOf (slot : List Byte) : List Byte := slot.take (leAt slot 12 4)

/-- The slot that the record names for a kind, and the flacon, the other one (R463). -/
def ActRec.slotOf (r : ActRec) (kind : Nat) : Nat := if kind = 1 then r.fslot else r.cslot
def State.activeImage (s : State) (kind : Nat) : List Byte := imageOf (s.nor.slot kind (s.nor.record.slotOf kind))
def State.flacon (s : State) (kind : Nat) : List Byte := s.nor.slot kind (1 - s.nor.record.slotOf kind)

/-! ### The NOR (R463, R466, R550) -/

/-- The NOR offset of slot `k` of a kind (R463). -/
def slotBase (kind k : Nat) : Nat :=
  if kind = 1 then (if k = 0 then 0x100000 else 0x300000) else if k = 0 then 0x500000 else 0x600000

/-- How the NOR is read, from its SFDP table (R550): EBh, then 6Bh, each with the dummy cycles that the table declares, and 4-byte
addresses above 16 MiB; without a valid table or a quad read, FAST READ with 3-byte addresses. -/
def norMode (t : Option Sfdp) : NorMode :=
  match t with
  | none => {}
  | some t =>
    let bytes := if 0x1000000 < t.density then 4 else 3
    match t.read144, t.read114 with
    | some d, _ => { read := 0xEB, dummy := some d, bytes := bytes, quad := some t.quad }
    | none, some d => { read := 0x6B, dummy := some d, bytes := bytes, quad := some t.quad }
    | none, none => {}

/-- The bytes of a NOR address, most significant first. -/
def NorMode.addr (m : NorMode) (a : Nat) : List Byte := (leBytes m.bytes a).reverse

/-- The boot ROM reads the SFDP table with READ SFDP at offset 0, and reads the NOR as it gives (R550). -/
def State.norStart (s : State) (t : Option Sfdp) : State :=
  { s.send .nor [0x5A#8, 0#8, 0#8, 0#8] with boot := { s.boot with nor := norMode t } }

/-- A read of the NOR from an offset on begins (R550). -/
def State.norRead (s : State) (a : Nat) : State :=
  s.send .nor (BitVec.ofNat 8 s.boot.nor.read :: s.boot.nor.addr a)

/-- A NOR span made at least `n` bytes long: what nothing has programmed reads FFh. -/
def padErased (n : Nat) (b : List Byte) : List Byte := b ++ List.replicate (n - b.length) 0xFF#8

/-- One 4 KiB sector of a slot erased. -/
def eraseSector (b : List Byte) (k : Nat) : List Byte :=
  overlay (padErased (4096 * (k + 1)) b) (4096 * k) (List.replicate 4096 0xFF#8)

/-- Bytes programmed in a slot: programming clears bits and sets none. -/
def programAt (b : List Byte) (off : Nat) (d : List Byte) : List Byte :=
  let p := padErased (off + d.length) b
  overlay p off ((sliceB p off d.length).zipWith (· &&& ·) d)

/-- The sectors whose first byte lies in a span. -/
def sectorsIn (off n : Nat) : List Nat := (List.range (ceilDiv (off + n) 4096)).drop (ceilDiv off 4096)

/-- Bytes staged in the flacon of a kind: each sector is erased, by 20h, before its first byte is written (R466, R550). -/
def State.stageAt (s : State) (kind off : Nat) (d : List Byte) : State :=
  let k := 1 - s.nor.record.slotOf kind
  let secs := sectorsIn off d.length
  let t := secs.foldl (fun (t : State) i => t.send .nor (0x20#8 :: t.boot.nor.addr (slotBase kind k + 4096 * i))) s
  { t with nor := t.nor.setSlot kind k (programAt (secs.foldl eraseSector (t.nor.slot kind k)) off d) }

/-- FSTG or CSTG: 0 empty, 1 receiving, 2 STAGED (R474). -/
def stgFld (kind : Nat) : Fld := if kind = 1 then R.UPD_STAT_FSTG else R.UPD_STAT_CSTG

/-! ### The image header (R464, R465) -/

/-- The largest total length of a kind. -/
def imageMax (kind : Nat) : Nat := if kind = 1 then 2097152 else 1048576

/-- The hashes that may sign an image of a kind in the present state (check 4). -/
def State.imageAuthorities (s : State) (kind : Nat) : List (List Byte) :=
  let k := s.otp.cycle
  let own := if s.lc = 1 then [SMap.get (fun _ => ([] : List Byte)) s.otp.ahm k]
    else if s.lc = 2 then [SMap.get (fun _ => ([] : List Byte)) s.otp.ahf k] else []
  ahkBytes :: (if kind = 2 then own.filter (fun h => !h.isEmpty) else [])

/-- Checks 1 to 5 of R465 on a header of 256 bytes: the HRES code, 1 when all pass.  `id` and `total` are those of the
FW_CHUNK, or of the header itself when an active image is checked. -/
def State.headerChecks (s : State) (h : List Byte) (id total : Nat) : Nat :=
  let kind := leAt h 5 1
  let dev := leAt h 20 4
  let z := fun off n => (sliceB h off n).all (fun b => decide (b = 0#8))
  let len := leAt h 12 4
  if ¬(h.length = 256 ∧ h.take 4 = label4 0x53 0x58 0x49 0x4D ∧ leAt h 4 1 = 1 ∧ (kind = 1 ∨ kind = 2)) ∨
      (z 6 2 && z 30 2 && z 136 56 && decide (leAt h 29 1 < 2)) = false then 2
  else if leAt h 8 4 ≠ id ∨ id = 0 ∨ len < 257 ∨ imageMax kind < len ∨ len ≠ total then 3
  else if ¬(dev = (s.word R.ISL_ID).toNat ∨ (dev % 65536 = 0 ∧ dev / 65536 = (s.word R.ISL_ID).toNat / 65536)) ∨
      (leAt h 28 1).testBit s.lc = false ∨ ¬(leAt h 32 8 = 0 ∨ leAt h 32 8 = Config.serial.toNat) then 4
  else if (s.imageAuthorities kind).contains (sha256 (sliceB h 72 64)) = false then 5
  else if ecdsaVerify (sliceB h 72 64) (sliceB h 192 64) (h.take 192) = false then 6
  else 1

/-- The rollback floor of a kind (R471). -/
def State.imageFloor (s : State) (kind : Nat) : Nat := if kind = 1 then s.nor.record.ffl else s.nor.record.cfl

/-- IMAGE_HEADER_CHECK (R465): the six checks on an image being received. -/
def State.headerCheck (s : State) (h : List Byte) (id total : Nat) : Nat :=
  let r := s.headerChecks h id total
  if r ≠ 1 then r else if leAt h 16 4 ≤ s.imageFloor (leAt h 5 1) then 7 else 1

/-- A header check that came to the signature counts a verification (R380). -/
def State.countHeader (s : State) (r : Nat) : State := if r = 1 ∨ 6 ≤ r then s.countVerify else s

/-- Whether the body of an image has the hash of its header (R466). -/
def imageHashOk (b : List Byte) : Bool := decide (sha256 (b.drop 256) = sliceB b 40 32)

/-! ### FW_CHUNK (R326, R466) -/

/-- A partial or staged image of a kind no longer counts: the flacon is marked empty. -/
def State.emptyFlacon (s : State) (kind : Nat) : State := s.set (stgFld kind) 0

/-- The image being received is given up. -/
def State.dropImage (s : State) : State :=
  let t := match s.upd.kind with
    | some k => if s.get (stgFld k) = 1 then s.emptyFlacon k else s
    | none => s
  ({ t with upd := { t.upd with total := 0, buf := [], kind := none } }).setAll [(R.UPD_IMG_ID, 0), (R.UPD_RECV_BYTES, 0)]

/-- A header that fails (R326, R465): the image is refused. -/
def State.refuseImage (s : State) (code : Nat) : State :=
  let id := s.get R.UPD_IMG_ID
  let t := (s.set R.UPD_STAT_HRES code).bump R.UPD_CNT_REFUSED
  ({ t with upd := { t.upd with refused := id :: t.upd.refused } }).dropImage

/-- IMAGE_STAGED (R466): the whole image has been received. -/
def State.imageWhole (s : State) (kind : Nat) : Nat × State :=
  if imageHashOk s.upd.buf then (stOk, s.set (stgFld kind) 2)
  else (stRefused, (s.emptyFlacon kind).dropImage.set R.UPD_STAT_HRES 8)

/-- Bytes of an accepted image written to the flacon from an offset on; with the last of them the image is whole (R466). -/
def State.imageWrite (s : State) (kind off : Nat) (d : List Byte) : Nat × State :=
  let t := s.stageAt kind off d
  if t.upd.buf.length = t.upd.total then t.imageWhole kind else (stOk, t)

/-- Bytes of the image received: the header is checked once its 256 bytes are there, and what is accepted goes to the flacon. -/
def State.imageBytes (s : State) (data : List Byte) : Nat × State :=
  let buf := s.upd.buf ++ data
  let t := ({ s with upd := { s.upd with buf := buf } }).set R.UPD_RECV_BYTES buf.length
  let id := s.get R.UPD_IMG_ID
  match s.upd.kind with
  | some k => t.imageWrite k s.upd.buf.length data
  | none =>
    if buf.length < 256 then (stOk, t)
    else
      let r := t.headerCheck (buf.take 256) id t.upd.total
      let t := t.countHeader r
      if r ≠ 1 then (stRefused, t.refuseImage r)
      else
        let kind := leAt buf 5 1
        let t := ({ t with upd := { t.upd with kind := some kind } }).setAll [(R.UPD_STAT_HRES, 1), (stgFld kind, 1)]
        t.imageWrite kind 0 buf

/-- FW_CHUNK carried out: its status, and the next offset expected. -/
def State.takeChunk (s : State) (b : List Byte) : Nat × State :=
  let id := leAt b 0 4
  let off := leAt b 4 4
  let total := leAt b 8 4
  let n := leAt b 12 2
  if b.length < 16 ∨ b.length ≠ 16 + n ∨ n = 0 ∨ 1152 < n ∨ leAt b 14 2 ≠ 0 ∨ id = 0 ∨ total < off + n then (stBadreq, s)
  else if s.upd.refused.contains id then (stRefused, s)
  else if off = 0 ∧ s.get R.UPD_IMG_ID ≠ id then
    let t := s.dropImage
    let t := ({ t with upd := { t.upd with total := total } }).set R.UPD_IMG_ID id
    t.imageBytes (b.drop 16)
  else if s.get R.UPD_IMG_ID ≠ id ∨ total ≠ s.upd.total then (stBadreq, s)
  else if off + n ≤ s.upd.buf.length then (stOk, s)
  else if off ≠ s.upd.buf.length then (stBadreq, s)
  else s.imageBytes (b.drop 16)

/-- The response to a FW_CHUNK. -/
def State.chunkResp (s : State) (b : List Byte) : List Byte × State :=
  let r := s.takeChunk b
  (respBody r.1 (leBytes 4 r.2.upd.buf.length), r.2)

/-- A FW_CHUNK request carried out. -/
def State.runChunk (r : Req) (s : State) : State :=
  let c := s.chunkResp r.body
  c.2.answer r c.1

/-- FW_CHUNK (R326, R465, R466). -/
def execFwChunk (d : Option Dgram) (s : State) : Out :=
  .next (s.receive (.fwChunk d) (fun s => s.request d 7 (fun _ => true) State.runChunk))

/-! ### ACTIVATE (R327, R467) -/

/-- The kind whose flacon holds a STAGED image of an identifier. -/
def State.stagedKind (s : State) (id : Nat) : Option Nat :=
  [1, 2].find? (fun k => decide (s.get (stgFld k) = 2 ∧ leAt (s.flacon k) 8 4 = id))

/-- The kinds that an activation of an identifier takes, the named image's and its companion's; none when one is not STAGED. -/
def State.activation (s : State) (id : Nat) : Option (List Nat) :=
  match s.stagedKind id with
  | none => none
  | some k =>
    let c := leAt (s.flacon k) 24 4
    if c = 0 then some [k] else if s.stagedKind c = some (3 - k) then some [k, 3 - k] else none

/-- Steps 1 to 3 of R327: the XOFF outputs held, an ACK with WINDOW 0 on every SERVER session, and a fence. -/
def State.beginActivate (s : State) (who : Option (Nat × Nat)) (id : Nat) : State :=
  let t := s.set R.QUE_XSTAT_HOLD 1
  let t := { t with upd := { t.upd with pauseAt := some t.now } }
  let f := (t.get R.FTL_FISS_NUM + 1) % 2 ^ 32
  let t := { t with sup := { t.sup with activate := some (who, id, f) } }
  let t := (t.srvSess.map Sess.num).foldl (fun (t : State) k => t.ackNow k) t
  t.issueFence

/-- ACTIVATE carried out: its OK response waits for the fence. -/
def State.runActivate (r : Req) (s : State) : State :=
  if r.body.length ≠ 8 ∨ leAt r.body 4 4 ≠ 0 then s.answer r (respBody stBadreq [])
  else if s.sup.activate.isSome then s.answer r (respBody stBusy [])
  else if (s.activation (leAt r.body 0 4)).isNone then s.answer r (respBody stNotfound [])
  else (s.startReq r [] 0).beginActivate (some (r.sess, r.reqid)) (leAt r.body 0 4)

/-- ACTIVATE (R327, R467). -/
def execActivate (d : Option Dgram) (s : State) : Out :=
  .next (s.receive (.activate d) (fun s => s.request d 8 (fun _ => true) State.runActivate))

/-- Step 4 of R327: the OK response, once the fence has ended, complete or FAILED (R473); storage then programs its open units
(R419, R468). -/
def State.answerActivate (s : State) : State :=
  match s.sup.activate with
  | some (some (k, q), id, f) =>
    if s.fenceEnded f then
      let t := { s with
        sup := { s.sup with activate := some (none, id, f) }, ftl := { s.ftl with drain := true }, evr := { s.evr with flush := true } }
      match t.sup.reqs.find? (fun r => decide (r.sess = k ∧ r.reqid = q)) with
      | some r => t.answer r (respBody stOk [])
      | none => t
    else s
  | _ => s

/-! ### Confirmation (R472) -/

/-- A write of UPD_CONFIRM: TRIAL clears, the floors of images whose FLOOR bit is 1 rise, the trial timer stops (R472, R511). -/
def State.confirm (s : State) : State :=
  let r := s.nor.record
  if r.trial then
    let up := fun kind ver fl => if (leAt (s.activeImage kind) 29 1).testBit 0 then max fl ver else fl
    (s.putRecord { r with flags := 0, ffl := up 1 r.fver r.ffl, cfl := up 2 r.cver r.cfl }).setAll
      [(R.ISL_TRIAL_LEFT, 0), (R.ISL_TRIAL_RUN, 0)]
  else s

/-! ### The fixative (R480, R481) -/

/-- A copy of the fixative is valid. -/
def fixValid (b : List Byte) : Bool :=
  decide (b.length = 1024 ∧ b.take 4 = label4 0x46 0x49 0x58 0x31 ∧ crc32 (b.take 1020) = leAt b 1020 4)

/-- The fixative in force: the valid copy with the higher sequence, and which copy it is. -/
def Nor.fixative (n : Nor) : Option (List Byte × Bool) :=
  if fixValid n.fix0 ∧ fixValid n.fix1 then
    if leAt n.fix0 4 4 < leAt n.fix1 4 4 then some (n.fix1, true) else some (n.fix0, false)
  else if fixValid n.fix0 then some (n.fix0, false)
  else if fixValid n.fix1 then some (n.fix1, true)
  else none

/-- The registers that a fixative carries, in their order (R480). -/
def fixRegs : List Nat :=
  [R.MTR_CTL, R.MTR_GCFG 0, R.MTR_GCFG 1, R.MTR_GCFG 2, R.MTR_GCFG 3, R.MTR_EVCFG, R.MTR_NTHR, R.MTR_NTHR2, R.ZCX_CFG,
    R.SIL_CTL, R.NRG_CTL]

/-- A section of a type in an Accord image: the section directory of R483. -/
def accSection (img : List Byte) (ty : Nat) : Option (List Byte) :=
  let b := img.drop 256
  ((List.range (leAt b 5 1)).find? (fun k => decide (leAt b (16 + 16 * k) 2 = ty))).map (fun k =>
    sliceB b (leAt b (20 + 16 * k) 4) (leAt b (24 + 16 * k) 4))

end Sys2Proof.Machine
end

