-- ==== Sys2Proof/Machine/Accord.lean ====
section
/-!
DEFINITION. The Accord image: its container (R483-R486), the proof of the tick plan (R45), every rule by which the loader refuses an
image (R487), and its application (R487-R489).
-/
namespace Sys2Proof.Machine

/-! ### The container (R483, R484) -/

/-- The section directory: type, offset, length of each section. -/
def accDir (b : List Byte) : List (Nat × Nat × Nat) :=
  (List.range (leAt b 5 1)).map (fun k => (leAt b (16 + 16 * k) 2, leAt b (20 + 16 * k) 4, leAt b (24 + 16 * k) 4))

/-- R483 on a body; the argument of code 06h when it fails: the type of the first section at fault, 0 for the header. -/
def accContainer (b : List Byte) : Option Nat :=
  let n := leAt b 5 1
  let d := accDir b
  let head := decide (b.take 4 = label4 0x41 0x43 0x52 0x44 ∧ leAt b 4 1 = 1 ∧ 3 ≤ n ∧ n ≤ 9 ∧ leAt b 6 2 = 0 ∧
    leAt b 8 4 = b.length ∧ leAt b 12 4 = 0 ∧ 16 + 16 * n ≤ b.length)
  if head = false then some 0
  else
    let bad := fun k =>
      let e := nth d k (0, 0, 0)
      decide (leAt b (18 + 16 * k) 2 ≠ 0 ∨ leAt b (28 + 16 * k) 4 ≠ 0 ∨ e.2.1 % 4 ≠ 0 ∨ e.2.1 < 16 + 16 * n ∨
        b.length < e.2.1 + e.2.2) ||
      (d.take k).any (fun o => decide (o.1 = e.1 ∨ (o.2.1 < e.2.1 + e.2.2 ∧ e.2.1 < o.2.1 + o.2.2)))
    match (List.range n).find? bad with
    | some k => some ((nth d k (0, 0, 0)).1 * 65536)
    | none =>
      match [1, 2, 3].find? (fun ty => !(d.any (fun e => decide (e.1 = ty)))) with
      | some ty => some (ty * 65536)
      | none => none

/-- The lengths of R484. -/
def sectionOk (b : List Byte) (e : Nat × Nat × Nat) : Bool :=
  let n := e.2.2
  match e.1 with
  | 1 => decide (n % 8 = 0 ∧ 8 ≤ n ∧ n ≤ 131072)
  | 2 => decide (4 ≤ n ∧ n = 4 + 8 * leAt b (e.2.1 + 1) 1)
  | 3 => decide (200 ≤ n)
  | 4 => decide (n = 584)
  | 5 => decide (n = 96)
  | 6 => decide (n % 16 = 0 ∧ 16 ≤ n)
  | 7 => decide (n % 16 = 0 ∧ 16 ≤ n ∧ n ≤ 256)
  | 8 => decide (n = 256)
  | 9 => decide (n % 72 = 0 ∧ 72 ≤ n ∧ n ≤ 73728)
  | _ => false

/-! ### The register write list (R485) -/

/-- Entries of the write list: address and value. -/
def writeList (b : List Byte) : List (Nat × Word) :=
  (List.range (b.length / 8)).map (fun i => (leAt b (8 * i) 4, BitVec.ofNat 32 (leAt b (8 * i + 4) 4)))

/-- Whether the loader refuses an entry: misaligned, outside every block, or a reserved encoding of a field open to path A. -/
def entryBadA (e : Nat × Word) : Bool :=
  decide (e.1 % 4 ≠ 0) ||
    match rowAt e.1 with
    | none => true
    | some r => r.flds.any (fun f => decide (f.paths % 2 = 1) && !(f.isLegal (bitsOf e.2.toNat f.lo f.w)))

/-- The bits of a register that path A writes: fields whose Paths include A. -/
def maskA (a : Nat) : Word :=
  match rowAt a with
  | none => 0
  | some r => r.flds.foldl (fun m f => if f.paths % 2 = 1 ∧ f.acc ≠ .ro then m ||| Fld.mask ⟨a, f.lo, f.w⟩ else m) 0

/-- Whether a write may give a tamper field a value (R376): in FIELD and END it may not clear EN, ERASE or TMP_INT bits nor raise
FILT. -/
def State.tmpLegal (s : State) (f : Fld) (old new : Nat) : Bool :=
  if s.lc = 2 ∨ s.lc = 4 then
    if f.lo = 8 then decide (new ≤ old)
    else if f.addr = R.TMP_INT then decide (old &&& new = old)
    else if f.lo = 1 then true else decide (old ≤ new)
  else true

/-- The fields of the tamper configuration at an address. -/
def tmpFields (a : Nat) : List Fld :=
  ((List.range 8).flatMap (fun i => [R.TMP_CFG_EN i, R.TMP_CFG_POL i, R.TMP_CFG_ERASE i, R.TMP_CFG_FILT i]) ++ [R.TMP_INT_EN]).filter
    (fun f => decide (f.addr = a))

/-- The bits that an entry of the write list writes: those of its path, but for what R26, R29 and R376 bar. -/
def State.judgeA (s : State) (e : Nat × Word) : Judgement :=
  let j : Judgement := { mask := maskA e.1 }
  match idxOf (R.BNK_CTL 0) 4 48 e.1 with
  | some b => s.barBank .a b j.mask e.2 j
  | none => (tmpFields e.1).foldl (fun j f => j.barLock f (!(s.tmpLegal f (s.get f) (f.read e.2)))) j

/-- One entry applied as a path-A write of the whole register (R13, R485): judged and counted once (R26, R29, R376, R533), with what a write
of the register does: the change of a queue's mode (R87), the arming of an output (R289), the start of the waits for a time source (R284,
R292). -/
def State.writeA (s : State) (e : Nat × Word) : State :=
  let j := s.judgeA e
  let m := j.mask
  let s := s.countJudged .a e.1 j
  match idxOf (R.QUE_CTL 0) 32 32 e.1, idxOf (R.TIM_TRGN 0) 16 4 e.1 with
  | some q, _ =>
    let f := R.QUE_CTL_MODE q
    (if f.hit m then s.changeMode q (decide (f.read e.2 = 1)) else s).mergeWord e.1 (m &&& ~~~ f.mask) e.2
  | none, some k => s.armTrigger .a k ((R.TIM_TRGN_NS k).read e.2)
  | none, none =>
    let t := s.mergeWord e.1 m e.2
    if R.CIP_OWN 0 ≤ e.1 ∧ e.1 ≤ R.CIP_OWN 255 then t.syncPage ((e.1 - R.CIP_OWN 0) / 4)
    else if e.1 = R.TIM_CTL ∨ e.1 = R.TIM_PMLO ∨ e.1 = R.TIM_PMHI then
      { t with tim := { t.tim with ppsAt := t.now, ptp := { t.tim.ptp with annAt := t.now } } }
    else t

/-! ### The port map (R486) -/

/-- The script of radio r: its bytes, or nothing. -/
def pmScript (pm : List Byte) (r : Nat) : List Byte :=
  let off := leAt pm (184 + 4 * r) 2
  if off = 0 then [] else (pm.drop off).take (leAt pm (186 + 4 * r) 2)

/-- Whether a script is well formed: it ends at its length exactly or by 00h, and holds no reserved control byte. -/
def scriptOk : Nat → List Byte → Bool
  | 0, _ => false
  | _, [] => true
  | f + 1, c :: t =>
    let n := c.toNat
    if n = 0 then true
    else if n ≤ 0x40 then decide (n ≤ t.length) && scriptOk f (t.drop n)
    else if 0x80 ≤ n then scriptOk f t
    else false

/-- The queue fields that enabled ports name, each with the source code that the port map must give (R486). -/
def State.namedQueues (t : State) : List (Nat × Nat) :=
  ((List.range 4).filter (fun p => decide (t.get (R.PLK_CTL_ROLE p) ≠ 0))).map (fun p => (t.get (R.PLK_CTL_QUEUE p), 1 + p)) ++
  ((List.range 8).filter (fun n => t.on (R.SER_BCTL_EN n))).map (fun n => (t.get (R.SER_BCTL_QUEUE n), 5 + n)) ++
  ((List.range 2).filter (fun b => t.on (R.MBS_CTL_EN b))).map (fun b => (t.get (R.MBS_CTL_QUEUE b), 0xD + b)) ++
  ((List.range 4).filter (fun r => t.on (R.RAD_CTL_EN r))).map (fun r => (t.get (R.RAD_CTL_QUEUE r), 0xF + r)) ++
  ((List.range 32).filter (fun q => (t.get R.SUP_QMAP_QUEUES).testBit q)).map (fun q => (q, 0x13)) ++
  (if t.on (R.CHG_CTL_EN 0) ∨ t.on (R.CHG_CTL_EN 1) then [(t.get R.CHG_CFG_QUEUE, 0x14)] else [])

/-- R486 against the staged values: the index of the first queue field or script at fault. -/
def State.portMapBad (t : State) (pm : List Byte) : Option Nat :=
  let src := fun q => leAt pm q 1
  match (List.range 32).find? (fun q => decide (0x16 < src q)) with
  | some q => some q
  | none =>
    let z := (sliceB pm 35 5).all (fun b => decide (b = 0#8))
    let port := (List.range 3).any (fun i =>
      decide (128 < leAt pm (56 + 48 * i) 1 ∨ 32 < leAt pm (57 + 48 * i) 1 ∨ leAt pm (58 + 48 * i) 2 ≠ 0 ∨
        leAt pm (84 + 48 * i) 4 ≠ 0))
    if z = false ∨ port then some 0
    else match t.namedQueues.find? (fun e => decide (src e.1 ≠ e.2)) with
      | some e => some e.1
      | none => (List.range 4).find? (fun r =>
          let off := leAt pm (184 + 4 * r) 2
          let len := leAt pm (186 + 4 * r) 2
          decide (off ≠ 0) && (decide (pm.length < off + len) || !(scriptOk (len + 1) (pmScript pm r))))

/-! ### The tick plan (R43, R45) -/

/-- The slots of a tick-plan section. -/
def planOf (b : List Byte) : List Slot :=
  (List.range (leAt b 1 1)).map (fun k =>
    { exec := leAt b (4 + 8 * k) 1
      task := leAt b (5 + 8 * k) 1
      pexp := leAt b (6 + 8 * k) 1
      phase := leAt b (8 + 8 * k) 2
      budget := leAt b (10 + 8 * k) 2 })

/-- The smallest budget of a task (R42). -/
def taskMin (t : Nat) : Nat := nth [0, 1500, 500, 2000, 1000, 2000, 1500, 1000, 500, 500, 800, 1000, 300] t 0

/-- Processors and engines (R41). -/
def isCpu (e : Nat) : Bool := decide (1 ≤ e ∧ e ≤ 4)
def isEngine (e : Nat) : Bool := decide (0x10 ≤ e ∧ e ≤ 0x18)

/-- A slot by itself is legal (R43, R45). -/
def slotOk (x : Slot) (rsv : Nat) : Bool :=
  decide (rsv = 0) &&
    ((isCpu x.exec && decide (1 ≤ x.task ∧ x.task ≤ 12 ∧ taskMin x.task ≤ x.budget)) || (isEngine x.exec && decide (x.task = 0))) &&
    decide (x.pexp ≤ 10 ∧ x.phase < 2 ^ x.pexp ∧ 64 ≤ x.budget ∧ x.budget ≤ 28125)

/-- The sum of budgets of an executor at a residue. -/
def budgetSum (plan : List Slot) (e r : Nat) : Nat :=
  (plan.filter (fun x => decide (x.exec = e ∧ r % 2 ^ x.pexp = x.phase))).foldl (fun n x => n + x.budget) 0

/-- The largest budget sum of an executor and the first residue at which it occurs. -/
def worstSum (plan : List Slot) (e : Nat) : Nat × Nat :=
  (List.range 1024).foldl (fun m r => let n := budgetSum plan e r; if m.1 < n then (n, r) else m) (0, 0)

/-- The tasks that a plan must hold, given the staged values (R42).  DESIGN CHOICE (assumption 129): the serial ports that need task 04h are
RS-485, M-Bus and radio; a UART with a role is none. -/
def State.tasksNeeded (t : State) (seeds : Bool) : List Nat :=
  let any := fun n f => (List.range n).any f
  [1, 2, 8, 9, 12] ++
    (if any 4 (fun p => t.on (R.PLC_CTL_EN p)) then [3] else []) ++
    (if any 8 (fun n => t.on (R.SER_BCTL_EN n)) ∨ any 2 (fun b => t.on (R.MBS_CTL_EN b)) ∨ any 4 (fun r => t.on (R.RAD_CTL_EN r)) then [4]
      else []) ++
    (if t.on R.SUP_CTL_UPEN ∨ t.on R.SUP_CTL_SRVEN then [5] else []) ++
    (if t.on R.FTL_CTL_EN then [6] else []) ++
    (if t.get R.BAL_CTL_GEN ≠ 0 then [7] else []) ++
    (if t.on (R.CHG_CTL_EN 0) ∨ t.on (R.CHG_CTL_EN 1) then [10] else []) ++
    (if seeds ∨ t.on R.FTL_CTL_EN ∨ t.get R.DIR_USED_COUNT ≠ 0 then [11] else [])

/-- Checks of R45 before the budget sums: the argument of code 0Ah. -/
def State.planBad (t : State) (b : List Byte) (seeds : Bool) : Option Nat :=
  let plan := planOf b
  if leAt b 0 1 ≠ 1 ∨ leAt b 1 1 = 0 ∨ 48 < leAt b 1 1 ∨ leAt b 2 2 ≠ 0 then some 0xFFFFFFFF
  else match (List.range plan.length).find? (fun k => !(slotOk (nth plan k ⟨0, 0, 0, 0, 0⟩) (leAt b (7 + 8 * k) 1))) with
    | some k => some (0xFFFF0000 + k)
    | none => match (t.tasksNeeded seeds).find? (fun k => !(plan.any (fun x => decide (isCpu x.exec ∧ x.task = k)))) with
      | some k => some (0xFFFE0000 + k)
      | none => none

/-- The executor codes of R41. -/
def execCodes : List Nat := [1, 2, 3, 4, 0x10, 0x11, 0x12, 0x13, 0x14, 0x15, 0x16, 0x17, 0x18]

/-- TICK_PLAN_PROOF (R45, R62): TSQ_PROOFc written for a plan that is then proven or refused.  DESIGN CHOICE (assumption 114): a sum of budgets
above 65,535 shows FFFFh in the 16 bits of WORST. -/
def State.showProof (s : State) (plan : List Slot) : State :=
  execCodes.foldl (fun (t : State) c =>
    let w := worstSum plan c
    t.setAll [(R.TSQ_PROOF_WORST c, min 0xFFFF w.1), (R.TSQ_PROOF_RES c, w.2)]) s

/-- The first executor whose budget sum exceeds 28,125 cycles. -/
def sumBad (plan : List Slot) : Option Nat :=
  (execCodes.find? (fun c => decide (28125 < (worstSum plan c).1))).map (fun c => c * 65536 + (worstSum plan c).2)

/-- The mirrors of a proven plan (R46, R62). -/
def State.showPlan (s : State) (plan : List Slot) : State :=
  (List.range 48).foldl (fun (t : State) n =>
    let x := nth plan n ⟨0, 0, 0, 0, 0⟩
    t.setAll [(R.TSQ_SLOTA_EXEC n, x.exec), (R.TSQ_SLOTA_TASK n, x.task), (R.TSQ_SLOTA_PEXP n, x.pexp),
      (R.TSQ_SLOTB_PHASE n, x.phase), (R.TSQ_SLOTB_BUDGET n, x.budget)]) s

/-! ### Sections -/

/-- The sections of an image, each empty when absent. -/
structure Accord where
  list  : List (Nat × Word)
  plan  : List Byte
  pmap  : List Byte
  cal   : Option (List Byte)
  coef  : Option (List Byte)
  seeds : List (List Byte)
  wins  : List (List Byte)
  tar   : Option (List Byte)
  peers : List (List Byte)
  deriving DecidableEq, Repr

/-- An image's sections. -/
def accordOf (img : List Byte) : Accord :=
  let s := accSection img
  let cut := fun n ty => let b := (s ty).getD []; chunks n (b.length / n) b
  { list := writeList ((s 1).getD []), plan := (s 2).getD [], pmap := (s 3).getD [], cal := s 4, coef := s 5,
    seeds := cut 16 6, wins := cut 16 7, tar := s 8, peers := cut 72 9 }

/-- The metering calibration section applied (R166). -/
def State.applyCal (s : State) (b : List Byte) : State :=
  let t := s.set R.MTR_CALID_CALID (leAt b 4 4)
  let t := (List.range 24).foldl (fun (t : State) c => t.setAll [(R.MTR_OFS_OFS c, leAt b (8 + 12 * c) 3),
    (R.MTR_GAIN_GAIN c, leAt b (12 + 12 * c) 4), (R.MTR_PHC_PHC c, leAt b (16 + 12 * c) 2)]) t
  (List.range 4).foldl (fun (t : State) g =>
    let t := (List.range 16).foldl (fun (t : State) k => t.set (R.MTR_XT_XT g (k / 4) (k % 4)) (leAt b (296 + 72 * g + 4 * k) 4)) t
    t.setAll [(R.MTR_TPA_T0 g, leAt b (360 + 72 * g) 2), (R.MTR_TPA_A1 g, leAt b (362 + 72 * g) 2),
      (R.MTR_TPB_A2 g, leAt b (364 + 72 * g) 2), (R.MTR_GCFG_TSRC g, leAt b (366 + 72 * g) 1)]) t

/-- The calibration registers as a section (R166): for an image that has none of its own. -/
def State.calSection (s : State) : List Byte :=
  [1#8, 0#8, 0#8, 0#8] ++ leBytes 4 (s.get R.MTR_CALID_CALID) ++
  (List.range 24).flatMap (fun c => leBytes 4 (s.get (R.MTR_OFS_OFS c)) ++ leBytes 4 (s.get (R.MTR_GAIN_GAIN c)) ++
    leBytes 2 (s.get (R.MTR_PHC_PHC c)) ++ [0#8, 0#8]) ++
  (List.range 4).flatMap (fun g =>
    (List.range 16).flatMap (fun k => leBytes 4 (s.get (R.MTR_XT_XT g (k / 4) (k % 4)))) ++
    leBytes 2 (s.get (R.MTR_TPA_T0 g)) ++ leBytes 2 (s.get (R.MTR_TPA_A1 g)) ++ leBytes 2 (s.get (R.MTR_TPB_A2 g)) ++
    [BitVec.ofNat 8 (s.get (R.MTR_GCFG_TSRC g)), 0#8])

/-- Balance coefficients (R484): KCU and KFIX of each group and phase. -/
def State.applyCoef (s : State) (b : List Byte) : State :=
  (List.range 4).foldl (fun (t : State) g => (List.range 3).foldl (fun (t : State) p =>
    t.setAll [(R.BAL_KCU_KCU g p, leAt b (24 * g + 8 * p) 4), (R.BAL_KFIX_KFIX g p, leAt b (24 * g + 8 * p + 4) 4)]) t) s

/-- Replay windows (R484): descriptor k. -/
def State.applyWins (s : State) (l : List (List Byte)) : State :=
  (List.range l.length).foldl (fun (t : State) k =>
    let b := nth l k []
    (((t.setWord (R.VAL_WINA k) (BitVec.ofNat 32 (leAt b 0 4))).setWord (R.VAL_WINB k) (BitVec.ofNat 32 (leAt b 4 4))).setWord
      (R.VAL_WINC k) (BitVec.ofNat 32 (leAt b 8 4))).setWord (R.VAL_WIND k) (BitVec.ofNat 32 (leAt b 12 4))) s

/-- Registers that the write list does not change at a restart: CHG_CTLo and CHG_MTR (R489), the window descriptors (R122). -/
def keptByRestart (a : Nat) : Bool :=
  decide (a = R.CHG_CTL 0 ∨ a = R.CHG_CTL 1 ∨ a = R.CHG_MTR ∨ (R.VAL_WINA 0 ≤ a ∧ a ≤ R.VAL_WIND 15))

/-- The staged copy of the register values: the write list, then the sections in the order of R484. -/
def State.stage (base : State) (a : Accord) (restart : Bool) : State :=
  let t := (if restart then a.list.filter (fun e => !(keptByRestart e.1)) else a.list).foldl State.writeA base
  let t := match a.cal with
    | some b => t.applyCal b
    | none => t
  let t := match a.coef with
    | some b => t.applyCoef b
    | none => t
  if restart then t else t.applyWins a.wins

/-- The windows of an image, as staged on a state (R106, R129): they are verified at a restart too, and not applied (R122, R488). -/
def State.stageWins (t : State) (a : Accord) : State :=
  ((a.list.filter (fun e => decide (R.VAL_WINA 0 ≤ e.1 ∧ e.1 ≤ R.VAL_WIND 15))).foldl State.writeA
    { t with regs := SMap.keep (fun k => !(decide (R.VAL_WINA 0 ≤ k ∧ k ≤ R.VAL_WIND 15))) t.regs }).applyWins a.wins

/-! ### The rules by which the loader refuses (step 4 of R487) -/

/-- Where a staged value comes from, for CFG_ERRARG: a register by address, or an entry of a section. -/
inductive Src where
  | reg (a : Nat) | sec (ty i : Nat)
  deriving DecidableEq, Repr

/-- Overlap of two ranges. -/
def meets (a n b m : Nat) : Bool := decide (a < b + m ∧ b < a + n)

/-- Pairs i < j below n. -/
def pairsBelow (n : Nat) : List (Nat × Nat) := (List.range n).flatMap (fun j => (List.range j).map (fun i => (i, j)))

/-- The first index that satisfies `p`, as the sources `f` gives. -/
def firstBad {α : Type} (l : List α) (p : α → Bool) (f : α → List Src) : Option (List Src) := (l.find? p).map f

/-- A queue enabled under R554. -/
def State.queueOn (t : State) (pm : List Byte) (n : Nat) : Bool := decide (leAt pm n 1 ≠ 0) || t.on (R.QUE_CTL_EN n)

/-- The capacity of a queue in the mode that R554 gives it. -/
def State.capThen (t : State) (pm : List Byte) (n : Nat) : Nat :=
  if leAt pm n 1 = 0x15 ∨ leAt pm n 1 = 0x16 then 1024 else 32 + 256 * t.get (R.QUE_CFG_SPCNT n)

/-- R77 and R89. -/
def State.ruleQueues (t : State) (pm : List Byte) : List (Option (List Src)) :=
  let base := fun n => t.get (R.QUE_CFG_SPBASE n)
  let cnt := fun n => t.get (R.QUE_CFG_SPCNT n)
  [firstBad (pairsBelow 32) (fun e => decide (cnt e.1 ≠ 0 ∧ cnt e.2 ≠ 0) && meets (base e.1) (cnt e.1) (base e.2) (cnt e.2)) (fun e => [.reg (R.QUE_CFG e.1), .reg (R.QUE_CFG e.2)]),
    firstBad (List.range 32) (fun n => decide (256 < base n + cnt n ∨ base n % 4 ≠ 0)) (fun n => [.reg (R.QUE_CFG n)]),
    firstBad (List.range 32) (fun n => t.queueOn pm n && decide (cnt n < 4))
      (fun n => [.reg (R.QUE_CFG n), .reg (R.QUE_CTL n), .sec 3 n]),
    firstBad (List.range 32) (fun n => t.queueOn pm n &&
        decide (t.get (R.QUE_WMH_HIGH n) ≤ t.get (R.QUE_WML_LOW n) ∨ t.capThen pm n < t.get (R.QUE_WMH_HIGH n)))
      (fun n => [.reg (R.QUE_WMH n), .reg (R.QUE_WML n), .reg (R.QUE_CFG n), .reg (R.QUE_CTL n), .sec 3 n])]

/-- A window descriptor by itself breaks R106. -/
def State.winBad (t : State) (k : Nat) : Bool :=
  let c := t.get (R.VAL_WINC_COUNT k)
  decide (c ≠ 0 ∧ (2 ^ 20 < t.get (R.VAL_WINB_FIRST k) + c ∨ 2 ^ 20 < t.get (R.VAL_WIND_BASE k) + c))

/-- Two window descriptors with COUNT not 0 overlap in meters or in slots (R106). -/
def State.winMeet (t : State) (i j : Nat) : Bool :=
  let c := fun k => t.get (R.VAL_WINC_COUNT k)
  decide (c i ≠ 0 ∧ c j ≠ 0) &&
    ((decide (t.get (R.VAL_WINA_DOMAIN i) = t.get (R.VAL_WINA_DOMAIN j)) &&
        meets (t.get (R.VAL_WINB_FIRST i)) (c i) (t.get (R.VAL_WINB_FIRST j)) (c j)) ||
      meets (t.get (R.VAL_WIND_BASE i)) (c i) (t.get (R.VAL_WIND_BASE j)) (c j))

/-- Whether the descriptors break R106. -/
def State.windowsBad (t : State) : Bool :=
  (List.range 16).any (fun k => t.winBad k) || (pairsBelow 16).any (fun e => t.winMeet e.1 e.2)

/-- R106. -/
def State.ruleWindows (t : State) (n : Nat) : List (Option (List Src)) :=
  let src := fun k => if k < n then [Src.sec 7 k] else [.reg (R.VAL_WINA k), .reg (R.VAL_WINB k), .reg (R.VAL_WINC k), .reg (R.VAL_WIND k)]
  [firstBad (List.range 16) (fun k => t.winBad k) src, firstBad (pairsBelow 16) (fun e => t.winMeet e.1 e.2) (fun e => src e.1 ++ src e.2)]

/-- R156 and R158. -/
def State.ruleGroups (t : State) : List (Option (List Src)) :=
  let gen := fun g => t.groupOn g
  let bal := fun g => t.balanced g
  let vref := fun g p => t.vref g p
  [firstBad groups (fun g => bal g && (List.range 3).all (fun p => decide (t.get (R.BAL_KCU_KCU g p) = 0 ∧ t.get (R.BAL_KFIX_KFIX g p) = 0)))
      (fun g => [.reg R.BAL_CTL, .reg (R.BAL_KCU g 0), .reg (R.BAL_KFIX g 0), .sec 5 g]),
    firstBad [0, 1] (fun o => t.on (R.BAL_OUT_EN o) && !(bal (t.get (R.BAL_OUT_GROUP o)))) (fun o => [.reg (R.BAL_OUT o), .reg R.BAL_CTL]),
    firstBad groups (fun g => gen g && (List.range 3).any (fun p => decide (vref g p = 7) || !((t.get R.MTR_CTL_VEN).testBit (vref g p))))
      (fun g => [.reg R.MTR_CTL, .reg (R.MTR_GCFG g)]),
    firstBad groups (fun g => gen g && decide (vref g 0 = vref g 1 ∨ vref g 0 = vref g 2 ∨ vref g 1 = vref g 2))
      (fun g => [.reg R.MTR_CTL, .reg (R.MTR_GCFG g)]),
    firstBad groups (fun g => bal g && !(gen g)) (fun _ => [.reg R.MTR_CTL, .reg R.BAL_CTL])]

/-- R167. -/
def State.ruleCal (t : State) (cal : Option (List Byte)) : List (Option (List Src)) :=
  match cal with
  | none => []
  | some b =>
    let used := fun c => if c < 16 then t.groupOn (c / 4) else (t.get R.MTR_CTL_VEN).testBit (c - 16)
    [if leAt b 0 1 ≠ 1 ∨ leAt b 1 3 ≠ 0 then some [.sec 4 0] else none,
      firstBad (List.range 24) (fun c => decide (leAt b (11 + 12 * c) 1 ≠ 0 ∨ leAt b (18 + 12 * c) 2 ≠ 0 ∨ 1024 ≤ leAt b (16 + 12 * c) 2))
        (fun c => [.sec 4 c]),
      firstBad groups (fun g => decide (2 ≤ leAt b (366 + 72 * g) 1 ∨ leAt b (367 + 72 * g) 1 ≠ 0)) (fun g => [.sec 4 g]),
      firstBad (List.range 24) (fun c => used c && decide (leAt b (12 + 12 * c) 4 = 0)) (fun c => [.sec 4 c]),
      firstBad (List.range 24) (fun c => decide (sgn 10 (leAt b (16 + 12 * c) 2 % 1024) < -256 ∨ 255 < sgn 10 (leAt b (16 + 12 * c) 2 % 1024)))
        (fun c => [.sec 4 c]),
      firstBad groups (fun g => t.groupOn g && (List.range 4).any (fun r => decide (leAt b (296 + 72 * g + 20 * r) 4 = 0)))
        (fun g => [.sec 4 g])]

/-- R168, R189 (pulse outputs) and R190. -/
def State.ruleMeter (t : State) (plan : List Slot) : List (Option (List Src)) :=
  [firstBad groups (fun g => t.groupOn g && !(plan.any (fun x => decide (x.exec = 0x10 ∧ x.pexp ≤ 3 ∧ 2000 ≤ x.budget))))
      (fun _ => [.reg R.MTR_CTL, .sec 2 0]),
    firstBad (List.range 4) (fun k => t.on (R.NRG_PCFG_EN k) && !(t.groupOn (t.get (R.NRG_PCFG_GROUP k))))
      (fun k => [.reg (R.NRG_PCFG k), .reg R.MTR_CTL]),
    if t.on R.SIL_CTL_EN ∧ t.groupOn 0 = false then some [.reg R.SIL_CTL, .reg R.MTR_CTL] else none]

/-- R226 and R254. -/
def State.rulePlc (t : State) : List (Option (List Src)) :=
  let en := fun p => t.on (R.PLC_CTL_EN p)
  let role := fun p => t.get (R.PLK_CTL_ROLE p)
  [firstBad (List.range 4) (fun p => en p && !((t.get R.MTR_CTL_VEN).testBit (t.zsrc p))) (fun p => [.reg (R.PLC_CTL p), .reg R.MTR_CTL]),
    firstBad (pairsBelow 4) (fun e => en e.1 && en e.2 && decide (t.zsrc e.1 = t.zsrc e.2))
      (fun e => [.reg (R.PLC_CTL e.1), .reg (R.PLC_CTL e.2)]),
    firstBad [0, 1, 2] (fun p => decide (role p = 2)) (fun p => [.reg (R.PLK_CTL p)]),
    firstBad (List.range 4) (fun p => decide (role p ≠ 0) && !(en p)) (fun p => [.reg (R.PLK_CTL p), .reg (R.PLC_CTL p)]),
    firstBad (pairsBelow 4) (fun e => decide (role e.1 = 1 ∧ role e.2 = 1 ∧ t.get (R.PLK_CTL_NET e.1) = t.get (R.PLK_CTL_NET e.2)))
      (fun e => [.reg (R.PLK_CTL e.1), .reg (R.PLK_CTL e.2)]),
    firstBad (List.range 4) (fun p => decide (t.get (R.PLK_MOD_MAXMOD p) < t.get (R.PLK_MOD_MINMOD p))) (fun p => [.reg (R.PLK_MOD p)])]

/-- R269, R298 and R333. -/
def State.ruleLinks (t : State) (pm : List Byte) : List (Option (List Src)) :=
  let port := t.get R.TIM_CTL_PORT
  let ptp := decide (t.get R.TIM_CTL_SRC = 1) || t.on R.TIM_CTL_PTPM
  let fb := t.get R.SUP_CTL_FBANK
  [firstBad (List.range 4) (fun r => t.on (R.RAD_CTL_EN r) && decide (pmScript pm r = [])) (fun r => [.reg (R.RAD_CTL r), .sec 3 r]),
    if t.get R.TIM_CTL_SRC = 1 ∧ t.on R.TIM_CTL_PTPM then some [.reg R.TIM_CTL] else none,
    if ptp ∧ t.on (R.ETH_CTL_EN port) = false then some [.reg R.TIM_CTL, .reg (R.ETH_CTL port)] else none,
    firstBad (List.range 4) (fun k => decide (t.get (R.TIM_TRGP_PER k) % 8 ≠ 0) ||
        (decide (t.get (R.TIM_TRGCTL_MODE k) = 2) && decide (t.get (R.TIM_TRGP_PER k) ≤ 8 * t.get (R.TIM_TRGCTL_WIDTH k))))
      (fun k => [.reg (R.TIM_TRGP k), .reg (R.TIM_TRGCTL k)]),
    if t.on (R.ETH_CTL_EN 2) ∧ leAt pm 34 1 = 0 then some [.reg (R.ETH_CTL 2), .sec 3 2] else none,
    if t.on R.SUP_CTL_SRVEN ∧ t.get R.SUP_QMAP_QUEUES = 0 then some [.reg R.SUP_CTL, .reg R.SUP_QMAP] else none,
    firstBad (List.range 32) (fun q => decide (t.qDisp q ≠ 0) && decide (t.on R.SUP_CTL_UPEN = false ∨ fb = 0))
      (fun q => [.reg (R.VAL_QDISP0 + 4 * (q / 16)), .reg R.SUP_CTL]),
    if fb ≠ 0 ∧ t.owner (44 + fb) ≠ 0xC then some [.reg R.SUP_CTL, .reg (R.BNK_CTL (44 + fb))] else none,
    if t.get R.SUP_CTL_IF = 3 ∧ (List.range 4).all (fun u => decide (t.get (R.SER_UCTL_ROLE u) ≠ 1)) then some [.reg R.SUP_CTL] else none]

/-- R337, R412 and R443. -/
def State.ruleOthers (t : State) (tar : Option (List Byte)) : List (Option (List Src)) :=
  let pages := fun o => ((List.range 256).filter (fun p => decide (t.get (R.CIP_OWN_OWNER p) = o))).length
  let need := 2 * t.get R.SUP_CTL_UPEN + 2 * (t.get R.SUP_SCFG_MAXSESS + 16) * t.get R.SUP_CTL_SRVEN
  let gen := fun g => t.groupOn g
  let bad := fun o =>
    let m := t.get (R.CHG_CTL_MGRP o)
    let c := t.get (R.CHG_CTL_CABLE o)
    t.on (R.CHG_CTL_EN o) &&
      (decide (t.get R.CHG_MTR_METER = 0 ∨ t.get R.CHG_LM_IRATED = 0 ∨ m = 0) || !(gen 0) || !(gen m) ||
        (t.on (R.CHG_CTL_TETHER o) && decide (c = 0 ∨ 4 < c)) ||
        decide (t.get (R.CHG_CTL_RDR o) < 4 ∧ t.get (R.SER_UCTL_ROLE (t.get (R.CHG_CTL_RDR o))) ≠ 2) || tar.isNone)
  [if pages 0xC < need then some [.reg R.SUP_CTL, .reg R.SUP_SCFG] else none,
    firstBad [0, 1] bad (fun o => [.reg (R.CHG_CTL o), .reg R.CHG_MTR, .reg R.CHG_LM, .reg R.MTR_CTL]),
    if t.on R.FTL_CTL_EN ∧ ([40, 41, 42, 43].any (fun b => decide (t.owner b ≠ 8)) ∨ pages 8 = 0) then some [.reg R.FTL_CTL] else none]

/-- The first rule that refuses: the sources of its values; `w` holds the windows of the image. -/
def State.ruleBad (t w : State) (a : Accord) : Option (List Src) :=
  (t.ruleQueues a.pmap ++ w.ruleWindows a.wins.length ++ t.ruleGroups ++ t.ruleCal a.cal ++
    t.ruleMeter (planOf a.plan) ++ t.rulePlc ++ t.ruleLinks a.pmap ++ t.ruleOthers a.tar).findSome? id

/-- The argument of code 09h (R493): the value that R487 applies last; 0 when no entry or section holds one. -/
def srcArg (list : List (Nat × Word)) (l : List Src) : Nat :=
  l.foldl (fun m x =>
    let n := match x with
      | .sec ty i => ty * 65536 + i
      | .reg a => (((List.range list.length).filter (fun i => decide ((nth list i (0, 0#32)).1 = a))).getLast?.map (fun i => 65536 + i)).getD 0
    max m n) 0

/-! ### Seeds (R129, R488) -/

/-- A seed placed under R105 against the windows as staged; `none` when it would complete with a result other than DONE.  No pair
is entered. -/
def State.placeSeed (t : State) (b : List Byte) : Option State :=
  let meter := leAt b 0 4
  let a1 := leAt b 4 4
  let a2 := leAt b 8 4
  let asg := bitsOf a2 0 8
  let st := bitsOf a2 8 8
  if meter = 0 ∨ portLegal (bitsOf a1 24 8) = false ∨ 64 ≤ asg ∨ 2 < st ∨ bitsOf a1 20 4 ≠ 0 ∨ t.slotInWindow (a1 % 2 ^ 20) then none
  else if t.candBad meter ∨ (t.dirFind meter).isSome then none
  else
    let bs := sliceB (leBytes 4 meter ++ leBytes 4 a1 ++ [BitVec.ofNat 8 asg, BitVec.ofNat 8 st] ++ leBytes 2 (bitsOf a2 16 16) ++
      leBytes 4 (leAt b 12 4)) 0 128
    let p := t.place meter bs
    if p.bad || p.full then none else some (((t.doPlace p).usedBump true).asgEntry meter st asg true)

/-- Seeds placed in image order; the index of the first that fails. -/
def State.placeSeeds : List (List Byte) → Nat → State → Except Nat State
  | [], _, t => .ok t
  | b :: l, i, t => match t.placeSeed b with
    | none => .error i
    | some u => State.placeSeeds l (i + 1) u

/-- The state on which the seeds of an image are verified at a restart (R488): its windows, and a directory that holds no entry, as a die
reset would leave it.  DEDUCED (assumption 125). -/
def State.seedTrial (w : State) : State :=
  { w with
    mem := SMap.keep (fun k => !(decide (8 ≤ bankOf k ∧ bankOf k ≤ 23))) w.mem
    bnk := { w.bnk with damage := SMap.keep (fun l => !(decide (8 ≤ l / 16384 ∧ l / 16384 ≤ 23))) w.bnk.damage } }

/-! ### Verification (R487) -/

/-- An image refused: code and argument of R493; TSQ_PROOFc to be shown when the budget sums refused it. -/
structure Refusal487 where
  code : Nat
  arg  : Nat := 0
  plan : List Slot := []
  deriving DecidableEq, Repr

/-- Checks 1 of R487: header (R465) and the SHA-256 of the body, on an image in a slot. -/
def State.imageOk (s : State) (kind : Nat) (img : List Byte) (head hash : Nat) : Option Nat :=
  let h := img.take 256
  if s.headerChecks h (leAt h 8 4) img.length ≠ 1 ∨ leAt h 5 1 ≠ kind then some head
  else if imageHashOk img = false then some hash
  else none

/-- The signature check of an image in a slot, or in a flacon, counted (R380). -/
def State.countImage (s : State) (img : List Byte) : State :=
  let h := img.take 256
  s.countHeader (s.headerChecks h (leAt h 8 4) img.length)

/-- Checks 2 to 6 of R487 on the staged values `base`: the staged state with seeds placed, or the refusal. -/
def State.verifyBody (base : State) (img : List Byte) (restart : Bool) : Except Refusal487 (Accord × State) :=
  let b := img.drop 256
  match accContainer b with
  | some arg => .error { code := 6, arg := arg }
  | none =>
    match (accDir b).find? (fun e => !(sectionOk b e)) with
    | some e => .error { code := 7, arg := e.1 * 65536 }
    | none =>
      let a := accordOf img
      match a.list.findIdx? entryBadA with
      | some i => .error { code := 8, arg := 65536 + i }
      | none =>
        let t := base.stage a restart
        match t.portMapBad a.pmap with
        | some i => .error { code := 8, arg := 3 * 65536 + i }
        | none =>
          let w := t.stageWins a
          match t.ruleBad w a with
          | some l => .error { code := 9, arg := srcArg a.list l }
          | none =>
            match (if restart then (State.placeSeeds a.seeds 0 w.seedTrial).map (fun _ => t) else State.placeSeeds a.seeds 0 t) with
            | .error i => .error { code := 0xC, arg := 6 * 65536 + i }
            | .ok u =>
              match u.planBad a.plan (!a.seeds.isEmpty) with
              | some arg => .error { code := 0xA, arg := arg }
              | none => match sumBad (planOf a.plan) with
                | some arg => .error { code := 0xA, arg := arg, plan := planOf a.plan }
                | none => .ok (a, u)

/-! ### Application (R487, R489) -/

/-- Tariffs, peers, scripts and the port map in force (R262, R309, R404, R486). -/
def State.applySections (s : State) (a : Accord) : State :=
  let tars := (List.range 16).foldl (fun (m : SMap TariffT) k =>
    let b := a.tar.getD []
    SMap.put tariff0 m k ⟨leAt b (16 * k) 4, leAt b (16 * k + 4) 4, leAt b (16 * k + 8) 4, leAt b (16 * k + 12) 4⟩) []
  { s with
    boot := { s.boot with pmap := a.pmap },
    scripts := (List.range 4).foldl (fun (m : SMap (List Byte)) r =>
      if pmScript a.pmap r = [] then m else SMap.ins m r (pmScript a.pmap r)) [],
    chg := { s.chg with tariffs := tars },
    sup := { s.sup with peers := a.peers.map (fun b => (b.take 8, b.drop 8)) } }

/-- The registers that show the images in force (R497). -/
def State.showImages (s : State) : State :=
  s.setAll [(R.CFG_AID_ID, leAt (s.activeImage 2) 8 4), (R.CFG_AVER_VER, leAt (s.activeImage 2) 16 4),
    (R.CFG_FID_ID, leAt (s.activeImage 1) 8 4)]

/-- A fixative written to the slot that does not hold the newest one (R481). -/
def State.writeFixative (s : State) : State :=
  let f := s.nor.fixative
  let seq := ((f.map (fun x => leAt x.1 4 4)).getD 0 + 1) % 2 ^ 32
  let cal := (accSection (s.activeImage 2) 4).getD s.calSection
  let h := label4 0x46 0x49 0x58 0x31 ++ leBytes 4 seq ++ leBytes 4 (s.get R.CFG_AID_ID) ++ leBytes 4 (s.get R.CFG_AVER_VER) ++
    sliceB cal 0 584 ++ fixRegs.flatMap (fun a => leBytes 4 (s.word a).toNat) ++ List.replicate 376 0#8
  let b := h ++ leBytes 4 (crc32 h)
  let nor := match f with
    | some (_, false) => { s.nor with fix1 := b }
    | _ => { s.nor with fix0 := b }
  ({ s with nor := nor }).set R.CFG_FIXSEQ_SEQ seq

/-- FIXATIVE_WRITE (R481): an Accord image in force, TRIAL clear, and the fixative of another image. -/
def execFixativeWrite (s : State) : Out :=
  .next (s.run (fun s =>
    let f := s.nor.fixative
    let same := match f with
      | some x => decide (leAt x.1 8 4 = s.get R.CFG_AID_ID ∧ leAt x.1 12 4 = s.get R.CFG_AVER_VER)
      | none => false
    if s.locked = true ∧ s.nor.record.trial = false ∧ same = false then
      s.writeFixative
    else s))

end Sys2Proof.Machine
end

