-- ==== Sys2Proof/Machine/Startup.lean ====
section
/-!
DEFINITION. Reset release and the start order (R277, R278, R477-R494), the restart (R468-R473, R553) and the recovery restart
(R496).
-/
namespace Sys2Proof.Machine

/-! ### Parts of a start -/

/-- The boot plan (R479). -/
def bootPlan : List Slot :=
  [⟨0x10, 0, 0, 0, 6000⟩, ⟨0x11, 0, 0, 0, 2000⟩, ⟨0x12, 0, 0, 0, 2000⟩, ⟨1, 1, 0, 0, 1500⟩, ⟨1, 2, 0, 0, 500⟩,
    ⟨1, 8, 0, 0, 500⟩, ⟨1, 12, 0, 0, 300⟩]

/-- The offset of a device time from the nearest multiple of 125 µs, in ns (R40). -/
def gridOfs (t : Nat) : Int :=
  let r := t / nsUnits % 125000
  if r < 62500 then r else (r : Int) - 125000

/-- TSQ_STEPOFS takes the offset of tick starts, and realignment starts (R40). -/
def State.stepOfs (s : State) (o : Int) : State :=
  let al := s.on R.TSQ_CTL_REALIGN && decide (4 ≤ o.natAbs)
  s.setAll [(R.TSQ_STEPOFS_OFS, unsgn 32 o), (R.TSQ_STAT_ALIGNING, b2n al)]

/-- The load of device time from the RTC at reset release, and its anchor (R277, R294). -/
def State.loadTime (s : State) : State :=
  let t0 := if s.on R.RTC_STAT_VALID then s.rtcNow * 1000000000 / 32768 * nsUnits else 0
  (({ s with tim := { s.tim with start := t0 } }).stepOfs (gridOfs t0)).syncTime

/-- What the island does at reset release (R179, R498, R502, R509). -/
def State.releaseIsland (s : State) (x : Release) : State :=
  let t := (s.rtcRun x.rtc).opsRun x.ops
  let t := if t.isl.battery then
      t.setAll [(R.ISL_OUTAGE_SEC, min x.outage 0xFFFFFFFF), (R.BAT_TIME_SEC, satAdd 32 (t.get R.BAT_TIME_SEC) x.outage), (R.BAT_STAT_SRC, 0),
        (R.SIL_STAT_ACTIVE, 0)]
    else t
  let t := if t.isl.supply then t.wrap R.ISL_PCYC_PCYC else t.set R.NRG_UNMET_MS (min x.unmet 0xFFFFFFFF)
  let t := if t.isl.partLost then t.set R.NRG_STAT_PARTLOST 1 else t
  { t.set R.ISL_STAT_PFW 0 with
    occ := [],
    isl := { t.isl with
      battery := false, warned := false, partLost := false, supply := false, por := false, wdAt := 0, wd4B := false, warnAt := 0,
      part := [], dry := {}, rtcDue := none, stopped := false } }

/-- Events held in the island are raised (R470). -/
def State.releaseHeld (s : State) : State :=
  ({ s with raised := s.raised ++ s.isl.evHeld, isl := { s.isl with evHeld := [] } }).set R.ISL_EVHELD_COUNT 0

/-- The records of a start (R329, R448, R456, R492): START first, BUFFER_LOST, the emptied downlink store, the held events. -/
def State.startRecords (s : State) (kind cause pcyc : Nat) : State :=
  let t := (s.evMake 0x1100 0 [(0, 1, kind), (1, 1, cause), (2, 1, s.lc)]).evBufferLost pcyc
  (t.releaseHeld).raise 0x0A05 10 1 [(0, 1, if kind = 2 then 2 else 1)]

/-- The reversion of R472: the slots that the changed bits mark return, TRIAL clears. -/
def State.revertRecord (s : State) : State :=
  let r := s.nor.record
  let f := if r.flags.testBit 1 then 1 - r.fslot else r.fslot
  let c := if r.flags.testBit 2 then 1 - r.cslot else r.cslot
  ((s.putRecord { r with
      fslot := f, cslot := c, flags := 0,
      fver := leAt (s.nor.slot 1 f) 16 4, cver := leAt (s.nor.slot 2 c) 16 4 }).bump R.UPD_CNT_REVERT).set R.UPD_STAT_LASTRES 4

/-- The active-slot record at a start (R471, R472). -/
def State.startRecord (s : State) (cause : Nat) : State :=
  if s.nor.record.trial ∧ cause = 2 then s.revertRecord else s.showRecord

/-- The trial timer starts when the record has TRIAL set (R511). -/
def State.startTrial (s : State) : State :=
  let on := s.nor.record.trial
  s.setAll [(R.ISL_TRIAL_LEFT, if on then s.get R.UPD_CTL_TRIALS else 0), (R.ISL_TRIAL_RUN, b2n on)]

/-- FIXATIVE_LOAD (R482): the fixative in force written as path A, and the converters started. -/
def State.loadFixative (s : State) : State :=
  let t := { s with mtr := { s.mtr with started := true } }
  match s.nor.fixative with
  | none => t
  | some (b, _) =>
    let t := (List.range fixRegs.length).foldl (fun (t : State) j =>
      t.writeA (nth fixRegs j 0, BitVec.ofNat 32 (leAt b (600 + 4 * j) 4))) t
    (t.applyCal (sliceB b 16 584)).setAll [(R.CFG_STAT_FIX, 1), (R.CFG_FIXSEQ_SEQ, leAt b 4 4)]

/-- The firmware body copied into BANK00 to BANK07 (R468, R490). -/
def State.copyFirmware (s : State) (img : List Byte) : State := s.mstore 0 (img.drop 256)

/-- Queues at step 9 of R490: each enabled queue whose source is neither 15h nor 16h is set to NORMAL and enabled (R554). -/
def State.startQueue (pm : List Byte) (s : State) (n : Nat) : State :=
  if leAt pm n 1 ≠ 0x15 ∧ leAt pm n 1 ≠ 0x16 ∧ s.queueOn pm n then
    (s.setAll [(R.QUE_CTL_MODE n, 0), (R.QUE_STAT_MODE n, 0), (R.QUE_CTL_EN n, 1)]).qSync n
  else s

/-- A verified image put in force (R46, R62, R487, R489) on its staged values. -/
def State.putAccord (u : State) (a : Accord) : State :=
  let plan := planOf a.plan
  let t := ((u.applySections a).showProof plan).showPlan plan
  let t := (List.range 32).foldl (State.startQueue a.pmap) { t with tsq := { t.tsq with newPlan := some plan, proven := t.now }, locked := true }
  (List.range 4).foldl (fun (t : State) c => t.setAll [(R.PROC_STAT_RUN c, 1), (R.PROC_STAT_HELD c, 0)]) t

/-- Banks that are ON show READY after their zero-fill (R29). -/
def State.readyBanks (s : State) : State :=
  (List.range 48).foldl (fun (t : State) b => t.set (R.BNK_STAT_READY b) (b2n (decide (t.get (R.BNK_CTL_PWR b) = 0)))) s

/-! ### RESET_RELEASE -/

/-- SAFE entered at a step (R278, R493, R494). -/
def State.enterSafe (s : State) (step code arg : Nat) : State :=
  let t := s.setAll [(R.CFG_STAT_STEP, step - 1), (R.CFG_STAT_SAFE, 1), (R.CFG_ERR_STEP, step), (R.CFG_ERR_CODE, code),
    (R.CFG_ERRARG_ARG, arg), (R.PROC_STAT_HELD 0, 0)]
  if t.on R.RTC_STAT_VALID then t.timeValid else t

/-- The ticks at which steps up to `k` ended (R490). -/
def State.markSteps (s : State) (x : Release) (k : Nat) : State :=
  (List.range (k - 2)).foldl (fun (t : State) i => t.set (R.CFG_MARK_TICK (3 + i)) (nth x.steps i 0 % 2 ^ 32)) s

/-- Steps 3 to 9 once the Accord image has been verified (R490): the values committed, the root selected, the heart-note table
filling, the outlets started, the queues enabled, the XOFF hold ended; the boot ROM last restarted the watchdog at the end of step 5
(R510). -/
def State.startAccord (s : State) (x : Release) (cause : Nat) (a : Accord) (u : State) : State :=
  let t := (u.putAccord a).readyBanks
  let t := if t.get R.TIM_CTL_SRC = 0 ∧ t.on R.RTC_STAT_VALID = true then t.timeValid else t
  let t := (t.makeIdentity.startFill).chgStart (if cause = 0 then 10 else 13)
  let t := if s.get R.CFG_STAT_FIX = 1 then t.set R.CFG_STAT_FIX 2 else t
  let t := ((t.setAll [(R.QUE_XSTAT_HOLD, 0), (R.CFG_STAT_STEP, 9)]).showImages.markSteps x 9).startTrial
  { t with isl := { t.isl with wdAt := nth x.steps 2 0 } }

/-- The reads of the NOR that a start makes in step 3 before its images (R490, R550): the SFDP table, the copies of the active-slot record and
of the fixative. -/
def State.readNor (s : State) (t : Option Sfdp) : State :=
  [0x10000, 0x11000, 0x8000, 0x8400].foldl State.norRead (s.norStart t)

/-- The reads of the firmware and the Accord image from their slots (R468, R490). -/
def State.readSlots (s : State) (f c : Nat) : State := (s.norRead (slotBase 1 f)).norRead (slotBase 2 c)

/-- Steps 3 and 4: firmware and Accord images verified (R487, R490, R493).  The floor refuses an Accord image below it: a confirmed
image stands at it (R472). -/
def State.startImages (s : State) (x : Release) (cause : Nat) : State :=
  let fw := s.activeImage 1
  let ac := s.activeImage 2
  let s := (s.readSlots (s.nor.record.slotOf 1) (s.nor.record.slotOf 2)).countImage fw
  match s.imageOk 1 fw 2 3 with
  | some code => s.enterSafe 3 code 0
  | none =>
    let t := (s.copyFirmware fw).markSteps x 3
    if leAt ac 16 4 < t.nor.record.cfl then t.enterSafe 4 4 0
    else
      let t := t.countImage ac
      match t.imageOk 2 ac 4 5 with
      | some code => t.enterSafe 4 code 0
      | none => match State.verifyBody t ac false with
        | .error r => ((if r.plan = [] then t else t.showProof r.plan).enterSafe 4 r.code r.arg)
        | .ok (a, u) => t.startAccord x cause a u

/-- The active-slot record once every staged image has passed (R468 step 5, R472): the new slots with TRIAL. -/
def State.takeSlots (t : State) (kinds : List Nat) : State :=
  let r := t.nor.record
  let f := kinds.contains 1
  let c := kinds.contains 2
  let r' := { r with
    fslot := if f then 1 - r.fslot else r.fslot, cslot := if c then 1 - r.cslot else r.cslot,
    flags := 1 + 2 * b2n f + 4 * b2n c,
    fver := if f then leAt (t.flacon 1) 16 4 else r.fver, cver := if c then leAt (t.flacon 2) 16 4 else r.cver }
  (((t.putRecord r').wrap R.UPD_CNT_ACTIV).set R.UPD_STAT_LASTRES 1).showImages.startTrial

/-- A restart that a power-fail warning cut off resumes at the start after the recovery of the supplies (R437, assumption 139): its staged
images, verified as in steps 3 and 4 of R468, are taken; else the active ones start. -/
def State.resumeRestart (s : State) : State :=
  let kinds := s.isl.resume
  let t := { s with isl := { s.isl with resume := [] } }
  if kinds = [] then t
  else
    let pick := fun k => if kinds.contains k then imageOf (t.flacon k) else t.activeImage k
    match t.imageOk 1 (pick 1) 2 2, t.imageOk 2 (pick 2) 3 3, State.verifyBody t (pick 2) false with
    | none, none, .ok _ => t.takeSlots kinds
    | some _, _, _ => t.set R.UPD_STAT_LASTRES 2
    | _, _, _ => t.set R.UPD_STAT_LASTRES 3

/-- The start order (R490) at tick 0. -/
def State.release (s : State) (x : Release) : State :=
  let cause := s.isl.cause
  let kind := if s.isl.por then 0 else 1
  let pcyc := s.get R.ISL_PCYC_PCYC
  let fed := s.isl.battery && s.on R.SIL_STAT_LFWV
  let t := s.releaseIsland x
  let t := ({ t with phase := .compute, xoffNext := 0xFF, tsq := { plan := bootPlan } }).readNor x.sfdp
  let t := (t.loadTime.holdStart).setAll [(R.CFG_STAT_CAUSE, cause), (R.CFG_STAT_STEP, 2), (R.RNG_STAT_OK, b2n x.entropy)]
  let t := t.loadMacs
  let t := if x.fuses then t.readOtp else t
  let t := (t.mirrorKeys.readyBanks.testOpen).startRecords kind cause pcyc
  let t := t.takeAnchor 0
  let t := if fed then
      ({ t with bal := { t.bal with sil := some (min 0xFFFF ((t.get (R.SIL_AH_AH 0) + t.get (R.SIL_AH_AH 1) + t.get (R.SIL_AH_AH 2)) / 100)) } }).raise 0x0708 7 2 [(0, 4, t.get (R.SIL_AH_AH 0)), (4, 4, t.get (R.SIL_AH_AH 1)), (8, 4, t.get (R.SIL_AH_AH 2))] else t
  if x.fuses = false then (t.setAll [(R.ISL_TRIAL_LEFT, 0), (R.ISL_TRIAL_RUN, 0)]).loadFixative.enterSafe 3 1 0
  else (t.resumeSlots.startRecord cause).resumeRestart.startTrial.loadFixative.startImages x cause

/-- RESET_RELEASE (R277, R278, R477, R482, R490): the release of a die reset, with the steps of the start order up to 9. -/
def execResetRelease (x : Release) (s : State) : Out :=
  .next (if s.phase = .held ∧ s.isl.dead = false ∧ s.isl.halted = false then
    let t := s.release x
    { t with shown := t.regs }
  else s)

/-! ### The restart -/

/-- A unit programmed at once, again at another place when a forced failure takes it (R420, R522); a dirty segment goes first where a
ninth would become dirty. -/
def State.programNow (s : State) (lun region : Nat) (data : List Byte) : Bool × State :=
  let one := fun (s : State) (f : Option Nat) => match s.freePlace region f with
    | some p => s.programTry 0 lun region 1 0 data f [(p, true)]
    | none => (false, f, s)
  let r := one (s.makeRoom lun) none
  let r := if r.1 then r else one r.2.2 r.2.1
  (r.1, r.2.2)

/-- The programs of R419 before a restart: open ledger buffers, pending events, dirty map segments and a system record that waits; no
snapshot. -/
def State.drainNow (s : State) : State :=
  if s.ftl.mounted = false then s
  else
    let t := if s.regionOpen 4 then
        s.ftl.bufs.foldl (fun (t : State) b =>
          if b.ents.isEmpty then t
          else
            let r := t.programNow b.lun 4 (ledgerImage b.lsn b.ents)
            if r.1 then r.2.progDone { what := .ledger b.lsn, lun := b.lun, region := 4, data := [] } else r.2) s
      else s
    let t := if t.regionOpen 1 then
        t.evOpen.foldl (fun (t : State) u =>
          let t := t.evTouch u
          let d := t.evUnitBytes u
          let r := t.programNow u 1 d
          if r.1 then r.2.evStored u (t.evCarried u) d else r.2) t
      else t
    let t := if t.storWrites then
        t.ftl.progs.foldl (fun (t : State) p => if p.what = .snap then (t.programNow p.lun p.region p.data).2 else t) t
      else t
    if t.regionOpen 1 then ((List.range 8).foldl (fun (t : State) _ => t.writeOldest) t).settleSys else t

/-- A field kept by a restart beside those of R553: FRESH, which only paths H and T clear (R123). -/
def moreKept : List Fld := [R.VAL_CTL_FRESH]

/-- Whether an SRAM byte is kept by a restart (R23). -/
def keepsByte (fbank a : Nat) : Bool :=
  decide (8 ≤ bankOf a ∧ bankOf a ≤ 31) || (decide (fbank ≠ 0) && decide (bankOf a = 44 + fbank))

/-- The clusters that a restart resets (R23, R469, R553): control, record, link, security and storage; the grid cluster, the
island, the tick, the time unit, the tables and the forwarding buffer go on. -/
def State.restartReset (s : State) : State :=
  let fb := s.get R.SUP_CTL_FBANK
  let k := s.keepRegs restartKeeps (restartFields ++ moreKept)
  let base := State.reset
  let refill := s.val.fill.isSome || s.val.rederive
  { base with
    regs := k.regs, shown := k.shown,
    staged := s.staged.filter (fun w => restartKeeps w.addr), late := s.late.filter (fun w => restartKeeps w.addr), occ := s.occ,
    mem := s.mem.filter (fun c => keepsByte fb c.1), phase := s.phase, tsq := s.tsq,
    bnk := { damage := s.bnk.damage.filter (fun e => keepsByte fb (32 * e.1)), scrubbed := s.bnk.scrubbed },
    val := { hearts := s.val.hearts, fill := if refill then some 0 else none },
    raised := s.raised, out := s.out, outNext := s.outNext, lateIn := s.lateIn, fresh := s.fresh,
    bal := { kept := s.on R.BAL_STAT_RUN || s.bal.kept, sil := s.bal.sil }, mtr := s.mtr, tim := s.tim,
    sup := { fbuf := s.sup.fbuf, fnext := s.sup.fnext },
    chg := { s.chg with accounts := [], restored := false, tokens := [], rcpt := none },
    otp := s.otp, sec := { kup := { fusing := s.sec.kup.fusing, transAt := s.sec.kup.transAt }, identWait := s.sec.identWait }, ftl := { hold := s.ftl.hold, snapAt := s.ftl.snapAt, histAt := s.ftl.histAt },
    nand := s.nand, evr := { s.evr with log := s.evr.log.filter (fun (r : EvRec) => r.stored), flush := false, cmd := none },
    isl := s.isl, chgSecond := s.chgSecond, nor := s.nor, upd := { pauseAt := s.upd.pauseAt, lanes := true },
    boot := { nor := s.boot.nor }, jtag := s.jtag, svc := { vbus := s.svc.vbus }, pending := s.pending }

/-- The life cycle stays as it was read at the die reset (R358): a TRANSITION whose fuses have been programmed waits for its own (R370). -/
def State.keepLife (s old : State) : State :=
  s.setAll [(R.KEY_LC_STATE, old.lc), (R.KEY_LC_CYCLE, old.get R.KEY_LC_CYCLE), (R.KEY_LC_TCOUNT, old.get R.KEY_LC_TCOUNT)]

/-- A window zeroing starts again from the first line of its window (R128). -/
def State.zeroAgain (s : State) : State :=
  if s.on R.RPL_STAT_ZEROING then
    let k := s.get R.RPL_STAT_WIN
    let b := s.get (R.VAL_WIND_BASE k)
    ({ s with val := { s.val with zeroAt := b / 8 } }).set R.RPL_STAT_LEFT ((b + s.get (R.VAL_WINC_COUNT k) - 1) / 8 - b / 8 + 1)
  else s

/-- Whether an image leaves the interval numbering as it was (R146). -/
def sameNumbering (s u : State) : Bool :=
  decide (s.get R.BAL_ORGLO_ORGLO = u.get R.BAL_ORGLO_ORGLO ∧ s.get R.BAL_ORGHI_ORGHI = u.get R.BAL_ORGHI_ORGHI ∧
    s.get R.BAL_CTL_INTLEN = u.get R.BAL_CTL_INTLEN)

/-- A fill that was running starts again, if a root is selected (R111). -/
def State.refill (s : State) : State :=
  let on := s.val.fill.isSome && s.baseNote.isSome
  ({ s with val := { s.val with fill := if on then some 0 else none } }).syncRederive

/-- Step 6 of R468 (R111, R122, R128, R346): the clusters start on a verified image; `old` is the state before the restart. -/
def State.restartRun (old : State) (a : Accord) (u : State) : State :=
  let t := (u.putAccord a).readyBanks
  let b : Bal := { kept := sameNumbering old t && (old.on R.BAL_STAT_RUN || old.bal.kept), sil := old.bal.sil }
  (({ t with bal := b }).zeroAgain.refill).showImages

/-- The images of a restart (R468 steps 3 to 5, R473): the staged ones of an activation, else the active ones; a failure names its
step, the active images start, their flacons count as empty, and the proof of a refused plan stays shown (R62). -/
def State.restartImages (s old : State) (kinds : List Nat) : State :=
  let pick := fun (t : State) k => if kinds.contains k then imageOf (t.flacon k) else t.activeImage k
  let go := fun (t : State) (fw ac : List Byte) =>
    let t := t.countImage fw
    match t.imageOk 1 fw 2 2, t.imageOk 2 ac 3 3 with
    | some _, _ => (t, Except.error (2, ([] : List Slot)))
    | none, some _ => (t.countImage ac, .error (3, []))
    | none, none =>
      let t := t.countImage ac
      let c := t.copyFirmware fw
      match State.verifyBody c ac true with
      | .error r => (t, .error (3, r.plan))
      | .ok (a, u) => (t, .ok (State.restartRun old a u))
  let g := go s (pick s 1) (pick s 2)
  match g.2 with
  | .ok t =>
    if kinds = [] then t else t.takeSlots kinds
  | .error e =>
    let t := (g.1.readSlots (s.nor.record.slotOf 1) (s.nor.record.slotOf 2)).set R.UPD_STAT_LASTRES e.1
    let h := go t (t.activeImage 1) (t.activeImage 2)
    let u := match h.2 with
      | .ok u => u
      | .error _ => h.1
    if e.2 = [] then u else u.showProof e.2

/-- A restart (R23, R468, R469, R553) with its cause; `kinds` are the staged images that it takes. -/
def State.restart (s : State) (cause : Nat) (kinds : List Nat) : State :=
  let d := s.acceptOffered.drainNow
  let d := d.set R.ISL_EVLOST_COUNT d.evPend
  let t := (d.restartReset.readOtp.keepLife s).mirrorKeys.loadMacs.resumeSlots.showRecord
  let at_ := fun k => let a := s.nor.record.slotOf k; if kinds.contains k then 1 - a else a
  let t := ((t.readSlots (at_ 1) (at_ 2)).set R.CFG_STAT_CAUSE cause).restartImages s kinds
  let t := (t.startRecords 2 cause (t.get R.ISL_PCYC_PCYC)).testOpen
  if s.lc = lcField ∧ s.on R.PRT_CTL_OPEN then t.barrier 0x15 else t

/-- RESTART (R468-R473): that of ACTIVATE, once its OK response has left and storage has programmed what it holds, or after 80
ticks. -/
def execRestart (s : State) : Out :=
  .next (s.run (fun s =>
    match s.sup.activate with
    | some (none, id, f) => if s.fenceEnded f ∧ s.isl.warned = false then s.restart 3 ((s.activation id).getD []) else s
    | _ => s))

/-- RECOVERY_RESTART (R496): the restart is noted among those of the last hour, counted, and begun. -/
def State.recoverWith (s : State) (l : List Nat) : State :=
  let s := { s with isl := { s.isl with recov := l } }
  let s := s.setAll [(R.CFG_RECOV_HOUR, l.length), (R.CFG_RECOV_TOTAL, satAdd 16 (s.get R.CFG_RECOV_TOTAL) 1)]
  s.restart 4 []

/-- RECOVERY_RESTART (R496): on a trap (`why` 0), an uncorrectable line of firmware (1), or a processor that has completed no
activation for 8,000 ticks (2); the fourth within 1 h of operating time is a die reset. -/
def execRecoveryRestart (cpu : Fin 4) (why : Fin 3) (s : State) : Out :=
  .next (s.run (fun s =>
    let stalled := decide (SMap.get zN s.tsq.alive cpu + 8000 ≤ s.now) && s.tsq.plan.any (fun x => decide (x.exec = cpu.val + 1))
    if s.on R.CFG_STAT_SAFE = true ∨ s.locked = false ∨ s.isl.warned = true ∨ (why.val = 2 ∧ stalled = false) then s
    else
      let s := if why.val = 0 then s.bump (R.PROC_STAT_TRAPS cpu) else s
      let now := s.get R.ISL_OPSEC_SEC
      let l := s.isl.recov.filter (fun r => decide (now < r + 3600))
      if 3 ≤ l.length then s.evLose.dieReset 4
      else
        s.recoverWith (l ++ [now])))

end Sys2Proof.Machine
end

