-- ==== Sys2Proof/Machine/Island.lean ====
section
/-!
DEFINITION. The island (R475-R478, R498-R516): the supply supervisor, the warning and the loss, resets, the battery, the RTC, the
watchdog and the trial timer.
-/
namespace Sys2Proof.Machine

/-! ### Resets -/

/-- ISLAND_POWER_ON_RESET (R10, R23, R478): supply returns after VBAT and the main supplies were both absent. -/
def execIslandPowerOnReset (s : State) : Out :=
  .next (if s.isl.dead then
      let base := State.reset
      { base with
        nand := s.nand, nor := s.nor, otp := s.otp, fresh := s.fresh, svc := { vbus := s.svc.vbus }, pending := s.pending }
    else s)

/-- A die reset after the power-fail warning (R504): a restart under way, ACTIVATE included, is to resume at the next start (R437). -/
def State.dieWarned (s : State) (cause : Nat) : State :=
  let t := s.evLose.dieReset cause
  match s.sup.activate with
  | some (_, id, _) => { t with isl := { t.isl with resume := (s.activation id).getD [] } }
  | none => t

/-- RESET_N_ASSERT (R477, R504): a die reset; during drydown it waits for its end. -/
def execResetNAssert (s : State) : Out :=
  .next (s.run (fun s =>
    if s.isl.warned then
      if s.isl.dry.stage = 1 ∨ s.isl.dry.stage = 2 then s
      else
        let t := s.dieWarned 1
        { t with isl := { t.isl with halted := true } }
    else s.evLose.dieReset 1))

/-- PLL_RESTART (R477): PLLs without lock start again; the device stays in reset. -/
def execPllRestart (s : State) : Out := .next s

/-! ### Warning, loss and recovery -/

/-- The main clusters held in die reset after a warning (R504). -/
def State.holdDie (s : State) : State :=
  let t := s.dieWarned 0
  { t with isl := { t.isl with halted := true } }

/-- The hold of R504 outside BUFFERED, once the programs in progress have ended and the partial cycles have entered the registers. -/
def State.holdWhenIdle (s : State) : State :=
  if s.isl.warned = true ∧ s.isl.dry.stage = 0 ∧ s.isl.warnAt < s.now ∧ s.ftl.progs = [] then s.holdDie else s

/-- The partial cycles of the warning enter the registers (R176, R502). -/
def State.partialCycles (s : State) : State :=
  if s.isl.warned = true ∧ s.isl.warnAt < s.now ∧ s.isl.part ≠ [] then
    let t := { s with mtr := { s.mtr with cycles := s.isl.part } }
    let u := t.closePartial
    { u with mtr := { u.mtr with cycles := s.mtr.cycles }, isl := { u.isl with part := [] } }
  else s

/-- The warning while the main clusters run (R176, R502, R505). -/
def State.warnRunning (s : State) : State :=
  let t := ((s.send (.pin "VHOLD_CHGEN") [0#8]).forceOpen 0).forceOpen 1
  let t := { t with ftl := { t.ftl with copy := none } }
  let dry := decide (t.stor = 1)
  let t := if dry then t.set R.DRY_STAT_DONE 0 else t
  { t with
    isl := { t.isl with part := t.mtr.cycles, dry := { stage := if dry then 1 else 0 } }, mtr := { t.mtr with cycles := [] } }

/-- POWER_FAIL_WARNING (R502, R504): latched until the next reset release. -/
def execPowerFailWarning (s : State) : Out :=
  .next (s.islRun (fun s =>
    if s.isl.battery = true ∨ s.isl.warned = true then s
    else
      let t := { s.set R.ISL_STAT_PFW 1 with isl := { s.isl with warned := true, warnAt := s.now } }
      if t.up then t.warnRunning else { t with isl := { t.isl with halted := true } }))

/-- MAIN_SUPPLIES_LOST (R20, R498, R499, R503, R542): the main clusters stop, the island changes to VBAT. -/
def execMainSuppliesLost (s : State) : Out :=
  .next (s.islRun (fun s =>
    if s.isl.battery then s
    else
      let s := s.fuseCut
      let told := s.isl.warned && (s.isl.halted || decide (s.isl.warnAt + 2 ≤ s.now))
      let t := s.evLose.dieReset 0
      let t := { t with out := t.out ++ lossBalls }
      let i := { t.isl with battery := true, halted := false, supply := true, resume := [], dead := s.on R.BAT_STAT_ABSENT,
                            partLost := t.isl.partLost || !told }
      let t := ({ t with isl := i }).setAll [(R.ISL_LOSS_KIND, if told then 1 else 2), (R.BAT_STAT_SRC, 1),
        (R.SIL_STAT_ACTIVE, s.get R.SIL_CTL_EN)]
      (t.wrap R.BAT_CNT_PERIODS).sillageStart))

/-- WARNING_RECOVERY (R504): PFI and every main supply good for 100 ms while the clusters are held. -/
def execWarningRecovery (s : State) : Out :=
  .next (s.islRun (fun s =>
    if s.isl.halted = true ∧ s.isl.battery = false then
      let t := s.set R.ISL_LOSS_KIND 3
      { t with isl := { t.isl with halted := false, cause := 0 } }
    else s))

/-! ### Battery -/

/-- VBAT_MEASUREMENT (R499): the bands. -/
def execVbatMeasurement (mv : Fin 4096) (s : State) : Out :=
  .next (s.islRun (fun s =>
    let t := s.set R.BAT_STAT_VBAT mv
    if mv.val < 2450 then t.set R.BAT_STAT_ABSENT 1
    else (t.set R.BAT_STAT_ABSENT 0).set R.BAT_STAT_LOW (b2n (decide (mv.val < 2900)))))

/-- ISLAND_SUPPLY_LOST (R499): VBAT absent for 1 ms; on battery the island stops. -/
def execIslandSupplyLost (s : State) : Out :=
  .next (s.islRun (fun s =>
    let t := s.set R.BAT_STAT_ABSENT 1
    if t.isl.battery then { t with isl := { t.isl with dead := true } } else t))

/-! ### RTC -/

/-- A write of RTC_SETLO (R508). -/
def State.rtcStage (s : State) (sec : Nat) : State :=
  { s with isl := { s.isl with rtcDue := some (s.get R.RTC_SETHI_SEC * 2 ^ 32 + sec) } }

/-- CRYSTAL_STOP (R508, R514). -/
def execCrystalStop (s : State) : Out :=
  .next (s.islRun (fun s =>
    let t := s.setAll [(R.RTC_STAT_VALID, 0), (R.RTC_STAT_XSTOP, 1)]
    { t with isl := { t.isl with stopped := true } }))

/-! ### Watchdog and trial timer -/

/-- The watchdog expires (R510): a die reset; a warning prevails (R514). -/
def State.wdExpire (s : State) : State :=
  if s.isl.warned then s
  else (s.set R.ISL_WDSTAT_COUNT (satAdd 16 (s.get R.ISL_WDSTAT_COUNT) 1)).evLose.dieReset 2

/-- The timeout in ticks (R510): 2 s until step 6 of the start order, then 2^TIMEOUT × 125 ms. -/
def State.wdTicks (s : State) : Nat :=
  if s.get R.CFG_STAT_STEP < 6 then 16000 else 2 ^ s.get R.ISL_WDCFG_TIMEOUT * 1000

/-- A write of ISL_WDKICK (R510). -/
def State.wdKick (s : State) (key : Nat) : State :=
  if key = 0x4B then { s with isl := { s.isl with wd4B := true } }
  else if key = 0xB4 ∧ s.isl.wd4B = true then { s with isl := { s.isl with wd4B := false, wdAt := s.now } }
  else s.wdExpire

/-- WATCHDOG_EXPIRY (R52, R510, R514): no kick within the timeout, judged in the commit phase, so that a warning of the same tick prevails. -/
def execWatchdogExpiry (s : State) : Out :=
  .next (s.inCommit (fun s => if s.isl.wdAt + s.wdTicks ≤ s.now then s.wdExpire else s))

/-- TRIAL_TIMER_EXPIRY (R472, R511): as a watchdog expiry. -/
def execTrialTimerExpiry (s : State) : Out :=
  .next (s.inCommit (fun s => if s.on R.ISL_TRIAL_RUN = true ∧ s.get R.ISL_TRIAL_LEFT = 0 then s.wdExpire else s))

end Sys2Proof.Machine
end

