-- ==== Sys2Proof/Machine/Drydown.lean ====
section
/-!
DEFINITION. Periodic saves (R177), the island snapshot (R506) and drydown (R436, R437, R505).
-/
namespace Sys2Proof.Machine

/-! ### Saves and snapshots -/

/-- The registers of a snapshot that are kept word by word (R506). -/
def snapRegs : List Nat :=
  (List.range 16).map R.FTL_THIST ++ [R.SIL_STAT, R.SIL_AH 0, R.SIL_AH 1, R.SIL_AH 2, R.SIL_TOTAL, R.ISL_OPSEC, R.ISL_PCYC, R.ISL_EVLOST, R.RTC_SECLO, R.RTC_SECHI,
    R.RTC_FRAC, R.RTC_STAT, R.TMP_STAT, R.TMP_ERCNT, R.TMP_ERTIME] ++
  [0, 1].flatMap (fun o => [R.CHG_SID o, R.CHG_SACC o, R.CHG_SSTART o, R.CHG_SE0 o, R.CHG_SENG o, R.CHG_SMAX o]) ++
  [R.CHG_CTR, R.CHG_SEQ, R.KEY_UCTR, R.CFG_RECOV]

/-- A SNAP unit (R177, R506): kind (1 periodic, 2 drydown), device seconds, PCYC, OPSEC, the registers, the energy registers with
their remainders.  The layout is the model's own. -/
def State.snapBytes (s : State) (kind : Nat) : List Byte :=
  [BitVec.ofNat 8 kind, 0#8] ++ leBytes 6 (secOf s.tim.start) ++ leBytes 4 (s.get R.ISL_PCYC_PCYC) ++ leBytes 4 (s.get R.ISL_OPSEC_SEC) ++
    snapRegs.flatMap (fun a => leBytes 4 (s.word a).toNat) ++ s.energyImage.flatMap (fun e => leBytes 8 e.1 ++ leBytes 8 e.2)

/-- Logical units of the SNAP region (R418). -/
def snapUnits : List Nat := (List.range 16).map (fun i => 1024 + i)

/-- The SNAP units that hold a record: WSEQ, logical unit, bytes. -/
def State.snapsFound (s : State) : List (Nat × Nat × List Byte) :=
  snapUnits.filterMap (fun l => match s.unitOf l with
    | none => none
    | some u => (s.openUnit u).map (fun d => (u.wseq, l, d)))

/-- The next SNAP unit of the rotation (R418). -/
def State.nextSnap (s : State) : Nat := 1024 + s.ftl.snapAt % 16

/-- PERIODIC_SAVE (R177): every SAVEP seconds of device time; its program begins.  DESIGN CHOICE (assumption 128): after a backward step of
device time the next save is the first at which device time has again passed the last one by SAVEP. -/
def execPeriodicSave (s : State) : Out :=
  .next (s.run (fun s =>
    let sec := secOf s.tim.start
    if s.ftl.mounted = true ∧ s.regionOpen 2 = true ∧ s.isl.warned = false ∧ s.bufferFree = true ∧ s.get R.NRG_CTL_SAVEP ≠ 0 ∧
        s.mtr.saveAt + s.get R.NRG_CTL_SAVEP ≤ sec then
      { s with
        mtr := { s.mtr with saveAt := sec }
        ftl := { s.ftl with
          snapAt := (s.ftl.snapAt + 1) % 16
          progs := s.ftl.progs ++ [{ what := .snap, lun := s.nextSnap, region := 2, data := s.snapBytes 1 }] } }
    else s))

/-! ### Drydown -/

/-- The items of drydown but for the map segments, which are taken as they stand when their turn comes (R436). -/
def State.dryItems (s : State) : List DryItem :=
  [⟨some .snap, s.nextSnap, 2, 1, 0, s.snapBytes 2⟩] ++
    (s.ftl.bufs.filter (fun b => !b.ents.isEmpty)).map (fun b => ⟨some (.ledger b.lsn), b.lun, 4, 1, 0, ledgerImage b.lsn b.ents⟩) ++
    s.evOpen.map (fun u => ⟨some (.event u (s.evCarried u)), u, 1, 1, 0, s.evUnitBytes u⟩)

/-- One unit more in drydown, or PFAIL (R436). -/
def State.dryCount (s : State) (ok : Bool) : State :=
  if ok then { s with isl := { s.isl with dry := { s.isl.dry with units := s.isl.dry.units + 1 } } } else s.set R.DRY_STAT_PFAIL 1

/-- The oldest dirty segment programmed in drydown (R436). -/
def State.drySegment (s : State) (a : Nat × Bool) : State :=
  match s.ftl.dirty with
  | [] => s
  | _ :: rest =>
    if s.placeFor 0 a.1 = false then s
    else
      let t := { s with ftl := { s.ftl with segFail := none } }.writeSegment 2 a.1 a.2
      let ok := decide (t.ftl.dirty.length < s.ftl.dirty.length)
      ({ t with ftl := { t.ftl with dirty := rest } }).dryCount ok

/-- One program of drydown at a place with what the array reports: no unit is programmed again (R436). -/
def State.dryOne (s : State) (a : Nat × Bool) : State :=
  match s.isl.dry.items with
  | [] => s.drySegment a
  | it :: rest =>
    if s.segFull it.lun then s.drySegment a
    else if s.placeFor it.region a.1 = false then s
    else
      let r := s.programUnit 2 it.lun it.region it.kind it.seg it.data a.1 a.2
      let t := { r.2 with isl := { r.2.isl with dry := { r.2.isl.dry with items := rest } } }
      let t := match it.what with
        | some w => if r.1 then t.progDone { what := w, lun := it.lun, region := it.region, data := it.data } else t
        | none => t
      t.dryCount r.1

/-- Drydown may run: in the commit phase of the tick after the warning, once the partial cycles have entered (R505). -/
def State.dryReady (s : State) : Bool :=
  s.isl.warned && decide (s.isl.warnAt < s.now) && decide (s.isl.part = []) &&
    (decide (s.phase = .commit) || decide (s.isl.warnAt + 1 < s.now))

/-- The items listed when drydown begins; a program in progress ends as its item. -/
def State.dryBegin (s : State) : State :=
  if s.isl.dry.stage = 1 then
    let t := s.evOpen.foldl State.evTouch s
    { t with
      isl := { t.isl with dry := { stage := 2, items := t.dryItems } }, ftl := { t.ftl with progs := [] } }
  else s

/-- DRYDOWN (R436, R505): the manager's programs, in order. -/
def execDrydown (tries : List (Nat × Bool)) (s : State) : Out :=
  .next (s.run (fun s =>
    if s.dryReady = true ∧ (s.isl.dry.stage = 1 ∨ s.isl.dry.stage = 2) then tries.foldl State.dryOne s.dryBegin else s))

/-- DRYDOWN_TAKEOVER (R505): the manager has not begun 100 µs after that commit; it is reset as an engine, with only its unit
buffers and the map banks kept, and the controller runs the steps. -/
def execDrydownTakeover (tries : List (Nat × Bool)) (s : State) : Out :=
  .next (s.run (fun s =>
    if s.dryReady = true ∧ s.isl.dry.stage = 1 ∧ s.isl.warnAt + 1 < s.now then
      let f := s.ftl
      let t := { s with ftl := { f with progs := [], fences := [], victims := [], erasing := [], rdLost := false, rdData := [], copy := none } }
      tries.foldl State.dryOne t.dryBegin
    else s))

/-- DRYDOWN_DONE (R504, R505): the last item has been programmed; the main clusters are then held in die reset. -/
def execDrydownDone (us : Nat) (s : State) : Out :=
  .next (s.run (fun s =>
    if s.isl.dry.stage = 2 ∧ s.isl.dry.items = [] ∧ s.ftl.dirty = [] then
      let t := s.setAll [(R.DRY_STAT_DONE, 1), (R.DRY_LAST_US, min us 0xFFFF), (R.DRY_LAST_UNITS, min s.isl.dry.units 31)]
      ({ t with isl := { t.isl with dry := { t.isl.dry with stage := 3 } } }).holdDie
    else s))

/-- DRYDOWN_SHORT (R436): VHOLD_SNS falls below 2.8 V; the remaining items are not written. -/
def execDrydownShort (s : State) : Out :=
  .next (s.run (fun s =>
    if s.isl.dry.stage = 1 ∨ s.isl.dry.stage = 2 then
      let t := s.set R.DRY_STAT_SHORT 1
      ({ t with isl := { t.isl with dry := { t.isl.dry with stage := 3, items := [] } } }).holdDie
    else s))

end Sys2Proof.Machine
end

