-- ==== Sys2Proof/Machine/Restore.lean ====
section
/-!
DEFINITION. Step 10 of the start order (R178, R430-R432, R490, R493): the energy base, the tables from the newest checkpoint and the
ledger, and the lanes; and the release of records after a restart (R468).
-/
namespace Sys2Proof.Machine

/-! ### The energy base (R178) -/

/-- The newest SNAP record of a kind, as its bytes. -/
def State.newestSnap (s : State) (kind : Nat) : Option (List Byte) :=
  ((s.snapsFound.filter (fun e => decide (leAt e.2.2 0 1 = kind))).foldl (fun (m : Option (Nat × Nat × List Byte)) e => match m with
    | some x => if x.1 < e.1 then some e else some x
    | none => some e) none).map (fun e => e.2.2)

/-- PCYC and OPSEC of a SNAP record as one number. -/
def snapAge (b : List Byte) : Nat := leAt b 8 4 * 2 ^ 32 + leAt b 12 4

/-- The saved value of the cumulative register k (R175), in the order of the snapshot. -/
def snapEnergy (b : List Byte) (k : Nat) : Nat := leAt b (16 + 4 * snapRegs.length + 16 * k) 8

/-- The NRG_A registers written by firmware with a record's values, and ADD (R178). -/
def State.addFrom (s : State) (b : List Byte) : State :=
  let t := (List.range 12).foldl (fun (t : State) k =>
    let gp := nth groupPhases k (0, 0)
    let i := snapEnergy b (2 * k)
    let e := snapEnergy b (2 * k + 1)
    t.setAll [(R.NRG_AILO_ADDV gp.1 gp.2, i % 2 ^ 32), (R.NRG_AIHI_ADDV gp.1 gp.2, i / 2 ^ 32),
      (R.NRG_AELO_ADDV gp.1 gp.2, e % 2 ^ 32), (R.NRG_AEHI_ADDV gp.1 gp.2, e / 2 ^ 32)]) s
  t.baseAdd .fw

/-- GAP set and its event (R178): the age of the save in device seconds, or FFFF_FFFFh. -/
def State.energyGap (s : State) (age : Nat) : State :=
  let t := s.set R.NRG_STAT_GAP 1
  t.raise 0x0707 7 1 [(0, 4, age), (4, 1, 1 + 2 * t.get R.NRG_STAT_PARTLOST)]

/-- The age of a save in device seconds, as recorded at the save (R178); 0 where device time has not reached the second of the save (DESIGN
CHOICE, assumption 130). -/
def State.saveAge (s : State) (p : List Byte) : Nat := min (secOf s.tim.start - leAt p 2 6) 0xFFFFFFFF

/-- The restore of the base (R178). -/
def State.energyRestore (s : State) : State :=
  if s.on R.NRG_STAT_BASED then s
  else
    let found := fun k => if s.ftl.mounted then s.newestSnap k else none
    match found 2, found 1 with
    | some b, none => s.addFrom b
    | some b, some p => if snapAge p ≤ snapAge b then s.addFrom b else (s.energyGap (s.saveAge p)).addFrom p
    | none, some p => (s.energyGap (s.saveAge p)).addFrom p
    | none, none => (s.energyGap 0xFFFFFFFF).addFrom []

/-! ### The ledger's own state -/

/-- Whether the ledger can be read: the storage key is loaded (R424, R438). -/
def State.ledReads (s : State) : Bool := s.ftl.mounted && decide (s.stor = 1 ∨ s.stor = 2 ∨ s.stor = 3)

/-- The newest CKPT entry: its LSN, slot and start LSN (R431). -/
def lastCkpt (es : List (Nat × Entry)) : Option (Nat × Nat × Nat) :=
  ((es.filter (fun e => decide (e.2.kind = 7))).getLast?).map (fun e => (e.1, recAt e.2.data 0 1, recAt e.2.data 8 8))

/-- ACKLSN from the newest ACKMARK, and the entries from there on that await acknowledgement (R430). -/
def State.ackRestore (s : State) (es : List (Nat × Entry)) : State :=
  let mark := (((es.filter (fun e => decide (e.2.kind = 6))).getLast?).map (fun e => recAt e.2.data 0 8)).getD 0
  let w := (es.filter (fun e => e.2.ackreq && decide (e.2.part = 0) && decide (mark ≤ e.1))).map Prod.fst
  ({ s with ftl := { s.ftl with await := w, marked := mark } }).syncAck

/-! ### The tables (R432) -/

/-- The 768 units of a checkpoint slot, when every one verifies. -/
def State.ckptUnits (s : State) (slot : Nat) : Option (List (List Byte)) :=
  (List.range 768).mapM (fun i => match s.unitOf (1040 + 768 * slot + i) with
    | none => none
    | some u => (s.openUnit u).map unitBytes)

/-- LINE (R432): the lines of BANK08 to BANK31 written whole. -/
def State.loadTables (s : State) (us : List (List Byte)) : State :=
  (List.range us.length).foldl (fun (t : State) i => t.memWrite (0x400000 + 16384 * i) (nth us i [])) s

/-- DIR_USED and the counts of R140 taken again from the directory (R488). -/
def State.recount (s : State) : State :=
  let t := [0, 1, 2, 3].foldl (fun (t : State) g => [0, 1, 2, 3].foldl (fun (t : State) c => t.set (R.BAL_ASG_COUNT g c) 0) t)
    (s.set R.DIR_USED_COUNT 0)
  (List.range 65536).foldl (fun (t : State) i =>
    let t := t.touch (dirAddr i) 32
    if t.dirMeter i = 0 then t else (t.usedBump true).asgOf i true) t

/-- RAISE (R432): the slot of a METER as R100 finds it, and its entry raised to CTR. -/
def State.raiseReplay (s : State) (meter ctr : Nat) : State :=
  let s := s.readCandidates meter
  match s.dirFind meter with
  | some i => (s.dirRplmax (s.dirNat i 4 4 % 2 ^ 20) ctr).st
  | none => match s.windowOf meter with
    | some k => (s.dirRplmax (s.get (R.VAL_WIND_BASE k) + indexOf meter - s.get (R.VAL_WINB_FIRST k)) ctr).st
    | none => s

/-- One entry replayed (R432): a DIRCMD carried out, a RECORD raised. -/
def State.replayEntry (s : State) (e : Entry) : State :=
  if e.kind = 5 then
    (s.dirRun (recAt e.data 0 1) ⟨recAt e.data 4 4, recAt e.data 8 4, recAt e.data 12 4, recAt e.data 16 4⟩).st
  else if e.kind = 1 then s.raiseReplay (recMeter e.data) (recCtr e.data)
  else s

/-- Steps 1 and 2 of R432; whether a checkpoint was loaded. -/
def State.tablesRestore (s : State) (es : List (Nat × Entry)) : Bool × State :=
  match lastCkpt es with
  | none => (false, s)
  | some c =>
    let s := s.readLuns ((List.range 768).map (fun i => 1040 + 768 * c.2.1 + i))
    match s.ckptUnits c.2.1 with
    | none => (false, s)
    | some us =>
      let t := (s.loadTables us).recount
      (true, ((es.filter (fun e => decide (c.2.2 ≤ e.1))).map Prod.snd).foldl State.replayEntry t)

/-! ### The lanes -/

/-- FRESH is needed (R123): no copy was loaded, or some queue has the disposition FORWARD. -/
def State.freshNeeded (s : State) (loaded : Bool) : Bool :=
  !loaded || (List.range 32).any (fun q => decide (s.qDisp q = 1))

/-- The lanes enabled (R123, R432); while storage takes no ledger entry, those of LEDGER and BOTH queues stay disabled (R425,
R438, R493). -/
def State.enableLanes (s : State) (fresh : Bool) : State :=
  let off := if s.storWrites then 0 else s.ledgerLanes
  let t := { s with ftl := { s.ftl with lanes := off } }
  (if fresh then t.set R.VAL_CTL_FRESH 1 else t).writeLanes (0xF - off) true

/-- Storage has come to its state for this start (R424): disabled, mounted or failed. -/
def State.storReady (s : State) : Bool := !(s.on R.FTL_CTL_EN) || s.ftl.mounted || decide (s.stor = 5)

/-- Steps 1 and 2 of R432 and the fill that follows them: energy, tables and acknowledgements taken from storage. -/
def State.restoreTables (s : State) : State :=
  let t := s.energyRestore
  let t := if t.ledReads then t.ledgerSeen else t
  let es := if t.ledReads then t.ledgerEntries else []
  let r := t.tablesRestore es
  let t := (r.2.ackRestore es).startFill
  let t := { t with ftl := { t.ftl with ckpt := lastCkpt es, ckptAt := t.now } }
  { t with boot := { t.boot with restore := some (t.freshNeeded r.1) } }

/-- Step 4 of R432 and the end of step 10 (R490): the lanes enabled. -/
def State.restoreEnd (s : State) (fresh : Bool) : State :=
  let t := { s with boot := { s.boot with restore := none } }
  let t := if t.ledReads then t.set R.FTL_STAT_RESTORED 1 else t
  (t.enableLanes fresh).setAll [(R.CFG_STAT_STEP, 10), (R.CFG_MARK_TICK 10, t.now % 2 ^ 32)]

/-- Step 10 of the start (R432, R490): the tables restored; the lanes enabled once no fill runs. -/
def State.restoreLedger (s : State) : State :=
  let t := if s.boot.restore.isNone then s.restoreTables else s
  match t.boot.restore with
  | some fresh => if t.val.fill.isNone then t.restoreEnd fresh else t
  | none => t

/-- LEDGER_RESTORE (R123, R178, R430, R432, R490 step 10, R493). -/
def execLedgerRestore (s : State) : Out :=
  .next (s.run (fun s =>
    if s.get R.CFG_STAT_STEP = 9 ∧ s.storReady = true ∧ s.isl.warned = false ∧ s.upd.lanes = false then
      s.restoreLedger
    else s))

/-- The end of a restart (R468 step 6, R469): storage mounted again, the lanes enabled, the XOFF hold ended, the pause recorded.  Before step 10
of the start order has ended it is that step that enables the lanes. -/
def State.endRestart (s : State) : State :=
  if s.upd.lanes = true ∧ s.storReady = true ∧ s.isl.warned = false then
    let t := if s.ledReads then s.ledgerSeen else s
    let es := if s.ledReads then t.ledgerEntries else []
    let t := t.ackRestore es
    let t := { t with ftl := { t.ftl with ckpt := lastCkpt es, ckptAt := t.now }, upd := { t.upd with pauseAt := none, lanes := false } }
    let t := if s.ledReads then t.set R.FTL_STAT_RESTORED 1 else t
    let t := if 10 ≤ s.get R.CFG_STAT_STEP then t.enableLanes false else t
    let t := t.set R.QUE_XSTAT_HOLD 0
    match s.upd.pauseAt with
    | some a => t.set R.UPD_PAUSE_TICKS (min (s.now - a) 0xFFFF)
    | none => t
  else s

end Sys2Proof.Machine
end

