-- ==== Sys2Proof/Machine/Testing.lean ====
section
/-!
DEFINITION. Perturbations (R522-R527) and the JTAG port (R517, R518).
-/
namespace Sys2Proof.Machine

/-! ### Perturbations -/

/-- A write of PRT_SKEW (R522): AMOUNT starts the skew. -/
def State.writeSkew (value : Word) (m : Word) (s : State) : State :=
  let t := s.mergeWord R.PRT_SKEW m value
  if R.PRT_SKEW_AMOUNT.hit m then { t with prt := { t.prt with skew := sgn 16 (t.get R.PRT_SKEW_AMOUNT) } } else t

/-- A write of PRT_NAND (R522): ARM arms one failure. -/
def State.writeNand (value : Word) (m : Word) (s : State) : State :=
  let t := s.mergeWord R.PRT_NAND (m &&& R.PRT_NAND_KIND.mask) value
  if R.PRT_NAND_ARM.hit (m &&& value) then t.set R.PRT_NAND_ARMED 1 else t

/-- A write of PRT_TAG (R522): ARM arms one failure. -/
def State.writeTag (value : Word) (m : Word) (s : State) : State :=
  let t := s.mergeWord R.PRT_TAG (m &&& (R.PRT_TAG_TGT.mask ||| R.PRT_TAG_PAGE.mask ||| R.PRT_TAG_QNUM.mask)) value
  if R.PRT_TAG_ARM.hit (m &&& value) then t.set R.PRT_TAG_ARMED 1 else t

/-- A looped Ethernet port reads its link as up (R523); a port that leaves the loop has no link until it finds one. -/
def State.loopLinks (old new : Nat) (s : State) : State :=
  (List.range 3).foldl (fun (t : State) n =>
    if new.testBit n = true ∧ old.testBit n = false then t.set (R.ETH_STAT_LINK n) 1
    else if new.testBit n = false ∧ old.testBit n = true then t.set (R.ETH_STAT_LINK n) 0
    else t) s

/-- The loopbacks of PRT_LOOP put in force (R523). -/
def State.applyLoop (value : Word) (m : Word) (s : State) : State :=
  let t := s.mergeWord R.PRT_LOOP m value
  State.loopLinks (s.get R.PRT_LOOP_ETH) (t.get R.PRT_LOOP_ETH) t

/-! ### JTAG -/

/-- The port works while the main supplies are present. -/
def State.jtagRun (s : State) (f : State → State) : State := if s.isl.dead ∨ s.isl.battery then s else f s

/-- The bypass register: it captures 0 and takes the bit shifted in. -/
def State.jtagBypass (s : State) (bit : Bool) : State :=
  ({ s with jtag := { s.jtag with ir := 0, dr := b2n bit } }).send (.pin "TDO") [0#8]

/-- BYPASS (R517). -/
def execBypass (bit : Bool) (s : State) : Out := .next (s.jtagRun (fun s => s.jtagBypass bit))

/-- The IDCODE register (R517). -/
def idcodeWord : Nat := 0x196401D5

/-- IDCODE (R517). -/
def execIdcode (s : State) : Out :=
  .next (s.jtagRun (fun s =>
    ({ s with jtag := { s.jtag with ir := 1, dr := idcodeWord } }).send (.pin "TDO") (leBytes 4 idcodeWord)))

/-- SAMPLE_PRELOAD (R517): the cells take what is shifted in; what they sample is as the boundary-scan description has it, open
here. -/
def execSamplePreload (cells : List Byte) (s : State) : Out :=
  .next (s.jtagRun (fun s =>
    let r := s.drawBytes cells.length
    ({ r.2 with jtag := { r.2.jtag with ir := 2, cells := cells } }).send (.pin "TDO") r.1))

/-- EXTEST (R517, R518): in TEST the cells drive the pins, but for the contactors and shunts, inactive, and the pilots, low;
elsewhere it acts as BYPASS. -/
def execExtest (cells : List Byte) (s : State) : Out :=
  .next (s.jtagRun (fun s =>
    if s.lc = lcTest then
      let t := ({ s with jtag := { s.jtag with ir := 3, cells := cells } }).send (.pin "EXTEST") cells
      [0, 1].foldl (fun (t : State) o => ((t.send (chgPort o "K") [0#8]).send (chgPort o "SHUNT") [0#8]).send (chgPort o "CPOUT") [0#8]) t
    else s.jtagBypass false))

end Sys2Proof.Machine
end

