-- ==== Sys2Proof/Machine/Bus.lean ====
section
/-!
DEFINITION. Register writes over the register bus and by the paths of R13: their judgement with the bars of R26, R29, R106 and
R376, their staging for the commit of the tick (R14, R38), and what each does when it is committed (R532, R534).
-/
namespace Sys2Proof.Machine

/-! ### Bars of the blocks -/

/-- The window descriptors with the writes of this tick (R106). -/
def State.barWindow (s : State) (a : Nat) (v : Word) (j : Judgement) : Judgement :=
  let t := (s.staged.filter (fun w => decide (w.addr / 256 = a / 256))).foldl (fun (t : State) w => t.mergeWord w.addr w.mask w.value) s
  if (t.mergeWord a j.mask v).windowsBad then { j with mask := 0, lock := true } else j

/-- A BUSY bit as committed at the start of the tick: while it reads 1, a write of OP is ignored and counted (R125, R408). -/
def State.busyShown (s : State) (f : Fld) : Bool := decide (f.read (s.shownWord f.addr) ≠ 0)

/-- The bars of the blocks with a rule of their own.  DESIGN CHOICE (assumption 130): TSRC, a field of MTR_GCFG, is no calibration field of
R191. -/
def State.bars (s : State) (p : Path) (a : Nat) (m v : Word) (j : Judgement) : Judgement :=
  let new := fun (f : Fld) => s.newPend p f j.mask v
  let j := j.barPath ⟨a, 0, 32⟩ (p = .fw && decide (a / 65536 = R.CIP_CNT / 65536))
  match idxOf (R.BNK_CTL 0) 4 48 a with
  | some b => s.barBank p b m v j
  | none =>
    if R.VAL_WINA 0 ≤ a ∧ a < R.VAL_WINA 0 + 256 then s.barWindow a v j
    else if a / 65536 = R.TMP_INT / 65536 then j.barPath ⟨a, 0, 32⟩ (p = .fw)
    else if a = R.VAL_CTL then j.barPath R.VAL_CTL_FRESH (p = .fw && decide (new R.VAL_CTL_FRESH = 0))
    else if a = R.EVR_CMD then
      (j.barPath R.EVR_CMD_OP (p = .t && decide (new R.EVR_CMD_OP = 4))).barLock R.EVR_CMD_OP (s.busyShown R.EVR_CMD_BUSY)
    else if R.MTR_OFS 0 ≤ a ∧ a < R.MTR_IRMS 0 0 then j.barPath ⟨a, 0, 32⟩ (decide (p = .fw) || decide (s.lc ≠ lcTest))
    else if a = R.SIL_CLR then j.barPath R.SIL_CLR_CLR (p = .fw)
    else if a = R.DIR_CMD then j.barLock R.DIR_CMD_OP (s.busyShown R.DIR_CMD_BUSY)
    else if a = R.CHG_ACMD then j.barLock R.CHG_ACMD_OP (s.busyShown R.CHG_ACMD_BUSY)
    else if a = R.FTL_CMD then j.barLock R.FTL_CMD_OP (s.formatOpen = false)
    else if a = R.NRG_CTL then j.barLock R.NRG_CTL_ADD (R.NRG_CTL_ADD.hit v && s.on R.NRG_STAT_BASED)
    else if a = R.PRT_LOOP then
      let j := j.barPath ⟨a, 0, 32⟩ (decide (s.lc ≠ lcTest))
      j.barLock ⟨a, 0, 32⟩ (decide (new R.PRT_LOOP_PLCPAIR ≠ 0) && R.PRT_LOOP_PLCPAIR.hit j.mask && decide (s.get (R.PLK_CTL_ROLE 3) ≠ 2))
    else if a = R.TIM_ADDHI then
      let n := s.newPend p R.TIM_ADDLO_ADD 0 0 + new R.TIM_ADDHI_ADD * 2 ^ 32
      j.barLock R.TIM_ADDHI_ADD (!(decide (n ≤ 2 ^ 51 + addendSpan ∧ 2 ^ 51 - addendSpan ≤ n)))
    else match idxOf (R.TIM_TRGP 0) 16 4 a with
      | some k => j.barLock (R.TIM_TRGP_PER k) (decide (new (R.TIM_TRGP_PER k) % 8 ≠ 0))
      | none =>
        match (List.range 4).find? (fun k => decide (R.PLK_MOD k = a)) with
        | some k => j.barLock ⟨a, 4, 4⟩ (decide (new (R.PLK_MOD_MAXMOD k) < new (R.PLK_MOD_MINMOD k)))
        | none => j

/-! ### Receipt -/

/-- Seconds staged for a requester of steps (R279). -/
def State.stageSec (s : State) (who : Nat) (m v : Word) : State :=
  let old := BitVec.ofNat 32 (unsgn 32 (SMap.get zI s.tim.stepS who))
  { s with tim := { s.tim with stepS := SMap.put zI s.tim.stepS who (sgn 32 ((old &&& ~~~ m) ||| (v &&& m)).toNat) } }

/-- The bits of a write that passed: the seconds and the requests of a step are taken on receipt (R279, R280); every other write is
staged. -/
def State.acceptWrite (s : State) (w : Staged) : State :=
  let v := s.newVal ⟨w.addr, 0, 31⟩ w.mask w.value
  if w.addr = R.TIM_STEPS then s.stageSec (stepWho w.path) w.mask w.value
  else if w.addr = R.PRT_STEPS then s.stageSec 3 w.mask w.value
  else if w.addr = R.TIM_STEPNS then s.requestStep (stepWho w.path) (sgn 31 v)
  else if w.addr = R.PRT_STEPNS then s.requestStep 3 (sgn 31 v)
  else s.stageWrite w

/-- Whether an agent writes to a page that it owns (R336). -/
def State.ownPage (s : State) (agent a : Nat) : Bool :=
  inPages a && decide (agent ≠ 0) && decide (s.pageOwner (a / 256 % 256) = agent)

/-- A write of the bits of `m` to a register that exists: judged, counted once, and staged as far as it passes (R533); one to an own page
is staged even if nothing of it passes (R340). -/
def State.judgeWrite (s : State) (p : Path) (agent a : Nat) (m v : Word) (r : RegRow) : State :=
  let j := s.bars p a m v (s.judgeRow p a m v r)
  let t := s.countJudged p a j
  if j.mask = 0 ∧ s.ownPage agent a = false then t else t.acceptWrite ⟨p, agent, a, j.mask, v⟩

/-- A write to a page by an agent that does not own it is an isolation fault (R336); paths H and S are refused by their path. -/
def State.pageRefused (s : State) (p : Path) (agent a : Nat) (r : RegRow) : Bool :=
  inPages a && (decide (p = .fw) || (decide (p = .t) && r.flds.any (fun f => s.fieldOpen p a f))) && !(s.ownPage agent a)

/-- Whether a write is the ZERO command of a page (R338). -/
def State.zeroOp (s : State) (a : Nat) (m v : Word) : Bool :=
  let p := a / 256 % 256
  decide (a = R.CIP_CMD p) && decide (s.newVal (R.CIP_CMD_OP p) m v = 2)

/-- A write over the register bus (R9, R11-R14, R22, R528, R533). -/
def State.busWrite (s : State) (p : Path) (agent a : Nat) (m v : Word) : State :=
  match rowAt a with
  | none => s.refuse .unmapped p a
  | some r =>
    if s.pageRefused p agent a r then s.cipFault (a / 256 % 256) agent
    else if p = .fw ∧ a = R.DIR_CMD ∧ s.on R.PRT_CTL_DIRHOLD then s
    else if s.ownPage agent a = true ∧ (s.page (a / 256 % 256)).busy = true ∧ s.zeroOp a m v = false then s.bump R.CIP_CNT_BUSYERR
    else s.judgeWrite p agent a m v r

/-- The owner code with which a path reaches banks and pages (R25, R336, R533). -/
def agentOf (p : Path) (cpu : Nat) : Nat := match p with | .fw => cpu + 1 | .t => 14 | _ => 0

/-- The word that a masked write leaves in SRAM, written through the bank's port (R27, R533). -/
def State.sramWrite (s : State) (agent a : Nat) (m v : Word) : State :=
  if a % 4 = 0 ∧ a + 4 ≤ sramEnd then
    let old := BitVec.ofNat 32 (leNat ((List.range 4).map (fun i => s.byte (a + i))))
    s.portWrite { agent := agent, addr := a, wr := some (leBytes 4 ((old &&& ~~~ m) ||| (v &&& m)).toNat), len := 0, err := 0 }
  else s

/-- A narrow write to a register address (R9): it writes nothing; at an address of no register it is unmapped (R22), and to a page of
another owner it is an isolation fault (R336). -/
def State.narrowWrite (s : State) (p : Path) (agent a : Nat) : State :=
  match rowAt (a / 4 * 4) with
  | none => s.refuse .unmapped p a
  | some r => if s.pageRefused p agent a r then s.cipFault (a / 256 % 256) agent else s

/-- A write over the register bus by a path that is open (R9, R533): paths H and S reach no SRAM address; firmware and path T reach it as
their owner codes. -/
def State.pathWrite (s : State) (p : Path) (agent a : Nat) (mask value : Word) (narrow : Bool) : State :=
  if a < sramEnd then
    if p = .h ∨ p = .s then s.refuse .path p a
    else if narrow then s
    else s.sramWrite agent a mask value
  else if narrow then s.narrowWrite p agent a
  else s.busWrite p agent a mask value

/-- REGISTER_WRITE (R9, R38, R533). -/
def execRegisterWrite (p : Path) (cpu : Fin 4) (addr : Nat) (mask value : Word) (narrow : Bool) (s : State) : Out :=
  .next (s.receive (.registerWrite p cpu addr mask value narrow) (fun s =>
    if s.pathOpen p = false then s else s.pathWrite p (agentOf p cpu) addr mask value narrow))

/-- UNMAPPED_ACCESS (R22, R38, R528): the 4-byte word that an access addresses is no register's. -/
def execUnmappedAccess (p : Path) (addr : Nat) (s : State) : Out :=
  .next (s.receive (.unmappedAccess p addr) (fun s =>
    if s.pathOpen p = true ∧ sramEnd ≤ addr ∧ (rowAt (addr / 4 * 4)).isNone = true then s.refuse .unmapped p addr else s))

/-! ### Commit -/

/-- The bits of a register that a 1 written clears (R11): each bit of a W1C field, or all of a counter at its lowest bit; VALID of
the counted captures takes COUNT with it, and CUTS takes PEAK (R35, R61, R352, R535). -/
def clearedBits (r : RegRow) (a : Nat) (m v : Word) : Word :=
  let c := r.flds.foldl (fun (w : Word) f =>
    let k : Fld := ⟨a, f.lo, f.w⟩
    match f.acc with
    | .w1c => w ||| (k.mask &&& m &&& v)
    | .w1cField => if (m &&& v).getLsbD f.lo then w ||| k.mask else w
    | _ => w) 0
  if a = R.PROC_LOCKV ∨ a = R.PROC_PATHREF ∨ a = R.PROC_UNMAP then
    (if c.getLsbD 31 then c ||| R.PROC_LOCKV_COUNT.mask else c)
  else if a = R.BNK_FAULT then (if c.getLsbD 31 then c ||| R.BNK_FAULT_COUNT.mask else c)
  else if a = R.CIP_FAULT then (if c.getLsbD 31 then c ||| R.CIP_FAULT_COUNT.mask else c)
  else if (idxOf (R.TSQ_OVR 0) 4 48 a).isSome then (if c.getLsbD 0 then c ||| (R.TSQ_OVR_PEAK 0).mask else c)
  else c

/-- The bits of a register that a write sets to what it gives: RW and RWL fields, and the staged half of the RTC (R11, R508). -/
def plainBits (r : RegRow) (a : Nat) : Word :=
  r.flds.foldl (fun (w : Word) f =>
    if f.acc = .rw ∨ f.acc = .rwl ∨ a = R.RTC_SETHI then w ||| Fld.mask ⟨a, f.lo, f.w⟩ else w) 0

/-- A directory command latched (R125): BUSY, its window in the tick that starts; a later write of OP in the same commit is an RWL
violation. -/
def State.dirLatch (s : State) (p : Path) (op : Nat) : State :=
  if s.on R.DIR_CMD_BUSY then s.refuse .lock p R.DIR_CMD
  else { s.set R.DIR_CMD_BUSY 1 with val := { s.val with dirCmd := some (op, 0, 0, 0, 0, s.now + 1) } }

/-- The arguments of the commands latched in this commit, as all its writes leave them (R125, R408). -/
def State.latchArgs (s : State) : State :=
  let a := fun n => s.get (R.DIR_ARG_ARG n)
  let t := match s.val.dirCmd with
    | some (op, _, _, _, _, k) =>
      if k = s.now + 1 then { s with val := { s.val with dirCmd := some (op, a 0, a 1, a 2, a 3, k) } } else s
    | none => s
  t.acctArgs.evArgs

/-- Writes of BNK_CTL and of the queue registers committed (R28, R29, R84, R86, R87). -/
def State.hookFabric (p : Path) (a : Nat) (m v : Word) (s : State) : State :=
  match idxOf (R.BNK_CTL 0) 4 48 a with
  | some b =>
    let own := s.newVal (R.BNK_CTL_OWNER b) m v
    let pwr := s.newVal (R.BNK_CTL_PWR b) m v
    let t := if (R.BNK_CTL_OWNER b).hit m then s.handover p b own else s
    if (R.BNK_CTL_PWR b).hit m then t.power p b pwr else t
  | none =>
    match idxOf (R.QUE_CTL 0) 32 32 a with
    | some q =>
      let mode := s.newVal (R.QUE_CTL_MODE q) m v
      let t := if (R.QUE_CTL_MODE q).hit m then s.changeMode q (decide (mode = 1)) else s
      t.mergeWord a (m &&& ((R.QUE_CTL_EN q).mask ||| (R.QUE_CTL_FENCE q).mask ||| (R.QUE_CTL_XMAP q).mask)) v
    | none =>
      match (List.range 32).find? (fun q => decide (R.QUE_RING q = a)) with
      | some q => if (R.QUE_RING_RPTR q).hit m then s.advanceRing q (s.newVal (R.QUE_RING_RPTR q) m v) else s
      | none => s

/-- Writes of the time unit's registers committed (R275, R279, R287, R289). -/
def State.hookTime (p : Path) (a : Nat) (m v : Word) (s : State) : State :=
  if a = R.TIM_CTL then
    let t := s.mergeWord a (m &&& ~~~ R.TIM_CTL_REARM.mask) v
    if R.TIM_CTL_REARM.hit (m &&& v) then t.rearm else t
  else if a = R.TIM_ADDLO then
    let t := s.mergeWord a m v
    { t with tim := { t.tim with addLo := t.get R.TIM_ADDLO_ADD } }
  else if a = R.TIM_ADDHI then s.setAddend (s.tim.addLo + s.newVal R.TIM_ADDHI_ADD m v * 2 ^ 32)
  else if a = R.TIM_TSQKEY then s.tsqSearch (s.newVal ⟨a, 0, 22⟩ m v)
  else match idxOf (R.TIM_TRGN 0) 16 4 a with
    | some k => s.armTrigger p k (s.newVal (R.TIM_TRGN_NS k) m v)
    | none =>
      let t := s.mergeWord a m v
      match idxOf (R.TIM_TRGCTL 0) 16 4 a with
      | some k =>
        if t.get (R.TIM_TRGCTL_MODE k) = 1 ∨ t.get (R.TIM_TRGCTL_MODE k) = 2 then t
        else { t with tim := { t.tim with trig := SMap.del t.tim.trig k } }
      | none => t

/-- Writes of the perturbation registers committed (R522-R524). -/
def State.hookTest (a : Nat) (m v : Word) (s : State) : State :=
  if a = R.PRT_SKEW then State.writeSkew v m s
  else if a = R.PRT_NAND then State.writeNand v m s
  else if a = R.PRT_TAG then State.writeTag v m s
  else if a = R.PRT_LOOP then State.applyLoop v m s
  else if a = R.PRT_PLCDROP then
    let t := s.mergeWord a m v
    let p := t.get R.PRT_PLCDROP_PORT
    if R.PRT_PLCDROP_FRAMES.hit m then t.putPlc p { t.plcPort p with drops := t.get R.PRT_PLCDROP_FRAMES } else t
  else s.mergeWord a m v

/-- Writes of cipher page registers committed (R340): none but ZERO while the page is BUSY. -/
def State.hookPage (a : Nat) (m v : Word) (s : State) : State :=
  let p := a / 256 % 256
  let op := if a = R.CIP_CMD p then s.newVal (R.CIP_CMD_OP p) m v else 0
  if op = 2 then s.zeroPage p
  else if (s.page p).busy then s.bump R.CIP_CNT_BUSYERR
  else if op = 1 then s.startJob p
  else if op = 3 then s.settleJob p true
  else if op = 4 then s.settleJob p false
  else (s.mergeWord a m v).putPage p (s.page p)

/-- Writes of the command registers of the other blocks committed. -/
def State.hookCommand (p : Path) (agent a : Nat) (m v : Word) (s : State) : State :=
  let one := (m &&& v).getLsbD 0
  if a = R.DIR_CMD then s.dirLatch p (s.newVal R.DIR_CMD_OP m v)
  else if a = R.CHG_ACMD then
    (if s.on R.CHG_ACMD_BUSY then s.refuse .lock p a else s.acctLatch (s.newVal R.CHG_ACMD_OP m v))
  else if a = R.CHG_AUTH 0 ∨ a = R.CHG_AUTH 1 then
    let o := if a = R.CHG_AUTH 0 then 0 else 1
    s.authOp o (s.newVal (R.CHG_AUTH_OP o) m v) (s.newVal (R.CHG_AUTH_ACCT o) m v)
  else if a = R.EVR_CMD then
    (if s.on R.EVR_CMD_BUSY then s.refuse .lock p a else s.evLatch p (s.newVal R.EVR_CMD_OP m v))
  else if a = R.KEY_LDCMD then
    (if R.KEY_LDCMD_PURPOSE.hit m then
      { s with sec := { s.sec with loads := s.sec.loads ++
        [⟨agent, s.newVal R.KEY_LDCMD_PAGE m v, s.newVal R.KEY_LDCMD_PURPOSE m v, s.get R.KEY_LDGEN_GEN⟩] } }
    else s)
  else if a = R.BAL_RPTPOP then (if one then s.reportPop p else s)
  else if a = R.NRG_CTL then
    let t := s.mergeWord a (m &&& R.NRG_CTL_SAVEP.mask) v
    if R.NRG_CTL_ADD.hit (m &&& v) then t.baseAdd p else t
  else if a = R.SIL_CLR then (if one then s.set R.SIL_TOTAL_TOTAL 0 else s)
  else if (idxOf (R.VAL_LAT 0) 4 4 a).isSome then (if (m &&& v).getLsbD 31 then s.set ⟨a, 0, 9⟩ 0 else s)
  else if a = R.FTL_FENCE then (if one then s.fenceBy p else s)
  else if a = R.FTL_CMD then s.formatRun
  else if a = R.UPD_CONFIRM then (if one then s.confirm else s)
  else if a = R.ISL_WDKICK then s.wdKick (s.newVal R.ISL_WDKICK_KEY m v)
  else if a = R.RTC_SETLO then s.rtcStage (s.newVal R.RTC_SETLO_SEC m v)
  else s.mergeWord a m v

/-- What the bits of a write that are neither W1C nor read-only do when it is committed. -/
def State.hook (w : Staged) (m : Word) (s : State) : State :=
  let b := w.addr / 65536
  if b = R.BNK_CTL 0 / 65536 ∧ (idxOf (R.BNK_CTL 0) 4 48 w.addr).isSome then s.hookFabric w.path w.addr m w.value
  else if b = R.QUE_CTL 0 / 65536 ∧ ((idxOf (R.QUE_CTL 0) 32 32 w.addr).isSome ∨ (List.range 32).any (fun q => decide (R.QUE_RING q = w.addr))) then
    s.hookFabric w.path w.addr m w.value
  else if b = R.TIM_CTL / 65536 then s.hookTime w.path w.addr m w.value
  else if b = R.PRT_CTL / 65536 then s.hookTest w.addr m w.value
  else if inPages w.addr then s.hookPage w.addr m w.value
  else s.hookCommand w.path w.agent w.addr m w.value

/-- The bits of a write that still pass when it is committed: two writes of one tick that share a field or a pair of fields may together
give an encoding that neither gave when it was received (R12). -/
def State.stillLegal (s : State) (w : Staged) (r : RegRow) (m : Word) : Judgement :=
  let j : Judgement := r.flds.foldl (fun j f =>
    let k : Fld := ⟨w.addr, f.lo, f.w⟩
    j.barLock k (!(f.isLegal (s.newVal k m w.value)) && decide (f.acc ≠ .ro))) { mask := m }
  s.bars w.path w.addr m w.value j

/-- One write committed: its clears, then what its other bits do.  The bits cleared are kept for R534. -/
def State.commitWrite (x : State × List (Nat × Word)) (w : Staged) : State × List (Nat × Word) :=
  match if x.1.up then rowAt w.addr else none with
  | none => x
  | some r =>
    let c := clearedBits r w.addr w.mask w.value
    let t := if c = 0 then x.1 else x.1.setWord w.addr (x.1.word w.addr &&& ~~~ c)
    let wo := r.flds.foldl (fun (n : Word) f => if f.acc = .wo then n ||| Fld.mask ⟨w.addr, f.lo, f.w⟩ else n) 0
    let j := t.stillLegal w r (w.mask &&& (plainBits r w.addr ||| wo))
    let m := j.mask
    let t := t.countJudged w.path w.addr j
    (if m = 0 ∧ inPages w.addr = false then t else t.hook w m, if c = 0 then x.2 else (w.addr, c) :: x.2)

/-- Whether a field has been cleared in this commit. -/
def wasCleared (l : List (Nat × Word)) (f : Fld) : Bool := l.any (fun e => decide (e.1 = f.addr) && f.hit e.2)

/-- An occurrence of the tick that comes after the clears of the same tick (R534). -/
def State.afterClear (l : List (Nat × Word)) (s : State) (o : Occ) : State :=
  match o with
  | .count f n => if wasCleared l f then s.set f (satAdd f.w (s.get f) n) else s
  | .capture valid vals => if wasCleared l valid && !(s.on valid) then (s.setAll vals).set valid 1 else s

/-- The writes received in a tick committed (R14, R532): firmware, then A, H, T and S, each in arrival order; the occurrences of the
tick follow the clears (R534). -/
def State.commitWrites (s : State) : State :=
  let l := pathRank.flatMap (fun p => s.staged.filter (fun w => decide (w.path = p)))
  let occ := s.occ
  let x := l.foldl State.commitWrite ({ s with staged := [], late := [], occ := [] }, [])
  let t := (occ.foldl (State.afterClear x.2) x.1).latchArgs
  { t with staged := s.late ++ t.late, late := [], occ := [] }

end Sys2Proof.Machine
end

