-- ==== Sys2Proof/Machine/Mgmt.lean ====
section
/-!
DEFINITION. Management messages of the head end and of the SVC port (R323, R324, R495), and TESTACC of the JTAG port (R517).
-/
namespace Sys2Proof.Machine

/-! ### Items (R323, R324) -/

/-- Item `i` of a body. -/
def itemAt (b : List Byte) (i : Nat) : List Byte := sliceB b (20 * i) 20

/-- A body is 1 to 32 items whose kinds and reserved bytes are as R323 lays out; FIND and RPLREAD stand alone. -/
def mgmtForm (read : Bool) (b : List Byte) : Bool :=
  let n := b.length / 20
  decide (b.length = 20 * n ∧ 1 ≤ n ∧ n ≤ 32) &&
    (List.range n).all (fun i =>
      let it := itemAt b i
      if leAt it 0 1 = 1 then
        decide (leAt it 1 3 = 0 ∧ leAt it 16 4 = 0) && (!read || decide (leAt it 8 8 = 0))
      else if leAt it 0 1 = 2 then
        !read && decide (leAt it 2 2 = 0) && (decide (leAt it 1 1 ≠ 7 ∧ leAt it 1 1 ≠ 10) || decide (n = 1))
      else false)

/-- A body holds a directory item. -/
def hasDirItem (b : List Byte) : Bool := (List.range (b.length / 20)).any (fun i => decide (leAt (itemAt b i) 0 1 = 2))

/-- The bits of a register that a path may write, or may read (R324, R531). -/
def State.openBits (s : State) (p : Path) (read : Bool) (a : Nat) (r : RegRow) : Word :=
  let all := read && decide (p = .s) && decide (s.get R.KEY_LC_STATE ≠ lcField ∧ s.get R.KEY_LC_STATE ≠ 4) && !(inPages a)
  r.flds.foldl (fun (w : Word) f => if all ∨ f.paths &&& pathBit p ≠ 0 then w ||| Fld.mask ⟨a, f.lo, f.w⟩ else w) 0

/-- A register item: its status, and the state after its write (R22, R324, R533). -/
def State.regItem (s : State) (p : Path) (read : Bool) (it : List Byte) : Nat × State :=
  let a := leAt it 4 4
  let v := BitVec.ofNat 32 (leAt it 8 4)
  let m := BitVec.ofNat 32 (leAt it 12 4)
  if a < sramEnd then (stPath, if read then s else s.refuse .path p a)
  else
    match rowAt a with
    | none => (stUnmapped, s.refuse .unmapped p a)
    | some r =>
      let o := s.openBits p read a r
      let t := if read then s else s.busWrite p 0 a m v
      (if o = 0 then stPath else if read = false ∧ m &&& ~~~ o ≠ 0 then stPartial else stOk, t)

/-- A directory item that is carried out (R126, R323, R324): WRSTAT and RPLLINE, and any over SVC, give BADREQ. -/
def dirItemOk (p : Path) (it : List Byte) : Bool :=
  decide (leAt it 0 1 = 2 ∧ p = .h ∧ leAt it 1 1 ≠ 9 ∧ leAt it 1 1 ≠ 12)

/-- The directory items of a body that are carried out, in order. -/
def dirItems (p : Path) (b : List Byte) : List Nat := (List.range (b.length / 20)).filter (fun i => dirItemOk p (itemAt b i))

/-- One item taken: the 8 bytes of its response, with the value of a register and the result of a directory command still to come, and the
state. -/
def State.mgmtItem (s : State) (p : Path) (read : Bool) (it : List Byte) : List Byte × State :=
  let r : Nat × State :=
    if leAt it 0 1 = 1 then s.regItem p read it else (if dirItemOk p it then stOk else stBadreq, s)
  let t := r.2.wrapBy R.SUP_MGMT_ITEMS 1
  let t := if p = .h ∧ (r.1 = stPath ∨ r.1 = stPartial) then t.bump R.SUP_MGMT_PATHREF else t
  (BitVec.ofNat 8 r.1 :: List.replicate 7 0#8, t)

/-- The items of a message in order. -/
def State.mgmtItems (s : State) (p : Path) (read : Bool) (b : List Byte) : List Byte × State :=
  (List.range (b.length / 20)).foldl (fun (x : List Byte × State) i =>
    let r := x.2.mgmtItem p read (itemAt b i)
    (x.1 ++ r.1, r.2)) ([], s)

/-- The response to a message whose items have been executed: the status of the first item that did not return OK, and the values
committed (R322, R324). -/
def State.mgmtBody (s : State) (p : Path) (b resp : List Byte) : List Byte :=
  let n := b.length / 20
  let items := (List.range n).flatMap (fun i =>
    let it := itemAt b i
    let r := sliceB resp (8 * i) 8
    if leAt it 0 1 = 1 ∧ (leAt r 0 1 = stOk ∨ leAt r 0 1 = stPartial) then r.take 4 ++ leBytes 4 (s.pathRead p (leAt it 4 4)).toNat else r)
  let st := ((List.range n).find? (fun i => decide (leAt resp (8 * i) 1 ≠ stOk))).elim stOk (fun i => leAt resp (8 * i) 1)
  respBody st (items ++ resp.drop (8 * n))

/-- The tick of whose start the values are: the one after the commit of the message's writes (R38, R324). -/
def State.mgmtDue (s : State) : Nat := s.now + 1

/-! ### The head end -/

/-- The directory items of a request that firmware has still to carry out. -/
def State.putDirs (s : State) (r : Req) (l : List Nat) : State :=
  { s with sup := { s.sup with reqs := s.sup.reqs.map (fun x =>
      if x.reqid = r.reqid ∧ x.sess = r.sess then { x with dirs := l } else x) } }

/-- A MGMT request carried out: its register items at once, its directory items one after another (R125, R324). -/
def State.runMgmt (read : Bool) (r : Req) (s : State) : State :=
  if mgmtForm read r.body then
    let x := s.mgmtItems .h read r.body
    ((x.2.startReq r x.1 x.2.mgmtDue).putDirs r (dirItems .h r.body)).dirIssue
  else s.answer r (respBody stBadreq [])

/-- MGMT_READ (R323, R324). -/
def execMgmtRead (d : Option Dgram) (s : State) : Out :=
  .next (s.receive (.mgmtRead d) (fun s => s.request d 4 (fun _ => true) (State.runMgmt true)))

/-- MGMT_WRITE (R323, R324): a message with directory items waits while the test interface holds the directory (R524). -/
def execMgmtWrite (d : Option Dgram) (s : State) : Out :=
  .next (s.receive (.mgmtWrite d) (fun s => s.request d 5 (fun r => !(s.on R.PRT_CTL_DIRHOLD && hasDirItem r.body)) (State.runMgmt false)))

/-! ### The SVC port -/

/-- A management message over SVC. -/
def State.svcMgmt (s : State) (read : Bool) (req : Nat) (b : List Byte) : State :=
  let ty := if read then 4 else 5
  if mgmtForm read b then
    let x := s.mgmtItems .s read b
    let r : Req := { sess := 0, ty := ty, reqid := req, seq := 0, body := b, started := true, resp := x.1, due := x.2.mgmtDue }
    { x.2 with svc := { x.2.svc with reqs := x.2.svc.reqs ++ [r] } }
  else s.svcSend ty req (respBody stBadreq [])

/-- The staged image of a kind checked again (R465, R495): the HRES code, 1 when it passes. -/
def State.recheck (s : State) (kind : Nat) : Nat :=
  let b := imageOf (s.flacon kind)
  let r := s.headerCheck (b.take 256) (leAt b 8 4) b.length
  if r ≠ 1 then r else if imageHashOk b then 1 else 8

/-- The signature check of a staged image, counted (R380). -/
def State.countRecheck (s : State) (kind : Nat) : State :=
  let b := imageOf (s.flacon kind)
  s.countHeader (s.headerCheck (b.take 256) (leAt b 8 4) b.length)

/-- ACTIVATE in SAFE (R495): the staged image checked again, the record written with TRIAL clear, and a die reset. -/
def State.safeActivate (s : State) (req : Nat) (b : List Byte) : State :=
  if b.length ≠ 8 ∨ leAt b 4 4 ≠ 0 then s.svcSend 8 req (respBody stBadreq [])
  else
    match s.activation (leAt b 0 4) with
    | none => s.svcSend 8 req (respBody stNotfound [])
    | some kinds =>
      let s := kinds.foldl State.countRecheck s
      match (kinds.map s.recheck).find? (fun c => decide (c ≠ 1)) with
      | some c => (s.set R.UPD_STAT_HRES c).svcSend 8 req (respBody stRefused [])
      | none =>
        let r := s.nor.record
        let f := kinds.contains 1
        let c := kinds.contains 2
        let t := s.putRecord { r with
          fslot := if f then 1 - r.fslot else r.fslot, cslot := if c then 1 - r.cslot else r.cslot, flags := 2 * b2n f + 4 * b2n c,
          fver := if f then leAt (s.flacon 1) 16 4 else r.fver, cver := if c then leAt (s.flacon 2) 16 4 else r.cver }
        (t.evLose.dieReset 3).svcSend 8 req (respBody stOk [])

/-- A whole message that the SVC port takes. -/
def State.svcTake (s : State) (m : List Byte) : State :=
  let ty := leAt m 0 1
  let req := leAt m 2 4
  let b := m.drop 8
  if ty = 4 ∨ ty = 5 then s.svcMgmt (decide (ty = 4)) req b
  else if ty = 6 then s.kupArrive (.svc req) b
  else if s.on R.CFG_STAT_SAFE = false then s
  else if ty = 7 then
    let c := s.chunkResp b
    c.2.svcSend 7 req c.1
  else if ty = 8 then s.safeActivate req b
  else s

/-- SVC_MESSAGE (R495): a request whose header is as laid out; any other message is dropped. -/
def execSvcMessage (bytes : List Byte) (s : State) : Out :=
  .next (s.receive (.svcMessage bytes) (fun s =>
    if s.svc.vbus = true ∧ 8 ≤ bytes.length ∧ leAt bytes 1 1 = 0 ∧ leAt bytes 6 2 = bytes.length - 8 ∧ bytes.length ≤ 1240 then
      s.svcTake bytes
    else s))

/-- SVC_VBUS_CHANGE (R37, R51, R549): the pull-up of DP is on while SVC_VBUS exceeds 4.0 V; sampled in a capture phase, and driven at cycle
0 of the next tick. -/
def execSvcVbusChange (up : Bool) (s : State) : Out :=
  .next (
    let b := [if up then 1#8 else 0#8]
    let f := fun (s : State) => { s with svc := { s.svc with vbus := up } }
    if s.up then s.sense (.svcVbusChange up) (fun s => (f s).drive (.pin "SVC_DP_PULLUP") b)
    else (f s).send (.pin "SVC_DP_PULLUP") b)

/-! ### Answers -/

/-- The management messages whose values are now committed, and whose last directory command has completed, are answered (R324). -/
def State.answerMgmt (s : State) : State :=
  let s := s.dirIssue
  let t := (s.svc.reqs.filter (fun (r : Req) => decide (r.due ≤ s.now))).foldl (fun (t : State) (r : Req) =>
    t.svcSend r.ty r.reqid (t.mgmtBody .s r.body r.resp)) s
  let t : State := { t with svc := { t.svc with reqs := t.svc.reqs.filter (fun (r : Req) => decide (s.now < r.due)) } }
  (t.sup.reqs.filter (fun (r : Req) => r.started && decide ((r.ty = 4 ∨ r.ty = 5) ∧ r.due ≤ s.now ∧ r.dirs = [] ∧ r.cur = none))).foldl
    (fun (t : State) (r : Req) => t.answer r (t.mgmtBody .h r.body r.resp)) t

/-! ### TESTACC -/

/-- The word that path T reads (R22, R27, R336, R531). -/
def State.testRead (s : State) (a : Nat) : Word × State :=
  let r0 := a / 4 * 4
  if r0 + 4 ≤ sramEnd then
    let r := s.portRead true { agent := 14, addr := r0, wr := none, len := 4, err := 0 }
    (addressed a (BitVec.ofNat 32 (leNat r.1)), r.2)
  else match rowAt r0 with
    | none => (0, s.refuse .unmapped .t a)
    | some _ =>
      if inPages r0 ∧ s.pageOwner (a / 256 % 256) ≠ 14 then (0, s.cipFault (a / 256 % 256) 14)
      else (addressed a (s.pathRead .t r0), s)

/-- A write by path T over TESTACC (R9, R517): one that is not of a whole register, at an address that is not its own, writes nothing. -/
def State.testWrite (s : State) (a : Nat) (v : Word) : State :=
  if a < sramEnd then s.sramWrite 14 a (BitVec.allOnes 32) v
  else if a % 4 = 0 then s.busWrite .t 14 a (BitVec.allOnes 32) v
  else s.narrowWrite .t 14 a

/-- An access by path T, its read shifted out at TDO. -/
def State.testAccess (s : State) (a : Nat) (wr : Option Word) : State :=
  match wr with
  | some v =>
    let t := s.testWrite a v
    { t with jtag := { t.jtag with ir := 4 } }
  | none =>
    let r := s.testRead a
    ({ r.2 with jtag := { r.2.jtag with ir := 4, rd := r.1 } }).send (.pin "TDO") (leBytes 4 r.1.toNat)

/-- TESTACC (R38, R517): an access by path T in TEST, and in FIELD while a window is open; elsewhere it acts as BYPASS. -/
def execTestacc (addr : Nat) (wr : Option Word) (s : State) : Out :=
  .next (s.jtagRun (fun s =>
    if s.up && s.pathOpen .t then s.receive (.testacc addr wr) (fun s => s.testAccess addr wr) else s.jtagBypass false))

end Sys2Proof.Machine
end

