-- ==== Sys2Proof/Machine/Writes.lean ====
section
/-!
DEFINITION. The commands that are writes of one register: each reaches its block as any write does (R11-R14, R38, R533), is judged on
receipt, staged, and has its effect when it is committed.
-/
namespace Sys2Proof.Machine

/-- A write of the bits of `mask` by a path, if it is open (R13). -/
def State.wordWrite (s : State) (p : Path) (agent a : Nat) (mask value : Word) : State :=
  if s.pathOpen p then s.busWrite p agent a mask value else s

/-- A write of one field by a path. -/
def State.fieldWrite (s : State) (p : Path) (f : Fld) (v : Nat) : State := s.wordWrite p (agentOf p 0) f.addr f.mask (f.write 0 v)

/-! ### Banks and queues -/

/-- BANK_OWNER_HANDOVER (R26, R28): a write of BNK_CTLn.OWNER. -/
def execBankOwnerHandover (p : Path) (bank : Fin 48) (owner : Fin 32) (s : State) : Out :=
  .next (s.receive (.bankOwnerHandover p bank owner) (fun s => s.fieldWrite p (R.BNK_CTL_OWNER bank) owner))

/-- BANK_POWER_CHANGE (R29): a write of BNK_CTLn.PWR. -/
def execBankPowerChange (p : Path) (bank : Fin 48) (pwr : Fin 4) (s : State) : Out :=
  .next (s.receive (.bankPowerChange p bank pwr) (fun s => s.fieldWrite p (R.BNK_CTL_PWR bank) pwr))

/-- QUEUE_MODE_CHANGE (R87, R93): a write of QUE_CTLn.MODE. -/
def execQueueModeChange (p : Path) (q : Fin 32) (mode : Bool) (s : State) : Out :=
  .next (s.receive (.queueModeChange p q mode) (fun s => s.fieldWrite p (R.QUE_CTL_MODE q) (b2n mode)))

/-- RING_READ_ADVANCE (R86, R93): a write of QUE_RINGn.RPTR. -/
def execRingReadAdvance (p : Path) (q : Fin 32) (rptr : Fin 2048) (s : State) : Out :=
  .next (s.receive (.ringReadAdvance p q rptr) (fun s => s.fieldWrite p (R.QUE_RING_RPTR q) rptr))

/-- QUEUE_FENCE_FLAG_CHANGE (R84): a write of QUE_CTLn.FENCE; the records at or behind the queue head follow it. -/
def execQueueFenceFlagChange (p : Path) (q : Fin 32) (v : Bool) (s : State) : Out :=
  .next (s.receive (.queueFenceFlagChange p q v) (fun s => s.fieldWrite p (R.QUE_CTL_FENCE q) (b2n v)))

/-! ### Balance, metering, ledger, events -/

/-- REPORT_POP (R154, R156): a write of 1 to BAL_RPTPOP. -/
def execReportPop (p : Path) (s : State) : Out := .next (s.receive (.reportPop p) (fun s => s.fieldWrite p R.BAL_RPTPOP_POP 1))

/-- ENERGY_BASE_ADD (R178, R191): a write of 1 to NRG_CTL.ADD. -/
def execEnergyBaseAdd (p : Path) (s : State) : Out := .next (s.receive (.energyBaseAdd p) (fun s => s.fieldWrite p R.NRG_CTL_ADD 1))

/-- SILLAGE_TOTAL_CLEAR (R187): a write of 1 to SIL_CLR.CLR. -/
def execSillageTotalClear (p : Path) (s : State) : Out :=
  .next (s.receive (.sillageTotalClear p) (fun s => s.fieldWrite p R.SIL_CLR_CLR 1))

/-- FENCE_ISSUE (R429, R430, R443): a write of 1 to FTL_FENCE.ISSUE, or a request by the command port of the head-end protocol
engine. -/
def execFenceIssue (p : Option Path) (s : State) : Out :=
  .next (match p with
    | none => s.run State.issueFence
    | some p => s.receive (.fenceIssue (some p)) (fun s => s.fieldWrite p R.FTL_FENCE_ISSUE 1))

/-- FORMAT (R439, R441): a write of FTL_CMD.OP. -/
def execFormat (p : Path) (s : State) : Out := .next (s.receive (.format p) (fun s => s.fieldWrite p R.FTL_CMD_OP 1))

/-- FLUSH (R454): a write of EVR_CMD.OP. -/
def execFlush (p : Path) (s : State) : Out := .next (s.receive (.flush p) (fun s => s.fieldWrite p R.EVR_CMD_OP 2))

/-- READ (R460): a write of EVR_CMD.OP. -/
def execRead (p : Path) (s : State) : Out := .next (s.receive (.read p) (fun s => s.fieldWrite p R.EVR_CMD_OP 3))

/-- CLEAR (R459): a write of EVR_CMD.OP. -/
def execClear (p : Path) (s : State) : Out := .next (s.receive (.clear p) (fun s => s.fieldWrite p R.EVR_CMD_OP 4))

/-! ### Time -/

/-- TIME_STEP_REQUEST (R279): a write of TIM_STEPNS. -/
def execTimeStepRequest (p : Path) (ns : BitVec 31) (s : State) : Out :=
  .next (s.receive (.timeStepRequest p ns) (fun s => s.fieldWrite p R.TIM_STEPNS_NS ns.toNat))

/-- STEP_REARM (R279): a write of 1 to TIM_CTL.REARM. -/
def execStepRearm (p : Path) (s : State) : Out := .next (s.receive (.stepRearm p) (fun s => s.fieldWrite p R.TIM_CTL_REARM 1))

/-- ADDEND_APPLY (R275): a write of TIM_ADDHI. -/
def execAddendApply (p : Path) (hi : BitVec 32) (s : State) : Out :=
  .next (s.receive (.addendApply p hi) (fun s => s.fieldWrite p R.TIM_ADDHI_ADD hi.toNat))

/-- TIMESTAMP_SEARCH (R287, R297): a write of TIM_TSQKEY. -/
def execTimestampSearch (p : Path) (key : BitVec 32) (s : State) : Out :=
  .next (s.receive (.timestampSearch p key) (fun s => s.wordWrite p (agentOf p 0) R.TIM_TSQKEY 0x3FFFFF key))

/-- TRIGGER_ARM (R288, R289): a write of TIM_TRGNk. -/
def execTriggerArm (p : Path) (k : Fin 4) (ns : BitVec 30) (s : State) : Out :=
  .next (s.receive (.triggerArm p k ns) (fun s => s.fieldWrite p (R.TIM_TRGN_NS k) ns.toNat))

/-! ### Keys, outlets, start-up, island -/

/-- The path by which an owner of pages or of banks writes registers: firmware and the test interface over the register bus; the other
owners have command ports (R340). -/
def busPath (agent : Nat) : Option Path := if 1 ≤ agent ∧ agent ≤ 4 then some .fw else if agent = 14 then some .t else none

/-- A command on a page (R336, R340): a write of CIP_CMD by firmware and by path T; by any other owner at once, through its command
port. -/
def State.pageCommand (s : State) (agent page op : Nat) (i : Instr) (f : State → State) : State :=
  match busPath agent with
  | some p => s.receive i (fun s => s.wordWrite p agent (R.CIP_CMD page) 7 (BitVec.ofNat 32 op))
  | none => s.run (fun s => s.byOwner agent page f)

/-- CIP_START (R340, R342); `regs` are registers of the page, by offset, that a hardware owner writes before it through its command port. -/
def execCipStart (agent : Fin 32) (page : Fin 256) (regs : List (Nat × BitVec 32)) (s : State) : Out :=
  .next (s.pageCommand agent page 1 (.cipStart agent page regs) (fun s =>
    (regs.foldl (fun t w => t.portReg page w) s).startJob page))

/-- CIP_ZERO (R338, R350). -/
def execCipZero (agent : Fin 32) (page : Fin 256) (s : State) : Out :=
  .next (s.pageCommand agent page 2 (.cipZero agent page) (fun s => s.zeroPage page))

/-- CIP_COMMIT (R349). -/
def execCipCommit (agent : Fin 32) (page : Fin 256) (s : State) : Out :=
  .next (s.pageCommand agent page 3 (.cipCommit agent page) (fun s => s.settleJob page true))

/-- CIP_ABANDON (R349). -/
def execCipAbandon (agent : Fin 32) (page : Fin 256) (s : State) : Out :=
  .next (s.pageCommand agent page 4 (.cipAbandon agent page) (fun s => s.settleJob page false))

/-- KEY_LOAD (R365, R378): firmware and path T write KEY_LDCMD; the hardware owners use their command port. -/
def execKeyLoad (agent : Fin 32) (page : Fin 256) (purpose : Fin 16) (gen : BitVec 32) (s : State) : Out :=
  let w := BitVec.ofNat 32 (page.val + 256 * purpose.val)
  .next (
    if 1 ≤ agent.val ∧ agent.val ≤ 4 then
      s.receive (.keyLoad agent page purpose gen) (fun s => s.wordWrite .fw agent R.KEY_LDCMD 0xFFF w)
    else if agent.val = 14 then s.receive (.keyLoad agent page purpose gen) (fun s => s.wordWrite .t 14 R.KEY_LDCMD 0xFFF w)
    else s.run (fun s => (s.loadKey agent page purpose gen.toNat).2))

/-- CREDIT_LIMIT_WRITE (R403, R412): each device second firmware writes the limits of the open sessions. -/
def execCreditLimitWrite (s : State) : Out :=
  .next (s.receive .creditLimitWrite (fun s =>
    let sec := secOf s.tim.start
    if s.task0A ∧ sec ≠ s.chg.limSec then
      [0, 1].foldl (fun (t : State) o => match s.limitNow o with
        | some v => t.fieldWrite .fw (R.CHG_SLIM_LIM o) v
        | none => t) { s with chg := { s.chg with limSec := sec } }
    else s))

/-- A write of CHG_AUTHo with an OP (R410). -/
def State.authWrite (s : State) (p : Path) (o op acct : Nat) : State :=
  s.wordWrite p (agentOf p 0) (R.CHG_AUTH o) 0xFFFF (BitVec.ofNat 32 (acct + 4096 * op))

/-- AUTH_START (R400). -/
def execAuthStart (p : Path) (o : Fin 2) (acct : Fin 4096) (s : State) : Out :=
  .next (s.receive (.authStart p o acct) (fun s => s.authWrite p o 1 acct))

/-- AUTH_STOP (R401). -/
def execAuthStop (p : Path) (o : Fin 2) (s : State) : Out := .next (s.receive (.authStop p o) (fun s => s.authWrite p o 2 0))

/-- AUTH_CLEAR (R399). -/
def execAuthClear (p : Path) (o : Fin 2) (s : State) : Out := .next (s.receive (.authClear p o) (fun s => s.authWrite p o 3 0))

/-- AUTH_DISABLE (R399, R401). -/
def execAuthDisable (p : Path) (o : Fin 2) (s : State) : Out := .next (s.receive (.authDisable p o) (fun s => s.authWrite p o 4 0))

/-- AUTH_ENABLE (R399). -/
def execAuthEnable (p : Path) (o : Fin 2) (s : State) : Out := .next (s.receive (.authEnable p o) (fun s => s.authWrite p o 5 0))

/-- CONFIRM (R472, R474): a write of 1 to UPD_CONFIRM. -/
def execConfirm (p : Path) (s : State) : Out := .next (s.receive (.confirm p) (fun s => s.fieldWrite p R.UPD_CONFIRM_CONFIRM 1))

/-- RTC_SET (R508): a write of RTC_SETLO; the RTC takes the time at cycle 0 of the next tick. -/
def execRtcSet (p : Path) (sec : BitVec 32) (s : State) : Out :=
  .next (s.receive (.rtcSet p sec) (fun s => s.fieldWrite p R.RTC_SETLO_SEC sec.toNat))

/-- WATCHDOG_KICK (R510): a write of ISL_WDKICK. -/
def execWatchdogKick (p : Path) (key : Fin 256) (s : State) : Out :=
  .next (s.receive (.watchdogKick p key) (fun s => s.fieldWrite p R.ISL_WDKICK_KEY key))

/-! ### Perturbations -/

/-- SKEW_START (R522): a write of PRT_SKEW. -/
def execSkewStart (p : Path) (amount : BitVec 16) (step : Fin 16) (s : State) : Out :=
  .next (s.receive (.skewStart p amount step) (fun s =>
    s.wordWrite p (agentOf p 0) R.PRT_SKEW 0xFFFFF (BitVec.ofNat 32 (amount.toNat + step.val * 65536))))

/-- NAND_FAILURE_ARM (R522): a write of PRT_NAND. -/
def execNandFailureArm (p : Path) (kind : Fin 4) (s : State) : Out :=
  .next (s.receive (.nandFailureArm p kind) (fun s =>
    s.wordWrite p (agentOf p 0) R.PRT_NAND 7 (BitVec.ofNat 32 (1 + 2 * kind.val))))

/-- TAG_FAILURE_ARM (R522): a write of PRT_TAG. -/
def execTagFailureArm (p : Path) (tgt : Bool) (page : Fin 256) (q : Fin 32) (s : State) : Out :=
  .next (s.receive (.tagFailureArm p tgt page q) (fun s =>
    s.wordWrite p (agentOf p 0) R.PRT_TAG 0x1FFF03 (BitVec.ofNat 32 (1 + 2 * b2n tgt + 256 * page.val + 65536 * q.val))))

/-- TEST_STEP_REQUEST (R522): a write of PRT_STEPNS. -/
def execTestStepRequest (p : Path) (ns : BitVec 31) (s : State) : Out :=
  .next (s.receive (.testStepRequest p ns) (fun s => s.fieldWrite p R.PRT_STEPNS_NS ns.toNat))

/-- LOOPBACK_SET (R523, R527): a write of PRT_LOOP. -/
def execLoopbackSet (p : Path) (plc : Fin 4) (eth : Fin 8) (ser : Fin 256) (s : State) : Out :=
  .next (s.receive (.loopbackSet p plc eth ser) (fun s =>
    s.wordWrite p (agentOf p 0) R.PRT_LOOP 0xFF73 (BitVec.ofNat 32 (plc.val + 16 * eth.val + 256 * ser.val))))

/-- DIRHOLD (R133, R524): a write of PRT_CTL.DIRHOLD. -/
def execDirhold (p : Path) (v : Bool) (s : State) : Out :=
  .next (s.receive (.dirhold p v) (fun s => s.fieldWrite p R.PRT_CTL_DIRHOLD (b2n v)))

end Sys2Proof.Machine
end

