-- ==== Sys2Proof/Machine/Receive.lean ====
section
/-!
DEFINITION. The inputs of a commit phase (R38), and those that count from the capture phase in which they are first seen (R51): received in
the capture phase of the next tick, in the order in which they came.
-/
namespace Sys2Proof.Machine

/-- What a meaning answers, as a state. -/
def State.after (s : State) (o : Out) : State :=
  match o with
  | .next t => t
  | _ => s

/-- An input that came before this capture phase, received now; only these commands wait. -/
def State.perform (s : State) (i : Instr) : State :=
  match i with
  | .bankOwnerHandover p bank owner => s.after (execBankOwnerHandover p bank owner s)
  | .bankPowerChange p bank pwr => s.after (execBankPowerChange p bank pwr s)
  | .registerWrite p cpu addr mask value narrow => s.after (execRegisterWrite p cpu addr mask value narrow s)
  | .unmappedAccess p addr => s.after (execUnmappedAccess p addr s)
  | .frameOpen q fcnt job => s.after (execFrameOpen q fcnt job s)
  | .frameWordWrite q w => s.after (execFrameWordWrite q w s)
  | .frameErrorRewind q => s.after (execFrameErrorRewind q s)
  | .queueModeChange p q mode => s.after (execQueueModeChange p q mode s)
  | .ringReadAdvance p q rptr => s.after (execRingReadAdvance p q rptr s)
  | .queueFenceFlagChange p q v => s.after (execQueueFenceFlagChange p q v s)
  | .reportPop p => s.after (execReportPop p s)
  | .energyBaseAdd p => s.after (execEnergyBaseAdd p s)
  | .sillageTotalClear p => s.after (execSillageTotalClear p s)
  | .plcSyncDetect p dev gain ref => s.after (execPlcSyncDetect p dev gain ref s)
  | .plcHeaderDecode p b h => s.after (execPlcHeaderDecode p b h s)
  | .plcFrameDecode p bursts snr stream => s.after (execPlcFrameDecode p bursts snr stream s)
  | .serialReply n ago idle bytes => s.after (execSerialReply n ago idle bytes s)
  | .rspUd b ago bytes => s.after (execRspUd b ago bytes s)
  | .radioFrame r ago bytes => s.after (execRadioFrame r ago bytes s)
  | .rfidLine u line => s.after (execRfidLine u line s)
  | .pppEchoTimeout u rx => s.after (execPppEchoTimeout u rx s)
  | .ethFrameReceived n fcs bytes => s.after (execEthFrameReceived n fcs bytes s)
  | .ethLinkLoss n => s.after (execEthLinkLoss n s)
  | .pauseReceived n quanta offs => s.after (execPauseReceived n quanta offs s)
  | .sfpModuleChange modabs los => s.after (execSfpModuleChange modabs los s)
  | .timeStepRequest p ns => s.after (execTimeStepRequest p ns s)
  | .stepRearm p => s.after (execStepRearm p s)
  | .addendApply p hi => s.after (execAddendApply p hi s)
  | .syncReceived m => s.after (execSyncReceived m s)
  | .followUpReceived m => s.after (execFollowUpReceived m s)
  | .delayRespReceived m => s.after (execDelayRespReceived m s)
  | .announceReceived m => s.after (execAnnounceReceived m s)
  | .delayReqReceived m => s.after (execDelayReqReceived m s)
  | .timestampSearch p key => s.after (execTimestampSearch p key s)
  | .triggerArm p k ns => s.after (execTriggerArm p k ns s)
  | .captureEdge k off => s.after (execCaptureEdge k off s)
  | .helloPhase1 d => s.after (execHelloPhase1 d s)
  | .helloPhase2 d => s.after (execHelloPhase2 d s)
  | .helloPhase3 d => s.after (execHelloPhase3 d s)
  | .records d => s.after (execRecords d s)
  | .ack d => s.after (execAck d s)
  | .mgmtRead d => s.after (execMgmtRead d s)
  | .mgmtWrite d => s.after (execMgmtWrite d s)
  | .keyUpdate d => s.after (execKeyUpdate d s)
  | .fwChunk d => s.after (execFwChunk d s)
  | .activate d => s.after (execActivate d s)
  | .downlink d => s.after (execDownlink d s)
  | .testOpen d => s.after (execTestOpen d s)
  | .testClose d => s.after (execTestClose d s)
  | .cipStart agent page regs => s.after (execCipStart agent page regs s)
  | .cipZero agent page => s.after (execCipZero agent page s)
  | .cipCommit agent page => s.after (execCipCommit agent page s)
  | .cipAbandon agent page => s.after (execCipAbandon agent page s)
  | .keyLoad agent page purpose gen => s.after (execKeyLoad agent page purpose gen s)
  | .pilotStateChange o r => s.after (execPilotStateChange o r s)
  | .proximityChange o r => s.after (execProximityChange o r s)
  | .authStart p o acct => s.after (execAuthStart p o acct s)
  | .authStop p o => s.after (execAuthStop p o s)
  | .authClear p o => s.after (execAuthClear p o s)
  | .authDisable p o => s.after (execAuthDisable p o s)
  | .authEnable p o => s.after (execAuthEnable p o s)
  | .creditLimitWrite => s.after (execCreditLimitWrite s)
  | .fenceIssue p => s.after (execFenceIssue p s)
  | .format p => s.after (execFormat p s)
  | .flush p => s.after (execFlush p s)
  | .read p => s.after (execRead p s)
  | .clear p => s.after (execClear p s)
  | .confirm p => s.after (execConfirm p s)
  | .svcMessage bytes => s.after (execSvcMessage bytes s)
  | .rtcSet p sec => s.after (execRtcSet p sec s)
  | .watchdogKick p key => s.after (execWatchdogKick p key s)
  | .skewStart p amount step => s.after (execSkewStart p amount step s)
  | .nandFailureArm p kind => s.after (execNandFailureArm p kind s)
  | .tagFailureArm p tgt page q => s.after (execTagFailureArm p tgt page q s)
  | .testStepRequest p ns => s.after (execTestStepRequest p ns s)
  | .loopbackSet p plc eth ser => s.after (execLoopbackSet p plc eth ser s)
  | .dirhold p v => s.after (execDirhold p v s)
  | .testacc addr wr => s.after (execTestacc addr wr s)
  | .alarmReceived d => s.after (execAlarmReceived d s)
  | .ethLinkUp n spd => s.after (execEthLinkUp n spd s)
  | .uartCtsChange u cts => s.after (execUartCtsChange u cts s)
  | .nandProgramDone k dst ok => s.after (execNandProgramDone k dst ok s)
  | .nandEraseDone block ok => s.after (execNandEraseDone block ok s)
  | .unitRead lun corr bad => s.after (execUnitRead lun corr bad s)
  | .jam k => s.after (execJam k s)
  | .mbusOverload b => s.after (execMbusOverload b s)
  | .tamperInput n pin => s.after (execTamperInput n pin s)
  | .svcVbusChange up => s.after (execSvcVbusChange up s)
  | _ => s

/-- The inputs that wait received (R38, R51). -/
def State.performLate (s : State) : State := s.lateIn.foldl State.perform { s with lateIn := [] }

end Sys2Proof.Machine
end

