-- ==== Sys2Proof/Machine/Tick.lean ====
section
/-!
DEFINITION. The tick (R36-R49): its capture and commit phases, its length, the slots of the tick plan, budget cuts and the switch of
plans.
-/
namespace Sys2Proof.Machine

/-! ### The slots of the plan (R41-R49) -/

/-- A slot's run. -/
def run0 (_ : Nat) : SlotRun := {}
def State.slotRun (s : State) (n : Nat) : SlotRun := SMap.get run0 s.tsq.runs n
def State.putRun (s : State) (n : Nat) (r : SlotRun) : State := { s with tsq := { s.tsq with runs := SMap.put run0 s.tsq.runs n r } }

/-- A slot is active in a tick (R43). -/
def Slot.activeIn (x : Slot) (tick : Nat) : Bool := decide (tick % 2 ^ x.pexp = x.phase)

/-- The slot has been activated in this tick. -/
def State.ranNow (s : State) (n : Nat) : Bool := decide ((s.slotRun n).lastAct = s.now + 1)

/-- The processor of an executor code, if it is one (R41). -/
def cpuOf (exec : Nat) : Option Nat := if 1 ≤ exec ∧ exec ≤ 4 then some (exec - 1) else none

/-- The executor of a slot runs: an engine, or a processor that is not held (R479, R494).  While a proven plan waits for its switch,
the executors 10h to 12h alone run under the old one (R46). -/
def State.execRuns (s : State) (x : Slot) : Bool :=
  match cpuOf x.exec with
  | some c => s.tsq.newPlan.isNone && !(s.on (R.PROC_STAT_HELD c))
  | none => s.tsq.newPlan.isNone || (decide (0x10 ≤ x.exec) && decide (x.exec ≤ 0x12))

/-- Every active slot of the same executor with a lower number has run, none with a higher number has, and no cut of one is still to
come (R44). -/
def State.slotTurn (s : State) (n : Nat) (x : Slot) : Bool :=
  (List.range s.tsq.plan.length).all (fun k =>
    match s.tsq.plan[k]? with
    | some y =>
      if y.exec = x.exec ∧ y.activeIn s.now = true ∧ k ≠ n then
        (if k < n then s.ranNow k && (s.slotRun k).overrun.isNone else !(s.ranNow k))
      else true
    | none => true)

/-- PEAK of a slot holds the largest number of cycles used (R49). -/
def State.peak (s : State) (n used : Nat) : State :=
  if s.get (R.TSQ_OVR_PEAK n) < used then s.set (R.TSQ_OVR_PEAK n) used else s

/-- An activation of slot n whose task needs `work` cycles beside the work cut before (R44, R47): it finishes within its budget, or runs until
its cut. -/
def State.activate (s : State) (n : Nat) (x : Slot) (work : Nat) : State :=
  let r := s.slotRun n
  let start := max 128 (SMap.get zN s.tsq.busy x.exec)
  let total := r.cutWork + work
  let s := match cpuOf x.exec with
    | some c => s.set (R.PROC_STAT_TASK c) x.task
    | none => s
  let free := fun (t : State) k => { t with tsq := { t.tsq with busy := SMap.put zN t.tsq.busy x.exec k } }
  if total ≤ x.budget then
    let t := (free s (start + total)).putRun n { lastAct := s.now + 1 }
    let t := match cpuOf x.exec with
      | some c => { t with tsq := { t.tsq with alive := SMap.put zN t.tsq.alive c s.now } }
      | none => t
    t.peak n total
  else (free s (start + x.budget)).putRun n { r with lastAct := s.now + 1, overrun := some total }

/-- SLOT_ACTIVATION (R43, R44, R47, R49). -/
def execSlotActivation (n : Fin 48) (work : Nat) (s : State) : Out :=
  .next (s.run (fun s =>
    match s.tsq.plan[n.val]? with
    | none => s
    | some x =>
      if s.phase = .compute ∧ x.activeIn s.now = true ∧ s.ranNow n = false ∧ s.slotTurn n x = true ∧ s.execRuns x = true then
        s.activate n x work
      else s))

/-- The cut of slot n (R47, R49): the work left resumes at its next activation; the OVRLIM-th in a row raises the event. -/
def State.cutSlot (s : State) (n : Nat) : State :=
  match s.tsq.plan[n]?, (s.slotRun n).overrun with
  | some x, some total =>
    let r := s.slotRun n
    let t := (s.bump (R.TSQ_OVR_CUTS n)).peak n x.budget
    let hit := !r.raised && decide (t.get R.TSQ_CTL_OVRLIM ≤ r.cuts + 1)
    let t := t.putRun n { r with cutWork := total - x.budget, cuts := r.cuts + 1, raised := r.raised || hit, overrun := none }
    if hit then t.raise 0x0101 1 1 [(0, 1, n), (1, 1, x.task), (2, 2, t.get (R.TSQ_OVR_PEAK n))] else t
  | _, _ => s

/-- SLOT_CUT (R47-R49). -/
def execSlotCut (n : Fin 48) (s : State) : Out := .next (s.run (fun s => s.cutSlot n))

/-- Work of engine slots that has been cut and not resumed: executor, task, cycles (R46). -/
def State.cutEngines (s : State) : List (Nat × Nat × Nat) :=
  (List.range s.tsq.plan.length).filterMap (fun k =>
    match s.tsq.plan[k]? with
    | some x => if 0x10 ≤ x.exec ∧ 0 < (s.slotRun k).cutWork then some (x.exec, x.task, (s.slotRun k).cutWork) else none
    | none => none)

/-- The lowest slot of a plan with an executor and a task. -/
def slotFor (plan : List Slot) (exec task : Nat) : Option Nat := plan.findIdx? (fun y => decide (y.exec = exec ∧ y.task = task))

/-- The switch to the new plan (R46). -/
def State.switchPlan (s : State) (plan : List Slot) : State :=
  let cut := s.cutEngines
  let t : State := { s with tsq := { s.tsq with
    plan := plan, newPlan := none, runs := [], alive := [0, 1, 2, 3].foldl (fun m c => SMap.put zN m c s.now) [] } }
  let t := cut.foldl (fun (t : State) e => match slotFor plan e.1 e.2.1 with
    | some k => t.putRun k { t.slotRun k with cutWork := (t.slotRun k).cutWork + e.2.2 }
    | none => t) t
  let t := (List.range 48).foldl (fun (t : State) k => t.setAll [(R.TSQ_OVR_CUTS k, 0), (R.TSQ_OVR_PEAK k, 0)]) t
  t.setAll [(R.TSQ_STAT_PLAN_OK, 1), (R.TSQ_STAT_SLOTS, plan.length)]

/-- PLAN_SWITCH (R46): at the first tick after the new plan is proven. -/
def execPlanSwitch (s : State) : Out :=
  .next (s.run (fun s =>
    match s.tsq.newPlan with
    | some p => if s.tsq.proven < s.now then s.switchPlan p else s
    | none => s))

/-! ### The length of a tick (R36, R40, R276, R522) -/

/-- 125 µs in units of 2^-49 ns. -/
def tickUnits : Nat := 125000 * 2 ^ 49

/-- TSQ_STEPOFS as a number (R40). -/
def State.ofs (s : State) : Int := sgn 32 (s.get R.TSQ_STEPOFS_OFS)

/-- The skew function is in force (R522). -/
def State.skewing (s : State) : Bool := s.on R.PRT_CTL_OPEN && s.on R.PRT_SKEW_AMOUNT

/-- The offset after a step, while it is being removed, and under skew (R40, R521, R522). -/
def State.realign (s : State) (stepped : Bool) : State :=
  let o := gridOfs s.tim.start
  if s.skewing then s.setAll [(R.TSQ_STEPOFS_OFS, unsgn 32 o), (R.TSQ_STAT_ALIGNING, 0)]
  else if stepped || s.on R.TSQ_STAT_ALIGNING || (s.on R.TSQ_CTL_REALIGN && decide (4 ≤ s.ofs.natAbs)) then s.stepOfs o
  else s

/-- The cycles of the tick that starts: the tick accumulator's 125,000 ns, with the cycles of a skew or one cycle of realignment. -/
def State.takeLen (s : State) : State :=
  let n := ceilDiv (tickUnits - s.tsq.rem) s.tim.addend
  let rem := s.tsq.rem + n * s.tim.addend - tickUnits
  let step : Int := s.get R.PRT_SKEW_STEP
  let d := clampI (-step) step s.prt.skew
  let want : Int := n + d + s.prt.carried
  let len := clampI 31234 31266 want
  let one : Int := if s.on R.TSQ_STAT_ALIGNING then (if 0 < s.ofs then -1 else if s.ofs < 0 then 1 else 0) else 0
  if s.prt.skew ≠ 0 ∨ s.prt.carried ≠ 0 then
    { s with
      tsq := { s.tsq with len := len.toNat, rem := rem },
      prt := { s.prt with skew := s.prt.skew - d, carried := want - len } }
  else { s with tsq := { s.tsq with len := (clampI 31234 31266 (n + one)).toNat, rem := rem } }

/-! ### Cycle 0 of a tick -/

/-- Device time, tick number and tick length at cycle 0 (R36, R39, R276, R280, R297). -/
def State.nextTick (s : State) : State :=
  let stepped := decide (s.tim.jump ≠ 0)
  let inst := if s.mtr.inst = [] then [0] else s.mtr.inst
  let at0 := nth inst 0 0 + s.tickSpan
  let t : State := { s with
    phase := .capture,
    tsq := { s.tsq with tick := s.tsq.tick + 1, busy := [], div := (s.tsq.div + s.tsq.len) % 500 },
    tim := { s.tim with start := s.nextStart, jump := 0, stepping := false, rate := s.tim.addend },
    mtr := { s.mtr with inst := (at0 :: inst).take 4 } }
  let t := t.setAll [(R.TSQ_TICK_TICK, t.now % 2 ^ 32), (R.TSQ_TICKHI_TICKHI, t.now / 2 ^ 32 % 2 ^ 32), (R.TSQ_LEN_CYCLES, s.tsq.len)]
  (((t.realign stepped).takeLen).syncTime).send (.pin "TICK") (leBytes 4 t.now)

/-- The XOFF outputs decided in the last commit: an asserted one stands at the level that POL gives (R90). -/
def State.putXoff (s : State) : State :=
  (s.set R.QUE_XSTAT_XOFF s.xoffNext).send (.pin "XOFF") [BitVec.ofNat 8 (s.xoffNext ^^^ (0xFF - s.get R.QUE_XCTL_POL))]

/-- The island's clocks in the tick that ended, and a write of the RTC that is due (R447, R507-R509, R295). -/
def State.islandTick (s : State) (rtc ops : Nat) : State :=
  let t := (s.rtcRun rtc).opsRun ops
  let t := match t.isl.rtcDue with
    | some v => (t.rtcSet v)
    | none => t
  let t : State := { t with isl := { t.isl with rtcDue := none, stopped := false } }
  if t.isl.recov = [] then t
  else
    let l := t.isl.recov.filter (fun r => decide (t.get R.ISL_OPSEC_SEC < r + 3600))
    ({ t with isl := { t.isl with recov := l } }).set R.CFG_RECOV_HOUR l.length

/-- OPSEC and PCYC of the events that the last commit phase raised, which count to this tick (R38, R447). -/
def State.stampRaised (s : State) : State :=
  { s with raised := s.raised.map (fun e =>
      if e.tick = s.now then { e with opsec := s.get R.ISL_OPSEC_SEC, pcyc := s.get R.ISL_PCYC_PCYC } else e) }

/-- An anchor that is due (R294). -/
def State.anchorTick (s : State) : State :=
  match s.tim.anchor with
  | some c => ({ s with tim := { s.tim with anchor := none } }).takeAnchor c
  | none => s

/-- What a lane did in the last tick, and its slots again (R94, R97, R130). -/
def State.laneTick (s : State) (l : Nat) : State :=
  let x := s.lane l
  (s.setAll [(R.VAL_ADM_LAST l, x.taken), (R.VAL_ADM_IDLE l, x.idle)]).putLane l
    { x with held := none, next := 0, taken := 0, idle := 0 }

/-! ### The capture phase -/

/-- Samples and crossings (R159-R163, R168, R213). -/
def State.gridCapture (s : State) (x : TickIn) : State :=
  let t := s.endSecond.latchSamples x.samples
  let t := if t.on R.MTR_STAT_VALID then t.useSamples else t
  let t := groups.foldl (fun (t : State) g => t.excitation g (nth x.exc g 0)) t
  let was := fun p => t.on (R.PLC_STAT_READY p)
  ((t.zcCapture.endFrames.syncReady).dropPorts was).plcTransmit

/-- The receive buffers are read out by their engines within the tick (R273). -/
def State.ethTick (s : State) : State := { s with eth := s.eth.map (fun e => (e.1, { e.2 with rx := [] })) }

/-- Outputs decided in the last tick take their levels at cycle 0 (R37). -/
def State.driveOut (s : State) : State := { s with out := s.out ++ s.outNext, outNext := [] }

/-- FWAIT of every queue (R92). -/
def State.syncWaits (s : State) : State := (List.range 32).foldl State.syncWait s

/-- What the capture phase of a tick does: anchors and boundaries, samples, inputs of the last commit phase, the head snapshot, and the
engines that read their buffers out (R38, R51, R96). -/
def State.capturePhase (s : State) (x : TickIn) : State :=
  let t := ((s.runLoads.anchorTick.numberUpdate.busTick).gridCapture x).chgCapture x.chg
  let t := t.performLate
  let t := [0, 1, 2, 3].foldl State.laneTick t.headSnapshot.syncWaits
  { t.ethTick.modemCapture.answerMgmt with phase := .compute }

/-- The start of a tick: the writes of the last one take effect, then its capture phase. -/
def State.capture0 (s : State) (x : TickIn) : State :=
  let t := ({ s with out := [] }).commitWrites.takeTokens
  if t.up then
    let t := ((t.nextTick.putXoff.driveOut).islandTick x.rtc x.ops).stampRaised
    ({ t with shown := t.regs }).capturePhase x
  else t

/-- TICK_CAPTURE (R14, R36-R40, R51, R96, R135, R159-R163, R213). -/
def execTickCapture (x : TickIn) (s : State) : Out :=
  .next (s.run (fun s => if s.phase = .commit then s.capture0 x else s))

/-! ### The commit phase -/

/-- CIP_USE (R352). -/
def State.cipUse (s : State) : State :=
  s.setAll [(R.CIP_USE_BUSY, (s.sec.pages.filter (fun e => e.2.busy)).length),
    (R.CIP_USE_SPENT, (s.sec.pages.filter (fun e => e.2.spent && !e.2.busy && !e.2.key.isEmpty)).length)]

/-- The ticks left of a perturbation window (R520, R526): it counts from the tick after the one in which it was set. -/
def State.windowTick (s : State) : State :=
  let n := s.get R.PRT_WIN_LEFT
  if s.get R.KEY_LC_STATE = lcField ∧ 0 < n ∧ s.prt.setAt ≠ some s.now then s.set R.PRT_WIN_LEFT (n - 1) else s

/-- Slots that have passed their budget are cut before the tick ends (R47). -/
def State.cutAll (s : State) : State := (List.range s.tsq.plan.length).foldl State.cutSlot s

/-- What every commit phase does. -/
def State.commit0 (s : State) : State :=
  let t := s.cutAll.dirWindow
  let t := ({ t with phase := .commit }).windowDue.commitSteps.fuseEnd.kupCommitPhase
  let t := (t.partialCycles.watermarks.decideXoff).syncHold
  let t := (([0, 1, 2, 3].foldl State.pulseTick t).enterCycles).chgTick
  let t := ((t.cipUse.holdRepeat.supAccept.batchTick.ackCommit).modemTimers.answerActivate).acceptOffered
  ((t.endRestart.windowTick).evCommit.settleSys.syncEvr.evToIsland).holdWhenIdle

/-- TICK_COMMIT (R37, R52, R89, R90, R173, R181, R242, R280, R403, R456). -/
def execTickCommit (s : State) : Out := .next (s.run (fun s => if s.phase = .compute then s.commit0 else s))

end Sys2Proof.Machine
end

