-- ==== Sys2Proof/Machine/Dispatch.lean ====
section
/-! DEFINITION. The dispatch of commands to their meanings. -/
namespace Sys2Proof.Machine

/-- The effect of a command on everything but the queue. -/
def exec (i : Instr) (s : State) : Host.Outcome State Fault Refusal :=
  match i with
  | .bankAccess p0 p1 => Sys2Proof.Machine.execBankAccess p0 p1 s
  | .bankOwnerHandover p bank owner => Sys2Proof.Machine.execBankOwnerHandover p bank owner s
  | .bankPowerChange p bank pwr => Sys2Proof.Machine.execBankPowerChange p bank pwr s
  | .scrub errs left => Sys2Proof.Machine.execScrub errs left s
  | .registerWrite p cpu addr mask value narrow => Sys2Proof.Machine.execRegisterWrite p cpu addr mask value narrow s
  | .unmappedAccess p addr => Sys2Proof.Machine.execUnmappedAccess p addr s
  | .frameOpen q fcnt job => Sys2Proof.Machine.execFrameOpen q fcnt job s
  | .frameWordWrite q w => Sys2Proof.Machine.execFrameWordWrite q w s
  | .frameErrorRewind q => Sys2Proof.Machine.execFrameErrorRewind q s
  | .frameTimeout q => Sys2Proof.Machine.execFrameTimeout q s
  | .queueRefill q bad => Sys2Proof.Machine.execQueueRefill q bad s
  | .queueModeChange p q mode => Sys2Proof.Machine.execQueueModeChange p q mode s
  | .ringReadAdvance p q rptr => Sys2Proof.Machine.execRingReadAdvance p q rptr s
  | .queueFenceFlagChange p q v => Sys2Proof.Machine.execQueueFenceFlagChange p q v s
  | .admissionSlot l j lat => Sys2Proof.Machine.execAdmissionSlot l j lat s
  | .fenceRelease q => Sys2Proof.Machine.execFenceRelease q s
  | .laneFault l j => Sys2Proof.Machine.execLaneFault l j s
  | .laneResume l => Sys2Proof.Machine.execLaneResume l s
  | .insert d => Sys2Proof.Machine.execInsert d s
  | .remove d => Sys2Proof.Machine.execRemove d s
  | .setstat d => Sys2Proof.Machine.execSetstat d s
  | .setepoch d => Sys2Proof.Machine.execSetepoch d s
  | .setassign d => Sys2Proof.Machine.execSetassign d s
  | .setlink d => Sys2Proof.Machine.execSetlink d s
  | .find d => Sys2Proof.Machine.execFind d s
  | .setdown d => Sys2Proof.Machine.execSetdown d s
  | .wrstat d => Sys2Proof.Machine.execWrstat d s
  | .rplread d => Sys2Proof.Machine.execRplread d s
  | .rplmax d => Sys2Proof.Machine.execRplmax d s
  | .rplline d => Sys2Proof.Machine.execRplline d s
  | .dirfix d => Sys2Proof.Machine.execDirfix d s
  | .wepoch d => Sys2Proof.Machine.execWepoch d s
  | .hfree d => Sys2Proof.Machine.execHfree d s
  | .windowZeroing lines => Sys2Proof.Machine.execWindowZeroing lines s
  | .heartFill => Sys2Proof.Machine.execHeartFill s
  | .heartRederive => Sys2Proof.Machine.execHeartRederive s
  | .intervalOpen => Sys2Proof.Machine.execIntervalOpen s
  | .intervalClose => Sys2Proof.Machine.execIntervalClose s
  | .balanceRunStart => Sys2Proof.Machine.execBalanceRunStart s
  | .reportPop p => Sys2Proof.Machine.execReportPop p s
  | .meteringValid => Sys2Proof.Machine.execMeteringValid s
  | .temperatureFactorUpdate die board => Sys2Proof.Machine.execTemperatureFactorUpdate die board s
  | .perSecondValues => Sys2Proof.Machine.execPerSecondValues s
  | .zeroCrossingDecision v => Sys2Proof.Machine.execZeroCrossingDecision v s
  | .pseudoCycle g p => Sys2Proof.Machine.execPseudoCycle g p s
  | .periodicSave => Sys2Proof.Machine.execPeriodicSave s
  | .energyBaseAdd p => Sys2Proof.Machine.execEnergyBaseAdd p s
  | .pulseStart k => Sys2Proof.Machine.execPulseStart k s
  | .pulseEnd k => Sys2Proof.Machine.execPulseEnd k s
  | .sillageWindow samples => Sys2Proof.Machine.execSillageWindow samples s
  | .sillageBlockEnd => Sys2Proof.Machine.execSillageBlockEnd s
  | .sillageTotalClear p => Sys2Proof.Machine.execSillageTotalClear p s
  | .plcTransmitRequest p mod psdu => Sys2Proof.Machine.execPlcTransmitRequest p mod psdu s
  | .plcBurstStart p => Sys2Proof.Machine.execPlcBurstStart p s
  | .plcSyncDetect p dev gain ref => Sys2Proof.Machine.execPlcSyncDetect p dev gain ref s
  | .plcHeaderDecode p b h => Sys2Proof.Machine.execPlcHeaderDecode p b h s
  | .plcFrameDecode p bursts snr stream => Sys2Proof.Machine.execPlcFrameDecode p bursts snr stream s
  | .sweepStart p => Sys2Proof.Machine.execSweepStart p s
  | .trainStart p => Sys2Proof.Machine.execTrainStart p s
  | .slotTimeout p => Sys2Proof.Machine.execSlotTimeout p s
  | .dataFrameReceived p => Sys2Proof.Machine.execDataFrameReceived p s
  | .dataVerdictsComplete p => Sys2Proof.Machine.execDataVerdictsComplete p s
  | .meterAckReceived p => Sys2Proof.Machine.execMeterAckReceived p s
  | .meterNackReceived p => Sys2Proof.Machine.execMeterNackReceived p s
  | .roundEnd p => Sys2Proof.Machine.execRoundEnd p s
  | .beacon p => Sys2Proof.Machine.execBeacon p s
  | .joinReceived p => Sys2Proof.Machine.execJoinReceived p s
  | .down p => Sys2Proof.Machine.execDown p s
  | .block p img cnt no data => Sys2Proof.Machine.execBlock p img cnt no data s
  | .slavePollReceived => Sys2Proof.Machine.execSlavePollReceived s
  | .slaveDownReceived names => Sys2Proof.Machine.execSlaveDownReceived names s
  | .slaveBeaconReceived => Sys2Proof.Machine.execSlaveBeaconReceived s
  | .uplinkBeaconLoss => Sys2Proof.Machine.execUplinkBeaconLoss s
  | .serialRequest k => Sys2Proof.Machine.execSerialRequest k s
  | .serialReply n ago idle bytes => Sys2Proof.Machine.execSerialReply n ago idle bytes s
  | .serialReplyTimeout k => Sys2Proof.Machine.execSerialReplyTimeout k s
  | .serialGapTimeout n => Sys2Proof.Machine.execSerialGapTimeout n s
  | .sndNke b => Sys2Proof.Machine.execSndNke b s
  | .reqUd2 b => Sys2Proof.Machine.execReqUd2 b s
  | .rspUd b ago bytes => Sys2Proof.Machine.execRspUd b ago bytes s
  | .mbusReplyTimeout b => Sys2Proof.Machine.execMbusReplyTimeout b s
  | .radioFrame r ago bytes => Sys2Proof.Machine.execRadioFrame r ago bytes s
  | .transceiverScript r => Sys2Proof.Machine.execTransceiverScript r s
  | .jam k => Sys2Proof.Machine.execJam k s
  | .jamEnd k => Sys2Proof.Machine.execJamEnd k s
  | .mbusOverload b => Sys2Proof.Machine.execMbusOverload b s
  | .mbusOverloadRetry b => Sys2Proof.Machine.execMbusOverloadRetry b s
  | .rfidLine u line => Sys2Proof.Machine.execRfidLine u line s
  | .displayLine u => Sys2Proof.Machine.execDisplayLine u s
  | .pppEchoTimeout u rx => Sys2Proof.Machine.execPppEchoTimeout u rx s
  | .ethFrameReceived n fcs bytes => Sys2Proof.Machine.execEthFrameReceived n fcs bytes s
  | .ethLinkLoss n => Sys2Proof.Machine.execEthLinkLoss n s
  | .pauseReceived n quanta offs => Sys2Proof.Machine.execPauseReceived n quanta offs s
  | .sfpModuleChange modabs los => Sys2Proof.Machine.execSfpModuleChange modabs los s
  | .timeStepRequest p ns => Sys2Proof.Machine.execTimeStepRequest p ns s
  | .stepRearm p => Sys2Proof.Machine.execStepRearm p s
  | .addendApply p hi => Sys2Proof.Machine.execAddendApply p hi s
  | .syncReceived m => Sys2Proof.Machine.execSyncReceived m s
  | .followUpReceived m => Sys2Proof.Machine.execFollowUpReceived m s
  | .delayRespReceived m => Sys2Proof.Machine.execDelayRespReceived m s
  | .announceReceived m => Sys2Proof.Machine.execAnnounceReceived m s
  | .delayReqReceived m => Sys2Proof.Machine.execDelayReqReceived m s
  | .announceTimeout => Sys2Proof.Machine.execAnnounceTimeout s
  | .syncSend off => Sys2Proof.Machine.execSyncSend off s
  | .announceSend => Sys2Proof.Machine.execAnnounceSend s
  | .delayReqSend off => Sys2Proof.Machine.execDelayReqSend off s
  | .timestampSearch p key => Sys2Proof.Machine.execTimestampSearch p key s
  | .triggerArm p k ns => Sys2Proof.Machine.execTriggerArm p k ns s
  | .triggerPulse k => Sys2Proof.Machine.execTriggerPulse k s
  | .ppsOutPulse => Sys2Proof.Machine.execPpsOutPulse s
  | .captureEdge k off => Sys2Proof.Machine.execCaptureEdge k off s
  | .ppsSourceLoss => Sys2Proof.Machine.execPpsSourceLoss s
  | .rtcSync => Sys2Proof.Machine.execRtcSync s
  | .helloPhase1Send => Sys2Proof.Machine.execHelloPhase1Send s
  | .helloPhase1 d => Sys2Proof.Machine.execHelloPhase1 d s
  | .helloPhase2 d => Sys2Proof.Machine.execHelloPhase2 d s
  | .helloPhase3 d => Sys2Proof.Machine.execHelloPhase3 d s
  | .helloRetryTimeout => Sys2Proof.Machine.execHelloRetryTimeout s
  | .halfOpenTimeout => Sys2Proof.Machine.execHalfOpenTimeout s
  | .records d => Sys2Proof.Machine.execRecords d s
  | .recordsSend => Sys2Proof.Machine.execRecordsSend s
  | .recordsRetransmit => Sys2Proof.Machine.execRecordsRetransmit s
  | .ack d => Sys2Proof.Machine.execAck d s
  | .ackSend => Sys2Proof.Machine.execAckSend s
  | .ackrAdvance => Sys2Proof.Machine.execAckrAdvance s
  | .mgmtRead d => Sys2Proof.Machine.execMgmtRead d s
  | .mgmtWrite d => Sys2Proof.Machine.execMgmtWrite d s
  | .keyUpdate d => Sys2Proof.Machine.execKeyUpdate d s
  | .fwChunk d => Sys2Proof.Machine.execFwChunk d s
  | .activate d => Sys2Proof.Machine.execActivate d s
  | .downlink d => Sys2Proof.Machine.execDownlink d s
  | .alarmSend => Sys2Proof.Machine.execAlarmSend s
  | .sessionIdleTimeout => Sys2Proof.Machine.execSessionIdleTimeout s
  | .sessionLifetimeExpiry => Sys2Proof.Machine.execSessionLifetimeExpiry s
  | .keepaliveAck => Sys2Proof.Machine.execKeepaliveAck s
  | .testOpen d => Sys2Proof.Machine.execTestOpen d s
  | .testClose d => Sys2Proof.Machine.execTestClose d s
  | .perturbationWindowExpiry => Sys2Proof.Machine.execPerturbationWindowExpiry s
  | .cipStart agent page regs => Sys2Proof.Machine.execCipStart agent page regs s
  | .cipZero agent page => Sys2Proof.Machine.execCipZero agent page s
  | .cipCommit agent page => Sys2Proof.Machine.execCipCommit agent page s
  | .cipAbandon agent page => Sys2Proof.Machine.execCipAbandon agent page s
  | .jobEnd page => Sys2Proof.Machine.execJobEnd page s
  | .counterMarkRaise slot => Sys2Proof.Machine.execCounterMarkRaise slot s
  | .keyLoad agent page purpose gen => Sys2Proof.Machine.execKeyLoad agent page purpose gen s
  | .keyUpdateWrite => Sys2Proof.Machine.execKeyUpdateWrite s
  | .keyUpdateTransition => Sys2Proof.Machine.execKeyUpdateTransition s
  | .keyUpdateSetauth => Sys2Proof.Machine.execKeyUpdateSetauth s
  | .transitionDieReset => Sys2Proof.Machine.execTransitionDieReset s
  | .tamperInput n pin => Sys2Proof.Machine.execTamperInput n pin s
  | .tamperInternal src => Sys2Proof.Machine.execTamperInternal src s
  | .entropyFailure => Sys2Proof.Machine.execEntropyFailure s
  | .pilotStateChange o r => Sys2Proof.Machine.execPilotStateChange o r s
  | .proximityChange o r => Sys2Proof.Machine.execProximityChange o r s
  | .contactorClose o => Sys2Proof.Machine.execContactorClose o s
  | .contactorCheckTimeout o => Sys2Proof.Machine.execContactorCheckTimeout o s
  | .lockTimeout o => Sys2Proof.Machine.execLockTimeout o s
  | .residualCurrentTrip o => Sys2Proof.Machine.execResidualCurrentTrip o s
  | .selfTest o => Sys2Proof.Machine.execSelfTest o s
  | .selfTestResult o => Sys2Proof.Machine.execSelfTestResult o s
  | .cpComparatorSafeOpen o => Sys2Proof.Machine.execCpComparatorSafeOpen o s
  | .tripIslandTimer o x => Sys2Proof.Machine.execTripIslandTimer o x s
  | .offerCompute => Sys2Proof.Machine.execOfferCompute s
  | .pausedContactorRelease o => Sys2Proof.Machine.execPausedContactorRelease o s
  | .authStart p o acct => Sys2Proof.Machine.execAuthStart p o acct s
  | .authStop p o => Sys2Proof.Machine.execAuthStop p o s
  | .authClear p o => Sys2Proof.Machine.execAuthClear p o s
  | .authDisable p o => Sys2Proof.Machine.execAuthDisable p o s
  | .authEnable p o => Sys2Proof.Machine.execAuthEnable p o s
  | .authorisationTimeout o => Sys2Proof.Machine.execAuthorisationTimeout o s
  | .creditLimitWrite => Sys2Proof.Machine.execCreditLimitWrite s
  | .sessionRecord o => Sys2Proof.Machine.execSessionRecord o s
  | .setacc => Sys2Proof.Machine.execSetacc s
  | .accountCredit => Sys2Proof.Machine.execAccountCredit s
  | .accountBlock => Sys2Proof.Machine.execAccountBlock s
  | .accountRead => Sys2Proof.Machine.execAccountRead s
  | .tariff => Sys2Proof.Machine.execTariff s
  | .accountRemove => Sys2Proof.Machine.execAccountRemove s
  | .accountRebuild => Sys2Proof.Machine.execAccountRebuild s
  | .nandProgramDone k dst ok => Sys2Proof.Machine.execNandProgramDone k dst ok s
  | .nandEraseDone block ok => Sys2Proof.Machine.execNandEraseDone block ok s
  | .unitRead lun corr bad => Sys2Proof.Machine.execUnitRead lun corr bad s
  | .garbageCollection victim moves => Sys2Proof.Machine.execGarbageCollection victim moves s
  | .mapSegmentWrite dst ok => Sys2Proof.Machine.execMapSegmentWrite dst ok s
  | .holdupCheck reached fall time => Sys2Proof.Machine.execHoldupCheck reached fall time s
  | .holdupChargeTimeout => Sys2Proof.Machine.execHoldupChargeTimeout s
  | .holdupDecision => Sys2Proof.Machine.execHoldupDecision s
  | .mount pages bad => Sys2Proof.Machine.execMount pages bad s
  | .ledgerRestore => Sys2Proof.Machine.execLedgerRestore s
  | .ledgerUnitFlush => Sys2Proof.Machine.execLedgerUnitFlush s
  | .fenceIssue p => Sys2Proof.Machine.execFenceIssue p s
  | .fenceComplete => Sys2Proof.Machine.execFenceComplete s
  | .ledgerHold => Sys2Proof.Machine.execLedgerHold s
  | .ledgerHoldEnd => Sys2Proof.Machine.execLedgerHoldEnd s
  | .ledgerUnitRelease => Sys2Proof.Machine.execLedgerUnitRelease s
  | .checkpoint tries => Sys2Proof.Machine.execCheckpoint tries s
  | .drydown tries => Sys2Proof.Machine.execDrydown tries s
  | .drydownTakeover tries => Sys2Proof.Machine.execDrydownTakeover tries s
  | .drydownDone us => Sys2Proof.Machine.execDrydownDone us s
  | .drydownShort => Sys2Proof.Machine.execDrydownShort s
  | .format p => Sys2Proof.Machine.execFormat p s
  | .temperatureHistogram temps => Sys2Proof.Machine.execTemperatureHistogram temps s
  | .eventRecord k => Sys2Proof.Machine.execEventRecord k s
  | .barrier src k => Sys2Proof.Machine.execBarrier src k s
  | .flush p => Sys2Proof.Machine.execFlush p s
  | .read p => Sys2Proof.Machine.execRead p s
  | .clear p => Sys2Proof.Machine.execClear p s
  | .eventUnitProgram => Sys2Proof.Machine.execEventUnitProgram s
  | .confirm p => Sys2Proof.Machine.execConfirm p s
  | .trialTimerExpiry => Sys2Proof.Machine.execTrialTimerExpiry s
  | .fixativeWrite => Sys2Proof.Machine.execFixativeWrite s
  | .svcMessage bytes => Sys2Proof.Machine.execSvcMessage bytes s
  | .powerFailWarning => Sys2Proof.Machine.execPowerFailWarning s
  | .mainSuppliesLost => Sys2Proof.Machine.execMainSuppliesLost s
  | .warningRecovery => Sys2Proof.Machine.execWarningRecovery s
  | .vbatMeasurement mv => Sys2Proof.Machine.execVbatMeasurement mv s
  | .rtcSet p sec => Sys2Proof.Machine.execRtcSet p sec s
  | .crystalStop => Sys2Proof.Machine.execCrystalStop s
  | .watchdogKick p key => Sys2Proof.Machine.execWatchdogKick p key s
  | .watchdogExpiry => Sys2Proof.Machine.execWatchdogExpiry s
  | .skewStart p amount step => Sys2Proof.Machine.execSkewStart p amount step s
  | .nandFailureArm p kind => Sys2Proof.Machine.execNandFailureArm p kind s
  | .tagFailureArm p tgt page q => Sys2Proof.Machine.execTagFailureArm p tgt page q s
  | .testStepRequest p ns => Sys2Proof.Machine.execTestStepRequest p ns s
  | .loopbackSet p plc eth ser => Sys2Proof.Machine.execLoopbackSet p plc eth ser s
  | .dirhold p v => Sys2Proof.Machine.execDirhold p v s
  | .bypass bit => Sys2Proof.Machine.execBypass bit s
  | .idcode => Sys2Proof.Machine.execIdcode s
  | .samplePreload cells => Sys2Proof.Machine.execSamplePreload cells s
  | .extest cells => Sys2Proof.Machine.execExtest cells s
  | .testacc addr wr => Sys2Proof.Machine.execTestacc addr wr s
  | .alarmReceived d => Sys2Proof.Machine.execAlarmReceived d s
  | .slaveDiscoverReceived => Sys2Proof.Machine.execSlaveDiscoverReceived s
  | .slaveJoinAckReceived => Sys2Proof.Machine.execSlaveJoinAckReceived s
  | .ethLinkUp n spd => Sys2Proof.Machine.execEthLinkUp n spd s
  | .pauseQuantaExpiry n offs => Sys2Proof.Machine.execPauseQuantaExpiry n offs s
  | .uartCtsChange u cts => Sys2Proof.Machine.execUartCtsChange u cts s
  | .svcVbusChange up => Sys2Proof.Machine.execSvcVbusChange up s
  | .entropyRecovery => Sys2Proof.Machine.execEntropyRecovery s
  | .islandSupplyLost => Sys2Proof.Machine.execIslandSupplyLost s
  | .tickCapture x => Sys2Proof.Machine.execTickCapture x s
  | .tickCommit => Sys2Proof.Machine.execTickCommit s
  | .slotActivation n work => Sys2Proof.Machine.execSlotActivation n work s
  | .slotCut n => Sys2Proof.Machine.execSlotCut n s
  | .planSwitch => Sys2Proof.Machine.execPlanSwitch s
  | .islandPowerOnReset => Sys2Proof.Machine.execIslandPowerOnReset s
  | .resetNAssert => Sys2Proof.Machine.execResetNAssert s
  | .resetRelease x => Sys2Proof.Machine.execResetRelease x s
  | .pllRestart => Sys2Proof.Machine.execPllRestart s
  | .restart => Sys2Proof.Machine.execRestart s
  | .recoveryRestart cpu why => Sys2Proof.Machine.execRecoveryRestart cpu why s
  | .correctedLineWriteback line => Sys2Proof.Machine.execCorrectedLineWriteback line s
  | .handoverDrainEnd bank => Sys2Proof.Machine.execHandoverDrainEnd bank s
  | .bankReady bank => Sys2Proof.Machine.execBankReady bank s

end Sys2Proof.Machine
end

