-- ==== Sys2Proof/Laws/Map.lean ====
section
/-! SUPPORT. The laws of sparse tables: what a read gives after a write, and that every operation keeps the canonical form. -/
namespace Sys2Proof.Machine

variable {β : Type} [DecidableEq β] {d : Nat → β}

omit [DecidableEq β] in
@[simp] theorem SMap.get_nil (k : Nat) : SMap.get d [] k = d k := rfl

omit [DecidableEq β] in
/-- Numbers below every listed one read as the default. -/
theorem SMap.get_above {k : Nat} : ∀ {m : SMap β} {j : Nat}, SMap.above k m = true → j ≤ k → SMap.get d m j = d j
  | [], _, _, _ => rfl
  | (a, b) :: t, j, h, hj => by
    simp only [SMap.above, List.all_cons, Bool.and_eq_true, decide_eq_true_eq] at h
    rw [SMap.get, if_pos (by omega)]

omit [DecidableEq β] in
theorem SMap.above_mono {k j : Nat} {m : SMap β} (h : SMap.above k m = true) (hj : j ≤ k) : SMap.above j m = true := by
  simp only [SMap.above, List.all_eq_true, decide_eq_true_eq] at h ⊢
  exact fun p hp => lt_of_le_of_lt hj (h p hp)

theorem SMap.wf_cons {a : Nat} {b : β} {t : SMap β} :
    SMap.wf d ((a, b) :: t) = true ↔ SMap.above a t = true ∧ b ≠ d a ∧ SMap.wf d t = true := by
  simp [SMap.wf, and_assoc]

/-- Every number above `k` stays so when a number above `k` is written. -/
theorem SMap.above_put {k a : Nat} {v : β} (hk : k < a) : ∀ {m : SMap β}, SMap.above k m = true → SMap.above k (SMap.put d m a v) = true
  | [], _ => by unfold SMap.put; split <;> simp [SMap.above, hk]
  | (c, b) :: t, h => by
    simp only [SMap.above, List.all_cons, Bool.and_eq_true, decide_eq_true_eq] at h
    have ht : SMap.above k (SMap.put d t a v) = true := SMap.above_put hk h.2
    simp only [SMap.above] at ht
    unfold SMap.put
    split_ifs <;> simp [SMap.above, h.1, hk, ht] <;> simpa using h.2

/-- A write keeps the canonical form. -/
theorem SMap.wf_put {k : Nat} {v : β} : ∀ {m : SMap β}, SMap.wf d m = true → SMap.wf d (SMap.put d m k v) = true
  | [], _ => by unfold SMap.put; split <;> simp_all [SMap.wf, SMap.above]
  | (a, b) :: t, h => by
    have h' := SMap.wf_cons.1 h
    unfold SMap.put
    split_ifs with h1 h2 h3 h4
    · exact h
    · refine SMap.wf_cons.2 ⟨?_, h2, h⟩
      have := SMap.above_mono h'.1 (le_of_lt h1)
      simpa [SMap.above, h1] using this
    · exact h'.2.2
    · subst h3
      exact SMap.wf_cons.2 ⟨h'.1, h4, h'.2.2⟩
    · exact SMap.wf_cons.2 ⟨SMap.above_put (by omega) h'.1, h'.2.1, SMap.wf_put h'.2.2⟩

/-- A read of the number last written gives the value written. -/
theorem SMap.get_put_same {k : Nat} {v : β} : ∀ {m : SMap β}, SMap.wf d m = true → SMap.get d (SMap.put d m k v) k = v
  | [], _ => by unfold SMap.put; split <;> simp_all [SMap.get]
  | (a, b) :: t, h => by
    have h' := SMap.wf_cons.1 h
    unfold SMap.put
    split_ifs with h1 h2 h3 h4
    · simp [SMap.get, h1, h2]
    · simp [SMap.get]
    · subst h3
      rw [SMap.get_above h'.1 le_rfl, h4]
    · simp [SMap.get]
    · simp [SMap.get, h1, h3, SMap.get_put_same h'.2.2]

/-- A read of another number gives what it gave before. -/
theorem SMap.get_put_ne {k j : Nat} {v : β} (hj : j ≠ k) : ∀ {m : SMap β}, SMap.wf d m = true →
    SMap.get d (SMap.put d m k v) j = SMap.get d m j
  | [], _ => by unfold SMap.put; split <;> simp [SMap.get, hj]
  | (a, b) :: t, h => by
    have h' := SMap.wf_cons.1 h
    unfold SMap.put
    split_ifs with h1 h2 h3 h4
    · rfl
    · rcases Nat.lt_or_ge j k with hl | hl
      · simp [SMap.get, hl, show j < a by omega]
      · rw [SMap.get, if_neg (by omega), if_neg hj]
    · subst h3
      rw [SMap.get]
      split_ifs with h5
      · exact SMap.get_above h'.1 (by omega)
      · rfl
    · subst h3
      simp [SMap.get, hj]
    · simp only [SMap.get, SMap.get_put_ne hj h'.2.2]

/-- Writing the value that is read changes nothing. -/
theorem SMap.put_get {k : Nat} : ∀ {m : SMap β}, SMap.wf d m = true → SMap.put d m k (SMap.get d m k) = m
  | [], _ => by simp [SMap.put, SMap.get]
  | (a, b) :: t, h => by
    have h' := SMap.wf_cons.1 h
    rcases Nat.lt_trichotomy k a with hl | he | hg
    · simp [SMap.put, SMap.get, hl]
    · subst he; simp [SMap.put, SMap.get, h'.2.1]
    · have h1 : ¬ k < a := by omega
      have h2 : ¬ k = a := by omega
      simp [SMap.put, SMap.get, h1, h2, SMap.put_get h'.2.2]

omit [DecidableEq β] in
theorem SMap.above_keep {k : Nat} {p : Nat → Bool} {m : SMap β} (h : SMap.above k m = true) :
    SMap.above k (SMap.keep p m) = true := by
  simp only [SMap.above, SMap.keep, List.all_eq_true] at h ⊢
  exact fun e he => h e (List.mem_of_mem_filter he)

/-- Removing entries keeps the canonical form. -/
theorem SMap.wf_keep {p : Nat → Bool} : ∀ {m : SMap β}, SMap.wf d m = true → SMap.wf d (SMap.keep p m) = true
  | [], _ => rfl
  | (a, b) :: t, h => by
    have h' := SMap.wf_cons.1 h
    unfold SMap.keep
    rw [List.filter_cons]
    split
    · exact SMap.wf_cons.2 ⟨SMap.above_keep h'.1, h'.2.1, SMap.wf_keep h'.2.2⟩
    · exact SMap.wf_keep h'.2.2

end Sys2Proof.Machine
end

