-- ==== Sys2Proof/Laws/State.lean ====
section
/-!
SUPPORT. What each shared update of the state leaves as it is: one lemma per field per update.  The updates of registers change
`regs` alone, and a counter, flag or capture the tick's list of occurrences (R534) besides; an event changes `raised` alone, a
byte or level sent `out` alone, a level driven `outNext` alone, a write staged `staged` or `late` alone, a store `mem` alone, a drawn value the model's own counter alone.
-/
namespace Sys2Proof.Machine

/-! ### setWord -/

@[simp] theorem State.setWord_shown (s : State) (a : Nat) (w : Word) : (s.setWord a w).shown = s.shown := rfl

@[simp] theorem State.setWord_staged (s : State) (a : Nat) (w : Word) : (s.setWord a w).staged = s.staged := rfl

@[simp] theorem State.setWord_late (s : State) (a : Nat) (w : Word) : (s.setWord a w).late = s.late := rfl

@[simp] theorem State.setWord_lateIn (s : State) (a : Nat) (w : Word) : (s.setWord a w).lateIn = s.lateIn := rfl

@[simp] theorem State.setWord_occ (s : State) (a : Nat) (w : Word) : (s.setWord a w).occ = s.occ := rfl

@[simp] theorem State.setWord_mem (s : State) (a : Nat) (w : Word) : (s.setWord a w).mem = s.mem := rfl

@[simp] theorem State.setWord_phase (s : State) (a : Nat) (w : Word) : (s.setWord a w).phase = s.phase := rfl

@[simp] theorem State.setWord_tsq (s : State) (a : Nat) (w : Word) : (s.setWord a w).tsq = s.tsq := rfl

@[simp] theorem State.setWord_bnk (s : State) (a : Nat) (w : Word) : (s.setWord a w).bnk = s.bnk := rfl

@[simp] theorem State.setWord_queues (s : State) (a : Nat) (w : Word) : (s.setWord a w).queues = s.queues := rfl

@[simp] theorem State.setWord_val (s : State) (a : Nat) (w : Word) : (s.setWord a w).val = s.val := rfl

@[simp] theorem State.setWord_raised (s : State) (a : Nat) (w : Word) : (s.setWord a w).raised = s.raised := rfl

@[simp] theorem State.setWord_out (s : State) (a : Nat) (w : Word) : (s.setWord a w).out = s.out := rfl

@[simp] theorem State.setWord_outNext (s : State) (a : Nat) (w : Word) : (s.setWord a w).outNext = s.outNext := rfl

@[simp] theorem State.setWord_fresh (s : State) (a : Nat) (w : Word) : (s.setWord a w).fresh = s.fresh := rfl

@[simp] theorem State.setWord_locked (s : State) (a : Nat) (w : Word) : (s.setWord a w).locked = s.locked := rfl

@[simp] theorem State.setWord_xoffNext (s : State) (a : Nat) (w : Word) : (s.setWord a w).xoffNext = s.xoffNext := rfl

@[simp] theorem State.setWord_bal (s : State) (a : Nat) (w : Word) : (s.setWord a w).bal = s.bal := rfl

@[simp] theorem State.setWord_mtr (s : State) (a : Nat) (w : Word) : (s.setWord a w).mtr = s.mtr := rfl

@[simp] theorem State.setWord_tim (s : State) (a : Nat) (w : Word) : (s.setWord a w).tim = s.tim := rfl

@[simp] theorem State.setWord_eth (s : State) (a : Nat) (w : Word) : (s.setWord a w).eth = s.eth := rfl

@[simp] theorem State.setWord_plc (s : State) (a : Nat) (w : Word) : (s.setWord a w).plc = s.plc := rfl

@[simp] theorem State.setWord_plk (s : State) (a : Nat) (w : Word) : (s.setWord a w).plk = s.plk := rfl

@[simp] theorem State.setWord_bus (s : State) (a : Nat) (w : Word) : (s.setWord a w).bus = s.bus := rfl

@[simp] theorem State.setWord_uart (s : State) (a : Nat) (w : Word) : (s.setWord a w).uart = s.uart := rfl

@[simp] theorem State.setWord_scripts (s : State) (a : Nat) (w : Word) : (s.setWord a w).scripts = s.scripts := rfl

@[simp] theorem State.setWord_sup (s : State) (a : Nat) (w : Word) : (s.setWord a w).sup = s.sup := rfl

@[simp] theorem State.setWord_chg (s : State) (a : Nat) (w : Word) : (s.setWord a w).chg = s.chg := rfl

@[simp] theorem State.setWord_sec (s : State) (a : Nat) (w : Word) : (s.setWord a w).sec = s.sec := rfl

@[simp] theorem State.setWord_otp (s : State) (a : Nat) (w : Word) : (s.setWord a w).otp = s.otp := rfl

@[simp] theorem State.setWord_ftl (s : State) (a : Nat) (w : Word) : (s.setWord a w).ftl = s.ftl := rfl

@[simp] theorem State.setWord_nand (s : State) (a : Nat) (w : Word) : (s.setWord a w).nand = s.nand := rfl

@[simp] theorem State.setWord_evr (s : State) (a : Nat) (w : Word) : (s.setWord a w).evr = s.evr := rfl

@[simp] theorem State.setWord_isl (s : State) (a : Nat) (w : Word) : (s.setWord a w).isl = s.isl := rfl

@[simp] theorem State.setWord_chgSecond (s : State) (a : Nat) (w : Word) : (s.setWord a w).chgSecond = s.chgSecond := rfl

@[simp] theorem State.setWord_nor (s : State) (a : Nat) (w : Word) : (s.setWord a w).nor = s.nor := rfl

@[simp] theorem State.setWord_upd (s : State) (a : Nat) (w : Word) : (s.setWord a w).upd = s.upd := rfl

@[simp] theorem State.setWord_boot (s : State) (a : Nat) (w : Word) : (s.setWord a w).boot = s.boot := rfl

@[simp] theorem State.setWord_prt (s : State) (a : Nat) (w : Word) : (s.setWord a w).prt = s.prt := rfl

@[simp] theorem State.setWord_jtag (s : State) (a : Nat) (w : Word) : (s.setWord a w).jtag = s.jtag := rfl

@[simp] theorem State.setWord_svc (s : State) (a : Nat) (w : Word) : (s.setWord a w).svc = s.svc := rfl

@[simp] theorem State.setWord_pending (s : State) (a : Nat) (w : Word) : (s.setWord a w).pending = s.pending := rfl

/-! ### set -/

@[simp] theorem State.set_shown (s : State) (f : Fld) (v : Nat) : (s.set f v).shown = s.shown := rfl

@[simp] theorem State.set_staged (s : State) (f : Fld) (v : Nat) : (s.set f v).staged = s.staged := rfl

@[simp] theorem State.set_late (s : State) (f : Fld) (v : Nat) : (s.set f v).late = s.late := rfl

@[simp] theorem State.set_lateIn (s : State) (f : Fld) (v : Nat) : (s.set f v).lateIn = s.lateIn := rfl

@[simp] theorem State.set_occ (s : State) (f : Fld) (v : Nat) : (s.set f v).occ = s.occ := rfl

@[simp] theorem State.set_mem (s : State) (f : Fld) (v : Nat) : (s.set f v).mem = s.mem := rfl

@[simp] theorem State.set_phase (s : State) (f : Fld) (v : Nat) : (s.set f v).phase = s.phase := rfl

@[simp] theorem State.set_tsq (s : State) (f : Fld) (v : Nat) : (s.set f v).tsq = s.tsq := rfl

@[simp] theorem State.set_bnk (s : State) (f : Fld) (v : Nat) : (s.set f v).bnk = s.bnk := rfl

@[simp] theorem State.set_queues (s : State) (f : Fld) (v : Nat) : (s.set f v).queues = s.queues := rfl

@[simp] theorem State.set_val (s : State) (f : Fld) (v : Nat) : (s.set f v).val = s.val := rfl

@[simp] theorem State.set_raised (s : State) (f : Fld) (v : Nat) : (s.set f v).raised = s.raised := rfl

@[simp] theorem State.set_out (s : State) (f : Fld) (v : Nat) : (s.set f v).out = s.out := rfl

@[simp] theorem State.set_outNext (s : State) (f : Fld) (v : Nat) : (s.set f v).outNext = s.outNext := rfl

@[simp] theorem State.set_fresh (s : State) (f : Fld) (v : Nat) : (s.set f v).fresh = s.fresh := rfl

@[simp] theorem State.set_locked (s : State) (f : Fld) (v : Nat) : (s.set f v).locked = s.locked := rfl

@[simp] theorem State.set_xoffNext (s : State) (f : Fld) (v : Nat) : (s.set f v).xoffNext = s.xoffNext := rfl

@[simp] theorem State.set_bal (s : State) (f : Fld) (v : Nat) : (s.set f v).bal = s.bal := rfl

@[simp] theorem State.set_mtr (s : State) (f : Fld) (v : Nat) : (s.set f v).mtr = s.mtr := rfl

@[simp] theorem State.set_tim (s : State) (f : Fld) (v : Nat) : (s.set f v).tim = s.tim := rfl

@[simp] theorem State.set_eth (s : State) (f : Fld) (v : Nat) : (s.set f v).eth = s.eth := rfl

@[simp] theorem State.set_plc (s : State) (f : Fld) (v : Nat) : (s.set f v).plc = s.plc := rfl

@[simp] theorem State.set_plk (s : State) (f : Fld) (v : Nat) : (s.set f v).plk = s.plk := rfl

@[simp] theorem State.set_bus (s : State) (f : Fld) (v : Nat) : (s.set f v).bus = s.bus := rfl

@[simp] theorem State.set_uart (s : State) (f : Fld) (v : Nat) : (s.set f v).uart = s.uart := rfl

@[simp] theorem State.set_scripts (s : State) (f : Fld) (v : Nat) : (s.set f v).scripts = s.scripts := rfl

@[simp] theorem State.set_sup (s : State) (f : Fld) (v : Nat) : (s.set f v).sup = s.sup := rfl

@[simp] theorem State.set_chg (s : State) (f : Fld) (v : Nat) : (s.set f v).chg = s.chg := rfl

@[simp] theorem State.set_sec (s : State) (f : Fld) (v : Nat) : (s.set f v).sec = s.sec := rfl

@[simp] theorem State.set_otp (s : State) (f : Fld) (v : Nat) : (s.set f v).otp = s.otp := rfl

@[simp] theorem State.set_ftl (s : State) (f : Fld) (v : Nat) : (s.set f v).ftl = s.ftl := rfl

@[simp] theorem State.set_nand (s : State) (f : Fld) (v : Nat) : (s.set f v).nand = s.nand := rfl

@[simp] theorem State.set_evr (s : State) (f : Fld) (v : Nat) : (s.set f v).evr = s.evr := rfl

@[simp] theorem State.set_isl (s : State) (f : Fld) (v : Nat) : (s.set f v).isl = s.isl := rfl

@[simp] theorem State.set_chgSecond (s : State) (f : Fld) (v : Nat) : (s.set f v).chgSecond = s.chgSecond := rfl

@[simp] theorem State.set_nor (s : State) (f : Fld) (v : Nat) : (s.set f v).nor = s.nor := rfl

@[simp] theorem State.set_upd (s : State) (f : Fld) (v : Nat) : (s.set f v).upd = s.upd := rfl

@[simp] theorem State.set_boot (s : State) (f : Fld) (v : Nat) : (s.set f v).boot = s.boot := rfl

@[simp] theorem State.set_prt (s : State) (f : Fld) (v : Nat) : (s.set f v).prt = s.prt := rfl

@[simp] theorem State.set_jtag (s : State) (f : Fld) (v : Nat) : (s.set f v).jtag = s.jtag := rfl

@[simp] theorem State.set_svc (s : State) (f : Fld) (v : Nat) : (s.set f v).svc = s.svc := rfl

@[simp] theorem State.set_pending (s : State) (f : Fld) (v : Nat) : (s.set f v).pending = s.pending := rfl

/-! ### keepFld -/

@[simp] theorem State.keepFld_staged (s : State) (t : State) (f : Fld) : (s.keepFld t f).staged = t.staged := rfl

@[simp] theorem State.keepFld_late (s : State) (t : State) (f : Fld) : (s.keepFld t f).late = t.late := rfl

@[simp] theorem State.keepFld_lateIn (s : State) (t : State) (f : Fld) : (s.keepFld t f).lateIn = t.lateIn := rfl

@[simp] theorem State.keepFld_occ (s : State) (t : State) (f : Fld) : (s.keepFld t f).occ = t.occ := rfl

@[simp] theorem State.keepFld_mem (s : State) (t : State) (f : Fld) : (s.keepFld t f).mem = t.mem := rfl

@[simp] theorem State.keepFld_phase (s : State) (t : State) (f : Fld) : (s.keepFld t f).phase = t.phase := rfl

@[simp] theorem State.keepFld_tsq (s : State) (t : State) (f : Fld) : (s.keepFld t f).tsq = t.tsq := rfl

@[simp] theorem State.keepFld_bnk (s : State) (t : State) (f : Fld) : (s.keepFld t f).bnk = t.bnk := rfl

@[simp] theorem State.keepFld_queues (s : State) (t : State) (f : Fld) : (s.keepFld t f).queues = t.queues := rfl

@[simp] theorem State.keepFld_val (s : State) (t : State) (f : Fld) : (s.keepFld t f).val = t.val := rfl

@[simp] theorem State.keepFld_raised (s : State) (t : State) (f : Fld) : (s.keepFld t f).raised = t.raised := rfl

@[simp] theorem State.keepFld_out (s : State) (t : State) (f : Fld) : (s.keepFld t f).out = t.out := rfl

@[simp] theorem State.keepFld_outNext (s : State) (t : State) (f : Fld) : (s.keepFld t f).outNext = t.outNext := rfl

@[simp] theorem State.keepFld_fresh (s : State) (t : State) (f : Fld) : (s.keepFld t f).fresh = t.fresh := rfl

@[simp] theorem State.keepFld_locked (s : State) (t : State) (f : Fld) : (s.keepFld t f).locked = t.locked := rfl

@[simp] theorem State.keepFld_xoffNext (s : State) (t : State) (f : Fld) : (s.keepFld t f).xoffNext = t.xoffNext := rfl

@[simp] theorem State.keepFld_bal (s : State) (t : State) (f : Fld) : (s.keepFld t f).bal = t.bal := rfl

@[simp] theorem State.keepFld_mtr (s : State) (t : State) (f : Fld) : (s.keepFld t f).mtr = t.mtr := rfl

@[simp] theorem State.keepFld_tim (s : State) (t : State) (f : Fld) : (s.keepFld t f).tim = t.tim := rfl

@[simp] theorem State.keepFld_eth (s : State) (t : State) (f : Fld) : (s.keepFld t f).eth = t.eth := rfl

@[simp] theorem State.keepFld_plc (s : State) (t : State) (f : Fld) : (s.keepFld t f).plc = t.plc := rfl

@[simp] theorem State.keepFld_plk (s : State) (t : State) (f : Fld) : (s.keepFld t f).plk = t.plk := rfl

@[simp] theorem State.keepFld_bus (s : State) (t : State) (f : Fld) : (s.keepFld t f).bus = t.bus := rfl

@[simp] theorem State.keepFld_uart (s : State) (t : State) (f : Fld) : (s.keepFld t f).uart = t.uart := rfl

@[simp] theorem State.keepFld_scripts (s : State) (t : State) (f : Fld) : (s.keepFld t f).scripts = t.scripts := rfl

@[simp] theorem State.keepFld_sup (s : State) (t : State) (f : Fld) : (s.keepFld t f).sup = t.sup := rfl

@[simp] theorem State.keepFld_chg (s : State) (t : State) (f : Fld) : (s.keepFld t f).chg = t.chg := rfl

@[simp] theorem State.keepFld_sec (s : State) (t : State) (f : Fld) : (s.keepFld t f).sec = t.sec := rfl

@[simp] theorem State.keepFld_otp (s : State) (t : State) (f : Fld) : (s.keepFld t f).otp = t.otp := rfl

@[simp] theorem State.keepFld_ftl (s : State) (t : State) (f : Fld) : (s.keepFld t f).ftl = t.ftl := rfl

@[simp] theorem State.keepFld_nand (s : State) (t : State) (f : Fld) : (s.keepFld t f).nand = t.nand := rfl

@[simp] theorem State.keepFld_evr (s : State) (t : State) (f : Fld) : (s.keepFld t f).evr = t.evr := rfl

@[simp] theorem State.keepFld_isl (s : State) (t : State) (f : Fld) : (s.keepFld t f).isl = t.isl := rfl

@[simp] theorem State.keepFld_chgSecond (s : State) (t : State) (f : Fld) : (s.keepFld t f).chgSecond = t.chgSecond := rfl

@[simp] theorem State.keepFld_nor (s : State) (t : State) (f : Fld) : (s.keepFld t f).nor = t.nor := rfl

@[simp] theorem State.keepFld_upd (s : State) (t : State) (f : Fld) : (s.keepFld t f).upd = t.upd := rfl

@[simp] theorem State.keepFld_boot (s : State) (t : State) (f : Fld) : (s.keepFld t f).boot = t.boot := rfl

@[simp] theorem State.keepFld_prt (s : State) (t : State) (f : Fld) : (s.keepFld t f).prt = t.prt := rfl

@[simp] theorem State.keepFld_jtag (s : State) (t : State) (f : Fld) : (s.keepFld t f).jtag = t.jtag := rfl

@[simp] theorem State.keepFld_svc (s : State) (t : State) (f : Fld) : (s.keepFld t f).svc = t.svc := rfl

@[simp] theorem State.keepFld_pending (s : State) (t : State) (f : Fld) : (s.keepFld t f).pending = t.pending := rfl

/-! ### setAll -/

theorem State.setAll_cons (s : State) (p : Fld × Nat) (l : List (Fld × Nat)) : s.setAll (p :: l) = (s.set p.1 p.2).setAll l := rfl

@[simp] theorem State.setAll_nil (s : State) : s.setAll [] = s := rfl

@[simp] theorem State.setAll_shown (s : State) (l : List (Fld × Nat)) : (s.setAll l).shown = s.shown := by
  induction l generalizing s with
  | nil => rfl
  | cons p l ih => rw [State.setAll_cons, ih, State.set_shown]

@[simp] theorem State.setAll_staged (s : State) (l : List (Fld × Nat)) : (s.setAll l).staged = s.staged := by
  induction l generalizing s with
  | nil => rfl
  | cons p l ih => rw [State.setAll_cons, ih, State.set_staged]

@[simp] theorem State.setAll_late (s : State) (l : List (Fld × Nat)) : (s.setAll l).late = s.late := by
  induction l generalizing s with
  | nil => rfl
  | cons p l ih => rw [State.setAll_cons, ih, State.set_late]

@[simp] theorem State.setAll_lateIn (s : State) (l : List (Fld × Nat)) : (s.setAll l).lateIn = s.lateIn := by
  induction l generalizing s with
  | nil => rfl
  | cons p l ih => rw [State.setAll_cons, ih, State.set_lateIn]

@[simp] theorem State.setAll_occ (s : State) (l : List (Fld × Nat)) : (s.setAll l).occ = s.occ := by
  induction l generalizing s with
  | nil => rfl
  | cons p l ih => rw [State.setAll_cons, ih, State.set_occ]

@[simp] theorem State.setAll_mem (s : State) (l : List (Fld × Nat)) : (s.setAll l).mem = s.mem := by
  induction l generalizing s with
  | nil => rfl
  | cons p l ih => rw [State.setAll_cons, ih, State.set_mem]

@[simp] theorem State.setAll_phase (s : State) (l : List (Fld × Nat)) : (s.setAll l).phase = s.phase := by
  induction l generalizing s with
  | nil => rfl
  | cons p l ih => rw [State.setAll_cons, ih, State.set_phase]

@[simp] theorem State.setAll_tsq (s : State) (l : List (Fld × Nat)) : (s.setAll l).tsq = s.tsq := by
  induction l generalizing s with
  | nil => rfl
  | cons p l ih => rw [State.setAll_cons, ih, State.set_tsq]

@[simp] theorem State.setAll_bnk (s : State) (l : List (Fld × Nat)) : (s.setAll l).bnk = s.bnk := by
  induction l generalizing s with
  | nil => rfl
  | cons p l ih => rw [State.setAll_cons, ih, State.set_bnk]

@[simp] theorem State.setAll_queues (s : State) (l : List (Fld × Nat)) : (s.setAll l).queues = s.queues := by
  induction l generalizing s with
  | nil => rfl
  | cons p l ih => rw [State.setAll_cons, ih, State.set_queues]

@[simp] theorem State.setAll_val (s : State) (l : List (Fld × Nat)) : (s.setAll l).val = s.val := by
  induction l generalizing s with
  | nil => rfl
  | cons p l ih => rw [State.setAll_cons, ih, State.set_val]

@[simp] theorem State.setAll_raised (s : State) (l : List (Fld × Nat)) : (s.setAll l).raised = s.raised := by
  induction l generalizing s with
  | nil => rfl
  | cons p l ih => rw [State.setAll_cons, ih, State.set_raised]

@[simp] theorem State.setAll_out (s : State) (l : List (Fld × Nat)) : (s.setAll l).out = s.out := by
  induction l generalizing s with
  | nil => rfl
  | cons p l ih => rw [State.setAll_cons, ih, State.set_out]

@[simp] theorem State.setAll_outNext (s : State) (l : List (Fld × Nat)) : (s.setAll l).outNext = s.outNext := by
  induction l generalizing s with
  | nil => rfl
  | cons p l ih => rw [State.setAll_cons, ih, State.set_outNext]

@[simp] theorem State.setAll_fresh (s : State) (l : List (Fld × Nat)) : (s.setAll l).fresh = s.fresh := by
  induction l generalizing s with
  | nil => rfl
  | cons p l ih => rw [State.setAll_cons, ih, State.set_fresh]

@[simp] theorem State.setAll_locked (s : State) (l : List (Fld × Nat)) : (s.setAll l).locked = s.locked := by
  induction l generalizing s with
  | nil => rfl
  | cons p l ih => rw [State.setAll_cons, ih, State.set_locked]

@[simp] theorem State.setAll_xoffNext (s : State) (l : List (Fld × Nat)) : (s.setAll l).xoffNext = s.xoffNext := by
  induction l generalizing s with
  | nil => rfl
  | cons p l ih => rw [State.setAll_cons, ih, State.set_xoffNext]

@[simp] theorem State.setAll_bal (s : State) (l : List (Fld × Nat)) : (s.setAll l).bal = s.bal := by
  induction l generalizing s with
  | nil => rfl
  | cons p l ih => rw [State.setAll_cons, ih, State.set_bal]

@[simp] theorem State.setAll_mtr (s : State) (l : List (Fld × Nat)) : (s.setAll l).mtr = s.mtr := by
  induction l generalizing s with
  | nil => rfl
  | cons p l ih => rw [State.setAll_cons, ih, State.set_mtr]

@[simp] theorem State.setAll_tim (s : State) (l : List (Fld × Nat)) : (s.setAll l).tim = s.tim := by
  induction l generalizing s with
  | nil => rfl
  | cons p l ih => rw [State.setAll_cons, ih, State.set_tim]

@[simp] theorem State.setAll_eth (s : State) (l : List (Fld × Nat)) : (s.setAll l).eth = s.eth := by
  induction l generalizing s with
  | nil => rfl
  | cons p l ih => rw [State.setAll_cons, ih, State.set_eth]

@[simp] theorem State.setAll_plc (s : State) (l : List (Fld × Nat)) : (s.setAll l).plc = s.plc := by
  induction l generalizing s with
  | nil => rfl
  | cons p l ih => rw [State.setAll_cons, ih, State.set_plc]

@[simp] theorem State.setAll_plk (s : State) (l : List (Fld × Nat)) : (s.setAll l).plk = s.plk := by
  induction l generalizing s with
  | nil => rfl
  | cons p l ih => rw [State.setAll_cons, ih, State.set_plk]

@[simp] theorem State.setAll_bus (s : State) (l : List (Fld × Nat)) : (s.setAll l).bus = s.bus := by
  induction l generalizing s with
  | nil => rfl
  | cons p l ih => rw [State.setAll_cons, ih, State.set_bus]

@[simp] theorem State.setAll_uart (s : State) (l : List (Fld × Nat)) : (s.setAll l).uart = s.uart := by
  induction l generalizing s with
  | nil => rfl
  | cons p l ih => rw [State.setAll_cons, ih, State.set_uart]

@[simp] theorem State.setAll_scripts (s : State) (l : List (Fld × Nat)) : (s.setAll l).scripts = s.scripts := by
  induction l generalizing s with
  | nil => rfl
  | cons p l ih => rw [State.setAll_cons, ih, State.set_scripts]

@[simp] theorem State.setAll_sup (s : State) (l : List (Fld × Nat)) : (s.setAll l).sup = s.sup := by
  induction l generalizing s with
  | nil => rfl
  | cons p l ih => rw [State.setAll_cons, ih, State.set_sup]

@[simp] theorem State.setAll_chg (s : State) (l : List (Fld × Nat)) : (s.setAll l).chg = s.chg := by
  induction l generalizing s with
  | nil => rfl
  | cons p l ih => rw [State.setAll_cons, ih, State.set_chg]

@[simp] theorem State.setAll_sec (s : State) (l : List (Fld × Nat)) : (s.setAll l).sec = s.sec := by
  induction l generalizing s with
  | nil => rfl
  | cons p l ih => rw [State.setAll_cons, ih, State.set_sec]

@[simp] theorem State.setAll_otp (s : State) (l : List (Fld × Nat)) : (s.setAll l).otp = s.otp := by
  induction l generalizing s with
  | nil => rfl
  | cons p l ih => rw [State.setAll_cons, ih, State.set_otp]

@[simp] theorem State.setAll_ftl (s : State) (l : List (Fld × Nat)) : (s.setAll l).ftl = s.ftl := by
  induction l generalizing s with
  | nil => rfl
  | cons p l ih => rw [State.setAll_cons, ih, State.set_ftl]

@[simp] theorem State.setAll_nand (s : State) (l : List (Fld × Nat)) : (s.setAll l).nand = s.nand := by
  induction l generalizing s with
  | nil => rfl
  | cons p l ih => rw [State.setAll_cons, ih, State.set_nand]

@[simp] theorem State.setAll_evr (s : State) (l : List (Fld × Nat)) : (s.setAll l).evr = s.evr := by
  induction l generalizing s with
  | nil => rfl
  | cons p l ih => rw [State.setAll_cons, ih, State.set_evr]

@[simp] theorem State.setAll_isl (s : State) (l : List (Fld × Nat)) : (s.setAll l).isl = s.isl := by
  induction l generalizing s with
  | nil => rfl
  | cons p l ih => rw [State.setAll_cons, ih, State.set_isl]

@[simp] theorem State.setAll_chgSecond (s : State) (l : List (Fld × Nat)) : (s.setAll l).chgSecond = s.chgSecond := by
  induction l generalizing s with
  | nil => rfl
  | cons p l ih => rw [State.setAll_cons, ih, State.set_chgSecond]

@[simp] theorem State.setAll_nor (s : State) (l : List (Fld × Nat)) : (s.setAll l).nor = s.nor := by
  induction l generalizing s with
  | nil => rfl
  | cons p l ih => rw [State.setAll_cons, ih, State.set_nor]

@[simp] theorem State.setAll_upd (s : State) (l : List (Fld × Nat)) : (s.setAll l).upd = s.upd := by
  induction l generalizing s with
  | nil => rfl
  | cons p l ih => rw [State.setAll_cons, ih, State.set_upd]

@[simp] theorem State.setAll_boot (s : State) (l : List (Fld × Nat)) : (s.setAll l).boot = s.boot := by
  induction l generalizing s with
  | nil => rfl
  | cons p l ih => rw [State.setAll_cons, ih, State.set_boot]

@[simp] theorem State.setAll_prt (s : State) (l : List (Fld × Nat)) : (s.setAll l).prt = s.prt := by
  induction l generalizing s with
  | nil => rfl
  | cons p l ih => rw [State.setAll_cons, ih, State.set_prt]

@[simp] theorem State.setAll_jtag (s : State) (l : List (Fld × Nat)) : (s.setAll l).jtag = s.jtag := by
  induction l generalizing s with
  | nil => rfl
  | cons p l ih => rw [State.setAll_cons, ih, State.set_jtag]

@[simp] theorem State.setAll_svc (s : State) (l : List (Fld × Nat)) : (s.setAll l).svc = s.svc := by
  induction l generalizing s with
  | nil => rfl
  | cons p l ih => rw [State.setAll_cons, ih, State.set_svc]

@[simp] theorem State.setAll_pending (s : State) (l : List (Fld × Nat)) : (s.setAll l).pending = s.pending := by
  induction l generalizing s with
  | nil => rfl
  | cons p l ih => rw [State.setAll_cons, ih, State.set_pending]

/-! ### bumpBy -/

@[simp] theorem State.bumpBy_shown (s : State) (f : Fld) (n : Nat) : (s.bumpBy f n).shown = s.shown := rfl

@[simp] theorem State.bumpBy_staged (s : State) (f : Fld) (n : Nat) : (s.bumpBy f n).staged = s.staged := rfl

@[simp] theorem State.bumpBy_late (s : State) (f : Fld) (n : Nat) : (s.bumpBy f n).late = s.late := rfl

@[simp] theorem State.bumpBy_lateIn (s : State) (f : Fld) (n : Nat) : (s.bumpBy f n).lateIn = s.lateIn := rfl

@[simp] theorem State.bumpBy_mem (s : State) (f : Fld) (n : Nat) : (s.bumpBy f n).mem = s.mem := rfl

@[simp] theorem State.bumpBy_phase (s : State) (f : Fld) (n : Nat) : (s.bumpBy f n).phase = s.phase := rfl

@[simp] theorem State.bumpBy_tsq (s : State) (f : Fld) (n : Nat) : (s.bumpBy f n).tsq = s.tsq := rfl

@[simp] theorem State.bumpBy_bnk (s : State) (f : Fld) (n : Nat) : (s.bumpBy f n).bnk = s.bnk := rfl

@[simp] theorem State.bumpBy_queues (s : State) (f : Fld) (n : Nat) : (s.bumpBy f n).queues = s.queues := rfl

@[simp] theorem State.bumpBy_val (s : State) (f : Fld) (n : Nat) : (s.bumpBy f n).val = s.val := rfl

@[simp] theorem State.bumpBy_raised (s : State) (f : Fld) (n : Nat) : (s.bumpBy f n).raised = s.raised := rfl

@[simp] theorem State.bumpBy_out (s : State) (f : Fld) (n : Nat) : (s.bumpBy f n).out = s.out := rfl

@[simp] theorem State.bumpBy_outNext (s : State) (f : Fld) (n : Nat) : (s.bumpBy f n).outNext = s.outNext := rfl

@[simp] theorem State.bumpBy_fresh (s : State) (f : Fld) (n : Nat) : (s.bumpBy f n).fresh = s.fresh := rfl

@[simp] theorem State.bumpBy_locked (s : State) (f : Fld) (n : Nat) : (s.bumpBy f n).locked = s.locked := rfl

@[simp] theorem State.bumpBy_xoffNext (s : State) (f : Fld) (n : Nat) : (s.bumpBy f n).xoffNext = s.xoffNext := rfl

@[simp] theorem State.bumpBy_bal (s : State) (f : Fld) (n : Nat) : (s.bumpBy f n).bal = s.bal := rfl

@[simp] theorem State.bumpBy_mtr (s : State) (f : Fld) (n : Nat) : (s.bumpBy f n).mtr = s.mtr := rfl

@[simp] theorem State.bumpBy_tim (s : State) (f : Fld) (n : Nat) : (s.bumpBy f n).tim = s.tim := rfl

@[simp] theorem State.bumpBy_eth (s : State) (f : Fld) (n : Nat) : (s.bumpBy f n).eth = s.eth := rfl

@[simp] theorem State.bumpBy_plc (s : State) (f : Fld) (n : Nat) : (s.bumpBy f n).plc = s.plc := rfl

@[simp] theorem State.bumpBy_plk (s : State) (f : Fld) (n : Nat) : (s.bumpBy f n).plk = s.plk := rfl

@[simp] theorem State.bumpBy_bus (s : State) (f : Fld) (n : Nat) : (s.bumpBy f n).bus = s.bus := rfl

@[simp] theorem State.bumpBy_uart (s : State) (f : Fld) (n : Nat) : (s.bumpBy f n).uart = s.uart := rfl

@[simp] theorem State.bumpBy_scripts (s : State) (f : Fld) (n : Nat) : (s.bumpBy f n).scripts = s.scripts := rfl

@[simp] theorem State.bumpBy_sup (s : State) (f : Fld) (n : Nat) : (s.bumpBy f n).sup = s.sup := rfl

@[simp] theorem State.bumpBy_chg (s : State) (f : Fld) (n : Nat) : (s.bumpBy f n).chg = s.chg := rfl

@[simp] theorem State.bumpBy_sec (s : State) (f : Fld) (n : Nat) : (s.bumpBy f n).sec = s.sec := rfl

@[simp] theorem State.bumpBy_otp (s : State) (f : Fld) (n : Nat) : (s.bumpBy f n).otp = s.otp := rfl

@[simp] theorem State.bumpBy_ftl (s : State) (f : Fld) (n : Nat) : (s.bumpBy f n).ftl = s.ftl := rfl

@[simp] theorem State.bumpBy_nand (s : State) (f : Fld) (n : Nat) : (s.bumpBy f n).nand = s.nand := rfl

@[simp] theorem State.bumpBy_evr (s : State) (f : Fld) (n : Nat) : (s.bumpBy f n).evr = s.evr := rfl

@[simp] theorem State.bumpBy_isl (s : State) (f : Fld) (n : Nat) : (s.bumpBy f n).isl = s.isl := rfl

@[simp] theorem State.bumpBy_chgSecond (s : State) (f : Fld) (n : Nat) : (s.bumpBy f n).chgSecond = s.chgSecond := rfl

@[simp] theorem State.bumpBy_nor (s : State) (f : Fld) (n : Nat) : (s.bumpBy f n).nor = s.nor := rfl

@[simp] theorem State.bumpBy_upd (s : State) (f : Fld) (n : Nat) : (s.bumpBy f n).upd = s.upd := rfl

@[simp] theorem State.bumpBy_boot (s : State) (f : Fld) (n : Nat) : (s.bumpBy f n).boot = s.boot := rfl

@[simp] theorem State.bumpBy_prt (s : State) (f : Fld) (n : Nat) : (s.bumpBy f n).prt = s.prt := rfl

@[simp] theorem State.bumpBy_jtag (s : State) (f : Fld) (n : Nat) : (s.bumpBy f n).jtag = s.jtag := rfl

@[simp] theorem State.bumpBy_svc (s : State) (f : Fld) (n : Nat) : (s.bumpBy f n).svc = s.svc := rfl

@[simp] theorem State.bumpBy_pending (s : State) (f : Fld) (n : Nat) : (s.bumpBy f n).pending = s.pending := rfl

/-! ### bump -/

@[simp] theorem State.bump_shown (s : State) (f : Fld) : (s.bump f).shown = s.shown := rfl

@[simp] theorem State.bump_staged (s : State) (f : Fld) : (s.bump f).staged = s.staged := rfl

@[simp] theorem State.bump_late (s : State) (f : Fld) : (s.bump f).late = s.late := rfl

@[simp] theorem State.bump_lateIn (s : State) (f : Fld) : (s.bump f).lateIn = s.lateIn := rfl

@[simp] theorem State.bump_mem (s : State) (f : Fld) : (s.bump f).mem = s.mem := rfl

@[simp] theorem State.bump_phase (s : State) (f : Fld) : (s.bump f).phase = s.phase := rfl

@[simp] theorem State.bump_tsq (s : State) (f : Fld) : (s.bump f).tsq = s.tsq := rfl

@[simp] theorem State.bump_bnk (s : State) (f : Fld) : (s.bump f).bnk = s.bnk := rfl

@[simp] theorem State.bump_queues (s : State) (f : Fld) : (s.bump f).queues = s.queues := rfl

@[simp] theorem State.bump_val (s : State) (f : Fld) : (s.bump f).val = s.val := rfl

@[simp] theorem State.bump_raised (s : State) (f : Fld) : (s.bump f).raised = s.raised := rfl

@[simp] theorem State.bump_out (s : State) (f : Fld) : (s.bump f).out = s.out := rfl

@[simp] theorem State.bump_outNext (s : State) (f : Fld) : (s.bump f).outNext = s.outNext := rfl

@[simp] theorem State.bump_fresh (s : State) (f : Fld) : (s.bump f).fresh = s.fresh := rfl

@[simp] theorem State.bump_locked (s : State) (f : Fld) : (s.bump f).locked = s.locked := rfl

@[simp] theorem State.bump_xoffNext (s : State) (f : Fld) : (s.bump f).xoffNext = s.xoffNext := rfl

@[simp] theorem State.bump_bal (s : State) (f : Fld) : (s.bump f).bal = s.bal := rfl

@[simp] theorem State.bump_mtr (s : State) (f : Fld) : (s.bump f).mtr = s.mtr := rfl

@[simp] theorem State.bump_tim (s : State) (f : Fld) : (s.bump f).tim = s.tim := rfl

@[simp] theorem State.bump_eth (s : State) (f : Fld) : (s.bump f).eth = s.eth := rfl

@[simp] theorem State.bump_plc (s : State) (f : Fld) : (s.bump f).plc = s.plc := rfl

@[simp] theorem State.bump_plk (s : State) (f : Fld) : (s.bump f).plk = s.plk := rfl

@[simp] theorem State.bump_bus (s : State) (f : Fld) : (s.bump f).bus = s.bus := rfl

@[simp] theorem State.bump_uart (s : State) (f : Fld) : (s.bump f).uart = s.uart := rfl

@[simp] theorem State.bump_scripts (s : State) (f : Fld) : (s.bump f).scripts = s.scripts := rfl

@[simp] theorem State.bump_sup (s : State) (f : Fld) : (s.bump f).sup = s.sup := rfl

@[simp] theorem State.bump_chg (s : State) (f : Fld) : (s.bump f).chg = s.chg := rfl

@[simp] theorem State.bump_sec (s : State) (f : Fld) : (s.bump f).sec = s.sec := rfl

@[simp] theorem State.bump_otp (s : State) (f : Fld) : (s.bump f).otp = s.otp := rfl

@[simp] theorem State.bump_ftl (s : State) (f : Fld) : (s.bump f).ftl = s.ftl := rfl

@[simp] theorem State.bump_nand (s : State) (f : Fld) : (s.bump f).nand = s.nand := rfl

@[simp] theorem State.bump_evr (s : State) (f : Fld) : (s.bump f).evr = s.evr := rfl

@[simp] theorem State.bump_isl (s : State) (f : Fld) : (s.bump f).isl = s.isl := rfl

@[simp] theorem State.bump_chgSecond (s : State) (f : Fld) : (s.bump f).chgSecond = s.chgSecond := rfl

@[simp] theorem State.bump_nor (s : State) (f : Fld) : (s.bump f).nor = s.nor := rfl

@[simp] theorem State.bump_upd (s : State) (f : Fld) : (s.bump f).upd = s.upd := rfl

@[simp] theorem State.bump_boot (s : State) (f : Fld) : (s.bump f).boot = s.boot := rfl

@[simp] theorem State.bump_prt (s : State) (f : Fld) : (s.bump f).prt = s.prt := rfl

@[simp] theorem State.bump_jtag (s : State) (f : Fld) : (s.bump f).jtag = s.jtag := rfl

@[simp] theorem State.bump_svc (s : State) (f : Fld) : (s.bump f).svc = s.svc := rfl

@[simp] theorem State.bump_pending (s : State) (f : Fld) : (s.bump f).pending = s.pending := rfl

/-! ### wrapBy -/

@[simp] theorem State.wrapBy_shown (s : State) (f : Fld) (n : Nat) : (s.wrapBy f n).shown = s.shown := rfl

@[simp] theorem State.wrapBy_staged (s : State) (f : Fld) (n : Nat) : (s.wrapBy f n).staged = s.staged := rfl

@[simp] theorem State.wrapBy_late (s : State) (f : Fld) (n : Nat) : (s.wrapBy f n).late = s.late := rfl

@[simp] theorem State.wrapBy_lateIn (s : State) (f : Fld) (n : Nat) : (s.wrapBy f n).lateIn = s.lateIn := rfl

@[simp] theorem State.wrapBy_occ (s : State) (f : Fld) (n : Nat) : (s.wrapBy f n).occ = s.occ := rfl

@[simp] theorem State.wrapBy_mem (s : State) (f : Fld) (n : Nat) : (s.wrapBy f n).mem = s.mem := rfl

@[simp] theorem State.wrapBy_phase (s : State) (f : Fld) (n : Nat) : (s.wrapBy f n).phase = s.phase := rfl

@[simp] theorem State.wrapBy_tsq (s : State) (f : Fld) (n : Nat) : (s.wrapBy f n).tsq = s.tsq := rfl

@[simp] theorem State.wrapBy_bnk (s : State) (f : Fld) (n : Nat) : (s.wrapBy f n).bnk = s.bnk := rfl

@[simp] theorem State.wrapBy_queues (s : State) (f : Fld) (n : Nat) : (s.wrapBy f n).queues = s.queues := rfl

@[simp] theorem State.wrapBy_val (s : State) (f : Fld) (n : Nat) : (s.wrapBy f n).val = s.val := rfl

@[simp] theorem State.wrapBy_raised (s : State) (f : Fld) (n : Nat) : (s.wrapBy f n).raised = s.raised := rfl

@[simp] theorem State.wrapBy_out (s : State) (f : Fld) (n : Nat) : (s.wrapBy f n).out = s.out := rfl

@[simp] theorem State.wrapBy_outNext (s : State) (f : Fld) (n : Nat) : (s.wrapBy f n).outNext = s.outNext := rfl

@[simp] theorem State.wrapBy_fresh (s : State) (f : Fld) (n : Nat) : (s.wrapBy f n).fresh = s.fresh := rfl

@[simp] theorem State.wrapBy_locked (s : State) (f : Fld) (n : Nat) : (s.wrapBy f n).locked = s.locked := rfl

@[simp] theorem State.wrapBy_xoffNext (s : State) (f : Fld) (n : Nat) : (s.wrapBy f n).xoffNext = s.xoffNext := rfl

@[simp] theorem State.wrapBy_bal (s : State) (f : Fld) (n : Nat) : (s.wrapBy f n).bal = s.bal := rfl

@[simp] theorem State.wrapBy_mtr (s : State) (f : Fld) (n : Nat) : (s.wrapBy f n).mtr = s.mtr := rfl

@[simp] theorem State.wrapBy_tim (s : State) (f : Fld) (n : Nat) : (s.wrapBy f n).tim = s.tim := rfl

@[simp] theorem State.wrapBy_eth (s : State) (f : Fld) (n : Nat) : (s.wrapBy f n).eth = s.eth := rfl

@[simp] theorem State.wrapBy_plc (s : State) (f : Fld) (n : Nat) : (s.wrapBy f n).plc = s.plc := rfl

@[simp] theorem State.wrapBy_plk (s : State) (f : Fld) (n : Nat) : (s.wrapBy f n).plk = s.plk := rfl

@[simp] theorem State.wrapBy_bus (s : State) (f : Fld) (n : Nat) : (s.wrapBy f n).bus = s.bus := rfl

@[simp] theorem State.wrapBy_uart (s : State) (f : Fld) (n : Nat) : (s.wrapBy f n).uart = s.uart := rfl

@[simp] theorem State.wrapBy_scripts (s : State) (f : Fld) (n : Nat) : (s.wrapBy f n).scripts = s.scripts := rfl

@[simp] theorem State.wrapBy_sup (s : State) (f : Fld) (n : Nat) : (s.wrapBy f n).sup = s.sup := rfl

@[simp] theorem State.wrapBy_chg (s : State) (f : Fld) (n : Nat) : (s.wrapBy f n).chg = s.chg := rfl

@[simp] theorem State.wrapBy_sec (s : State) (f : Fld) (n : Nat) : (s.wrapBy f n).sec = s.sec := rfl

@[simp] theorem State.wrapBy_otp (s : State) (f : Fld) (n : Nat) : (s.wrapBy f n).otp = s.otp := rfl

@[simp] theorem State.wrapBy_ftl (s : State) (f : Fld) (n : Nat) : (s.wrapBy f n).ftl = s.ftl := rfl

@[simp] theorem State.wrapBy_nand (s : State) (f : Fld) (n : Nat) : (s.wrapBy f n).nand = s.nand := rfl

@[simp] theorem State.wrapBy_evr (s : State) (f : Fld) (n : Nat) : (s.wrapBy f n).evr = s.evr := rfl

@[simp] theorem State.wrapBy_isl (s : State) (f : Fld) (n : Nat) : (s.wrapBy f n).isl = s.isl := rfl

@[simp] theorem State.wrapBy_chgSecond (s : State) (f : Fld) (n : Nat) : (s.wrapBy f n).chgSecond = s.chgSecond := rfl

@[simp] theorem State.wrapBy_nor (s : State) (f : Fld) (n : Nat) : (s.wrapBy f n).nor = s.nor := rfl

@[simp] theorem State.wrapBy_upd (s : State) (f : Fld) (n : Nat) : (s.wrapBy f n).upd = s.upd := rfl

@[simp] theorem State.wrapBy_boot (s : State) (f : Fld) (n : Nat) : (s.wrapBy f n).boot = s.boot := rfl

@[simp] theorem State.wrapBy_prt (s : State) (f : Fld) (n : Nat) : (s.wrapBy f n).prt = s.prt := rfl

@[simp] theorem State.wrapBy_jtag (s : State) (f : Fld) (n : Nat) : (s.wrapBy f n).jtag = s.jtag := rfl

@[simp] theorem State.wrapBy_svc (s : State) (f : Fld) (n : Nat) : (s.wrapBy f n).svc = s.svc := rfl

@[simp] theorem State.wrapBy_pending (s : State) (f : Fld) (n : Nat) : (s.wrapBy f n).pending = s.pending := rfl

/-! ### wrap -/

@[simp] theorem State.wrap_shown (s : State) (f : Fld) : (s.wrap f).shown = s.shown := rfl

@[simp] theorem State.wrap_staged (s : State) (f : Fld) : (s.wrap f).staged = s.staged := rfl

@[simp] theorem State.wrap_late (s : State) (f : Fld) : (s.wrap f).late = s.late := rfl

@[simp] theorem State.wrap_lateIn (s : State) (f : Fld) : (s.wrap f).lateIn = s.lateIn := rfl

@[simp] theorem State.wrap_occ (s : State) (f : Fld) : (s.wrap f).occ = s.occ := rfl

@[simp] theorem State.wrap_mem (s : State) (f : Fld) : (s.wrap f).mem = s.mem := rfl

@[simp] theorem State.wrap_phase (s : State) (f : Fld) : (s.wrap f).phase = s.phase := rfl

@[simp] theorem State.wrap_tsq (s : State) (f : Fld) : (s.wrap f).tsq = s.tsq := rfl

@[simp] theorem State.wrap_bnk (s : State) (f : Fld) : (s.wrap f).bnk = s.bnk := rfl

@[simp] theorem State.wrap_queues (s : State) (f : Fld) : (s.wrap f).queues = s.queues := rfl

@[simp] theorem State.wrap_val (s : State) (f : Fld) : (s.wrap f).val = s.val := rfl

@[simp] theorem State.wrap_raised (s : State) (f : Fld) : (s.wrap f).raised = s.raised := rfl

@[simp] theorem State.wrap_out (s : State) (f : Fld) : (s.wrap f).out = s.out := rfl

@[simp] theorem State.wrap_outNext (s : State) (f : Fld) : (s.wrap f).outNext = s.outNext := rfl

@[simp] theorem State.wrap_fresh (s : State) (f : Fld) : (s.wrap f).fresh = s.fresh := rfl

@[simp] theorem State.wrap_locked (s : State) (f : Fld) : (s.wrap f).locked = s.locked := rfl

@[simp] theorem State.wrap_xoffNext (s : State) (f : Fld) : (s.wrap f).xoffNext = s.xoffNext := rfl

@[simp] theorem State.wrap_bal (s : State) (f : Fld) : (s.wrap f).bal = s.bal := rfl

@[simp] theorem State.wrap_mtr (s : State) (f : Fld) : (s.wrap f).mtr = s.mtr := rfl

@[simp] theorem State.wrap_tim (s : State) (f : Fld) : (s.wrap f).tim = s.tim := rfl

@[simp] theorem State.wrap_eth (s : State) (f : Fld) : (s.wrap f).eth = s.eth := rfl

@[simp] theorem State.wrap_plc (s : State) (f : Fld) : (s.wrap f).plc = s.plc := rfl

@[simp] theorem State.wrap_plk (s : State) (f : Fld) : (s.wrap f).plk = s.plk := rfl

@[simp] theorem State.wrap_bus (s : State) (f : Fld) : (s.wrap f).bus = s.bus := rfl

@[simp] theorem State.wrap_uart (s : State) (f : Fld) : (s.wrap f).uart = s.uart := rfl

@[simp] theorem State.wrap_scripts (s : State) (f : Fld) : (s.wrap f).scripts = s.scripts := rfl

@[simp] theorem State.wrap_sup (s : State) (f : Fld) : (s.wrap f).sup = s.sup := rfl

@[simp] theorem State.wrap_chg (s : State) (f : Fld) : (s.wrap f).chg = s.chg := rfl

@[simp] theorem State.wrap_sec (s : State) (f : Fld) : (s.wrap f).sec = s.sec := rfl

@[simp] theorem State.wrap_otp (s : State) (f : Fld) : (s.wrap f).otp = s.otp := rfl

@[simp] theorem State.wrap_ftl (s : State) (f : Fld) : (s.wrap f).ftl = s.ftl := rfl

@[simp] theorem State.wrap_nand (s : State) (f : Fld) : (s.wrap f).nand = s.nand := rfl

@[simp] theorem State.wrap_evr (s : State) (f : Fld) : (s.wrap f).evr = s.evr := rfl

@[simp] theorem State.wrap_isl (s : State) (f : Fld) : (s.wrap f).isl = s.isl := rfl

@[simp] theorem State.wrap_chgSecond (s : State) (f : Fld) : (s.wrap f).chgSecond = s.chgSecond := rfl

@[simp] theorem State.wrap_nor (s : State) (f : Fld) : (s.wrap f).nor = s.nor := rfl

@[simp] theorem State.wrap_upd (s : State) (f : Fld) : (s.wrap f).upd = s.upd := rfl

@[simp] theorem State.wrap_boot (s : State) (f : Fld) : (s.wrap f).boot = s.boot := rfl

@[simp] theorem State.wrap_prt (s : State) (f : Fld) : (s.wrap f).prt = s.prt := rfl

@[simp] theorem State.wrap_jtag (s : State) (f : Fld) : (s.wrap f).jtag = s.jtag := rfl

@[simp] theorem State.wrap_svc (s : State) (f : Fld) : (s.wrap f).svc = s.svc := rfl

@[simp] theorem State.wrap_pending (s : State) (f : Fld) : (s.wrap f).pending = s.pending := rfl

/-! ### flag -/

@[simp] theorem State.flag_shown (s : State) (f : Fld) : (s.flag f).shown = s.shown := rfl

@[simp] theorem State.flag_staged (s : State) (f : Fld) : (s.flag f).staged = s.staged := rfl

@[simp] theorem State.flag_late (s : State) (f : Fld) : (s.flag f).late = s.late := rfl

@[simp] theorem State.flag_lateIn (s : State) (f : Fld) : (s.flag f).lateIn = s.lateIn := rfl

@[simp] theorem State.flag_mem (s : State) (f : Fld) : (s.flag f).mem = s.mem := rfl

@[simp] theorem State.flag_phase (s : State) (f : Fld) : (s.flag f).phase = s.phase := rfl

@[simp] theorem State.flag_tsq (s : State) (f : Fld) : (s.flag f).tsq = s.tsq := rfl

@[simp] theorem State.flag_bnk (s : State) (f : Fld) : (s.flag f).bnk = s.bnk := rfl

@[simp] theorem State.flag_queues (s : State) (f : Fld) : (s.flag f).queues = s.queues := rfl

@[simp] theorem State.flag_val (s : State) (f : Fld) : (s.flag f).val = s.val := rfl

@[simp] theorem State.flag_raised (s : State) (f : Fld) : (s.flag f).raised = s.raised := rfl

@[simp] theorem State.flag_out (s : State) (f : Fld) : (s.flag f).out = s.out := rfl

@[simp] theorem State.flag_outNext (s : State) (f : Fld) : (s.flag f).outNext = s.outNext := rfl

@[simp] theorem State.flag_fresh (s : State) (f : Fld) : (s.flag f).fresh = s.fresh := rfl

@[simp] theorem State.flag_locked (s : State) (f : Fld) : (s.flag f).locked = s.locked := rfl

@[simp] theorem State.flag_xoffNext (s : State) (f : Fld) : (s.flag f).xoffNext = s.xoffNext := rfl

@[simp] theorem State.flag_bal (s : State) (f : Fld) : (s.flag f).bal = s.bal := rfl

@[simp] theorem State.flag_mtr (s : State) (f : Fld) : (s.flag f).mtr = s.mtr := rfl

@[simp] theorem State.flag_tim (s : State) (f : Fld) : (s.flag f).tim = s.tim := rfl

@[simp] theorem State.flag_eth (s : State) (f : Fld) : (s.flag f).eth = s.eth := rfl

@[simp] theorem State.flag_plc (s : State) (f : Fld) : (s.flag f).plc = s.plc := rfl

@[simp] theorem State.flag_plk (s : State) (f : Fld) : (s.flag f).plk = s.plk := rfl

@[simp] theorem State.flag_bus (s : State) (f : Fld) : (s.flag f).bus = s.bus := rfl

@[simp] theorem State.flag_uart (s : State) (f : Fld) : (s.flag f).uart = s.uart := rfl

@[simp] theorem State.flag_scripts (s : State) (f : Fld) : (s.flag f).scripts = s.scripts := rfl

@[simp] theorem State.flag_sup (s : State) (f : Fld) : (s.flag f).sup = s.sup := rfl

@[simp] theorem State.flag_chg (s : State) (f : Fld) : (s.flag f).chg = s.chg := rfl

@[simp] theorem State.flag_sec (s : State) (f : Fld) : (s.flag f).sec = s.sec := rfl

@[simp] theorem State.flag_otp (s : State) (f : Fld) : (s.flag f).otp = s.otp := rfl

@[simp] theorem State.flag_ftl (s : State) (f : Fld) : (s.flag f).ftl = s.ftl := rfl

@[simp] theorem State.flag_nand (s : State) (f : Fld) : (s.flag f).nand = s.nand := rfl

@[simp] theorem State.flag_evr (s : State) (f : Fld) : (s.flag f).evr = s.evr := rfl

@[simp] theorem State.flag_isl (s : State) (f : Fld) : (s.flag f).isl = s.isl := rfl

@[simp] theorem State.flag_chgSecond (s : State) (f : Fld) : (s.flag f).chgSecond = s.chgSecond := rfl

@[simp] theorem State.flag_nor (s : State) (f : Fld) : (s.flag f).nor = s.nor := rfl

@[simp] theorem State.flag_upd (s : State) (f : Fld) : (s.flag f).upd = s.upd := rfl

@[simp] theorem State.flag_boot (s : State) (f : Fld) : (s.flag f).boot = s.boot := rfl

@[simp] theorem State.flag_prt (s : State) (f : Fld) : (s.flag f).prt = s.prt := rfl

@[simp] theorem State.flag_jtag (s : State) (f : Fld) : (s.flag f).jtag = s.jtag := rfl

@[simp] theorem State.flag_svc (s : State) (f : Fld) : (s.flag f).svc = s.svc := rfl

@[simp] theorem State.flag_pending (s : State) (f : Fld) : (s.flag f).pending = s.pending := rfl

/-! ### flagBit -/

@[simp] theorem State.flagBit_shown (s : State) (f : Fld) (i : Nat) : (s.flagBit f i).shown = s.shown := rfl

@[simp] theorem State.flagBit_staged (s : State) (f : Fld) (i : Nat) : (s.flagBit f i).staged = s.staged := rfl

@[simp] theorem State.flagBit_late (s : State) (f : Fld) (i : Nat) : (s.flagBit f i).late = s.late := rfl

@[simp] theorem State.flagBit_lateIn (s : State) (f : Fld) (i : Nat) : (s.flagBit f i).lateIn = s.lateIn := rfl

@[simp] theorem State.flagBit_mem (s : State) (f : Fld) (i : Nat) : (s.flagBit f i).mem = s.mem := rfl

@[simp] theorem State.flagBit_phase (s : State) (f : Fld) (i : Nat) : (s.flagBit f i).phase = s.phase := rfl

@[simp] theorem State.flagBit_tsq (s : State) (f : Fld) (i : Nat) : (s.flagBit f i).tsq = s.tsq := rfl

@[simp] theorem State.flagBit_bnk (s : State) (f : Fld) (i : Nat) : (s.flagBit f i).bnk = s.bnk := rfl

@[simp] theorem State.flagBit_queues (s : State) (f : Fld) (i : Nat) : (s.flagBit f i).queues = s.queues := rfl

@[simp] theorem State.flagBit_val (s : State) (f : Fld) (i : Nat) : (s.flagBit f i).val = s.val := rfl

@[simp] theorem State.flagBit_raised (s : State) (f : Fld) (i : Nat) : (s.flagBit f i).raised = s.raised := rfl

@[simp] theorem State.flagBit_out (s : State) (f : Fld) (i : Nat) : (s.flagBit f i).out = s.out := rfl

@[simp] theorem State.flagBit_outNext (s : State) (f : Fld) (i : Nat) : (s.flagBit f i).outNext = s.outNext := rfl

@[simp] theorem State.flagBit_fresh (s : State) (f : Fld) (i : Nat) : (s.flagBit f i).fresh = s.fresh := rfl

@[simp] theorem State.flagBit_locked (s : State) (f : Fld) (i : Nat) : (s.flagBit f i).locked = s.locked := rfl

@[simp] theorem State.flagBit_xoffNext (s : State) (f : Fld) (i : Nat) : (s.flagBit f i).xoffNext = s.xoffNext := rfl

@[simp] theorem State.flagBit_bal (s : State) (f : Fld) (i : Nat) : (s.flagBit f i).bal = s.bal := rfl

@[simp] theorem State.flagBit_mtr (s : State) (f : Fld) (i : Nat) : (s.flagBit f i).mtr = s.mtr := rfl

@[simp] theorem State.flagBit_tim (s : State) (f : Fld) (i : Nat) : (s.flagBit f i).tim = s.tim := rfl

@[simp] theorem State.flagBit_eth (s : State) (f : Fld) (i : Nat) : (s.flagBit f i).eth = s.eth := rfl

@[simp] theorem State.flagBit_plc (s : State) (f : Fld) (i : Nat) : (s.flagBit f i).plc = s.plc := rfl

@[simp] theorem State.flagBit_plk (s : State) (f : Fld) (i : Nat) : (s.flagBit f i).plk = s.plk := rfl

@[simp] theorem State.flagBit_bus (s : State) (f : Fld) (i : Nat) : (s.flagBit f i).bus = s.bus := rfl

@[simp] theorem State.flagBit_uart (s : State) (f : Fld) (i : Nat) : (s.flagBit f i).uart = s.uart := rfl

@[simp] theorem State.flagBit_scripts (s : State) (f : Fld) (i : Nat) : (s.flagBit f i).scripts = s.scripts := rfl

@[simp] theorem State.flagBit_sup (s : State) (f : Fld) (i : Nat) : (s.flagBit f i).sup = s.sup := rfl

@[simp] theorem State.flagBit_chg (s : State) (f : Fld) (i : Nat) : (s.flagBit f i).chg = s.chg := rfl

@[simp] theorem State.flagBit_sec (s : State) (f : Fld) (i : Nat) : (s.flagBit f i).sec = s.sec := rfl

@[simp] theorem State.flagBit_otp (s : State) (f : Fld) (i : Nat) : (s.flagBit f i).otp = s.otp := rfl

@[simp] theorem State.flagBit_ftl (s : State) (f : Fld) (i : Nat) : (s.flagBit f i).ftl = s.ftl := rfl

@[simp] theorem State.flagBit_nand (s : State) (f : Fld) (i : Nat) : (s.flagBit f i).nand = s.nand := rfl

@[simp] theorem State.flagBit_evr (s : State) (f : Fld) (i : Nat) : (s.flagBit f i).evr = s.evr := rfl

@[simp] theorem State.flagBit_isl (s : State) (f : Fld) (i : Nat) : (s.flagBit f i).isl = s.isl := rfl

@[simp] theorem State.flagBit_chgSecond (s : State) (f : Fld) (i : Nat) : (s.flagBit f i).chgSecond = s.chgSecond := rfl

@[simp] theorem State.flagBit_nor (s : State) (f : Fld) (i : Nat) : (s.flagBit f i).nor = s.nor := rfl

@[simp] theorem State.flagBit_upd (s : State) (f : Fld) (i : Nat) : (s.flagBit f i).upd = s.upd := rfl

@[simp] theorem State.flagBit_boot (s : State) (f : Fld) (i : Nat) : (s.flagBit f i).boot = s.boot := rfl

@[simp] theorem State.flagBit_prt (s : State) (f : Fld) (i : Nat) : (s.flagBit f i).prt = s.prt := rfl

@[simp] theorem State.flagBit_jtag (s : State) (f : Fld) (i : Nat) : (s.flagBit f i).jtag = s.jtag := rfl

@[simp] theorem State.flagBit_svc (s : State) (f : Fld) (i : Nat) : (s.flagBit f i).svc = s.svc := rfl

@[simp] theorem State.flagBit_pending (s : State) (f : Fld) (i : Nat) : (s.flagBit f i).pending = s.pending := rfl

/-! ### setBit -/

@[simp] theorem State.setBit_shown (s : State) (f : Fld) (i : Nat) (b : Bool) : (s.setBit f i b).shown = s.shown := rfl

@[simp] theorem State.setBit_staged (s : State) (f : Fld) (i : Nat) (b : Bool) : (s.setBit f i b).staged = s.staged := rfl

@[simp] theorem State.setBit_late (s : State) (f : Fld) (i : Nat) (b : Bool) : (s.setBit f i b).late = s.late := rfl

@[simp] theorem State.setBit_lateIn (s : State) (f : Fld) (i : Nat) (b : Bool) : (s.setBit f i b).lateIn = s.lateIn := rfl

@[simp] theorem State.setBit_occ (s : State) (f : Fld) (i : Nat) (b : Bool) : (s.setBit f i b).occ = s.occ := rfl

@[simp] theorem State.setBit_mem (s : State) (f : Fld) (i : Nat) (b : Bool) : (s.setBit f i b).mem = s.mem := rfl

@[simp] theorem State.setBit_phase (s : State) (f : Fld) (i : Nat) (b : Bool) : (s.setBit f i b).phase = s.phase := rfl

@[simp] theorem State.setBit_tsq (s : State) (f : Fld) (i : Nat) (b : Bool) : (s.setBit f i b).tsq = s.tsq := rfl

@[simp] theorem State.setBit_bnk (s : State) (f : Fld) (i : Nat) (b : Bool) : (s.setBit f i b).bnk = s.bnk := rfl

@[simp] theorem State.setBit_queues (s : State) (f : Fld) (i : Nat) (b : Bool) : (s.setBit f i b).queues = s.queues := rfl

@[simp] theorem State.setBit_val (s : State) (f : Fld) (i : Nat) (b : Bool) : (s.setBit f i b).val = s.val := rfl

@[simp] theorem State.setBit_raised (s : State) (f : Fld) (i : Nat) (b : Bool) : (s.setBit f i b).raised = s.raised := rfl

@[simp] theorem State.setBit_out (s : State) (f : Fld) (i : Nat) (b : Bool) : (s.setBit f i b).out = s.out := rfl

@[simp] theorem State.setBit_outNext (s : State) (f : Fld) (i : Nat) (b : Bool) : (s.setBit f i b).outNext = s.outNext := rfl

@[simp] theorem State.setBit_fresh (s : State) (f : Fld) (i : Nat) (b : Bool) : (s.setBit f i b).fresh = s.fresh := rfl

@[simp] theorem State.setBit_locked (s : State) (f : Fld) (i : Nat) (b : Bool) : (s.setBit f i b).locked = s.locked := rfl

@[simp] theorem State.setBit_xoffNext (s : State) (f : Fld) (i : Nat) (b : Bool) : (s.setBit f i b).xoffNext = s.xoffNext := rfl

@[simp] theorem State.setBit_bal (s : State) (f : Fld) (i : Nat) (b : Bool) : (s.setBit f i b).bal = s.bal := rfl

@[simp] theorem State.setBit_mtr (s : State) (f : Fld) (i : Nat) (b : Bool) : (s.setBit f i b).mtr = s.mtr := rfl

@[simp] theorem State.setBit_tim (s : State) (f : Fld) (i : Nat) (b : Bool) : (s.setBit f i b).tim = s.tim := rfl

@[simp] theorem State.setBit_eth (s : State) (f : Fld) (i : Nat) (b : Bool) : (s.setBit f i b).eth = s.eth := rfl

@[simp] theorem State.setBit_plc (s : State) (f : Fld) (i : Nat) (b : Bool) : (s.setBit f i b).plc = s.plc := rfl

@[simp] theorem State.setBit_plk (s : State) (f : Fld) (i : Nat) (b : Bool) : (s.setBit f i b).plk = s.plk := rfl

@[simp] theorem State.setBit_bus (s : State) (f : Fld) (i : Nat) (b : Bool) : (s.setBit f i b).bus = s.bus := rfl

@[simp] theorem State.setBit_uart (s : State) (f : Fld) (i : Nat) (b : Bool) : (s.setBit f i b).uart = s.uart := rfl

@[simp] theorem State.setBit_scripts (s : State) (f : Fld) (i : Nat) (b : Bool) : (s.setBit f i b).scripts = s.scripts := rfl

@[simp] theorem State.setBit_sup (s : State) (f : Fld) (i : Nat) (b : Bool) : (s.setBit f i b).sup = s.sup := rfl

@[simp] theorem State.setBit_chg (s : State) (f : Fld) (i : Nat) (b : Bool) : (s.setBit f i b).chg = s.chg := rfl

@[simp] theorem State.setBit_sec (s : State) (f : Fld) (i : Nat) (b : Bool) : (s.setBit f i b).sec = s.sec := rfl

@[simp] theorem State.setBit_otp (s : State) (f : Fld) (i : Nat) (b : Bool) : (s.setBit f i b).otp = s.otp := rfl

@[simp] theorem State.setBit_ftl (s : State) (f : Fld) (i : Nat) (b : Bool) : (s.setBit f i b).ftl = s.ftl := rfl

@[simp] theorem State.setBit_nand (s : State) (f : Fld) (i : Nat) (b : Bool) : (s.setBit f i b).nand = s.nand := rfl

@[simp] theorem State.setBit_evr (s : State) (f : Fld) (i : Nat) (b : Bool) : (s.setBit f i b).evr = s.evr := rfl

@[simp] theorem State.setBit_isl (s : State) (f : Fld) (i : Nat) (b : Bool) : (s.setBit f i b).isl = s.isl := rfl

@[simp] theorem State.setBit_chgSecond (s : State) (f : Fld) (i : Nat) (b : Bool) : (s.setBit f i b).chgSecond = s.chgSecond := rfl

@[simp] theorem State.setBit_nor (s : State) (f : Fld) (i : Nat) (b : Bool) : (s.setBit f i b).nor = s.nor := rfl

@[simp] theorem State.setBit_upd (s : State) (f : Fld) (i : Nat) (b : Bool) : (s.setBit f i b).upd = s.upd := rfl

@[simp] theorem State.setBit_boot (s : State) (f : Fld) (i : Nat) (b : Bool) : (s.setBit f i b).boot = s.boot := rfl

@[simp] theorem State.setBit_prt (s : State) (f : Fld) (i : Nat) (b : Bool) : (s.setBit f i b).prt = s.prt := rfl

@[simp] theorem State.setBit_jtag (s : State) (f : Fld) (i : Nat) (b : Bool) : (s.setBit f i b).jtag = s.jtag := rfl

@[simp] theorem State.setBit_svc (s : State) (f : Fld) (i : Nat) (b : Bool) : (s.setBit f i b).svc = s.svc := rfl

@[simp] theorem State.setBit_pending (s : State) (f : Fld) (i : Nat) (b : Bool) : (s.setBit f i b).pending = s.pending := rfl

/-! ### capture -/

@[simp] theorem State.capture_shown (s : State) (f : Fld) (l : List (Fld × Nat)) : (s.capture f l).shown = s.shown := by unfold State.capture; split <;> simp

@[simp] theorem State.capture_staged (s : State) (f : Fld) (l : List (Fld × Nat)) : (s.capture f l).staged = s.staged := by unfold State.capture; split <;> simp

@[simp] theorem State.capture_late (s : State) (f : Fld) (l : List (Fld × Nat)) : (s.capture f l).late = s.late := by unfold State.capture; split <;> simp

@[simp] theorem State.capture_lateIn (s : State) (f : Fld) (l : List (Fld × Nat)) : (s.capture f l).lateIn = s.lateIn := by unfold State.capture; split <;> simp

@[simp] theorem State.capture_mem (s : State) (f : Fld) (l : List (Fld × Nat)) : (s.capture f l).mem = s.mem := by unfold State.capture; split <;> simp

@[simp] theorem State.capture_phase (s : State) (f : Fld) (l : List (Fld × Nat)) : (s.capture f l).phase = s.phase := by unfold State.capture; split <;> simp

@[simp] theorem State.capture_tsq (s : State) (f : Fld) (l : List (Fld × Nat)) : (s.capture f l).tsq = s.tsq := by unfold State.capture; split <;> simp

@[simp] theorem State.capture_bnk (s : State) (f : Fld) (l : List (Fld × Nat)) : (s.capture f l).bnk = s.bnk := by unfold State.capture; split <;> simp

@[simp] theorem State.capture_queues (s : State) (f : Fld) (l : List (Fld × Nat)) : (s.capture f l).queues = s.queues := by unfold State.capture; split <;> simp

@[simp] theorem State.capture_val (s : State) (f : Fld) (l : List (Fld × Nat)) : (s.capture f l).val = s.val := by unfold State.capture; split <;> simp

@[simp] theorem State.capture_raised (s : State) (f : Fld) (l : List (Fld × Nat)) : (s.capture f l).raised = s.raised := by unfold State.capture; split <;> simp

@[simp] theorem State.capture_out (s : State) (f : Fld) (l : List (Fld × Nat)) : (s.capture f l).out = s.out := by unfold State.capture; split <;> simp

@[simp] theorem State.capture_outNext (s : State) (f : Fld) (l : List (Fld × Nat)) : (s.capture f l).outNext = s.outNext := by unfold State.capture; split <;> simp

@[simp] theorem State.capture_fresh (s : State) (f : Fld) (l : List (Fld × Nat)) : (s.capture f l).fresh = s.fresh := by unfold State.capture; split <;> simp

@[simp] theorem State.capture_locked (s : State) (f : Fld) (l : List (Fld × Nat)) : (s.capture f l).locked = s.locked := by unfold State.capture; split <;> simp

@[simp] theorem State.capture_xoffNext (s : State) (f : Fld) (l : List (Fld × Nat)) : (s.capture f l).xoffNext = s.xoffNext := by unfold State.capture; split <;> simp

@[simp] theorem State.capture_bal (s : State) (f : Fld) (l : List (Fld × Nat)) : (s.capture f l).bal = s.bal := by unfold State.capture; split <;> simp

@[simp] theorem State.capture_mtr (s : State) (f : Fld) (l : List (Fld × Nat)) : (s.capture f l).mtr = s.mtr := by unfold State.capture; split <;> simp

@[simp] theorem State.capture_tim (s : State) (f : Fld) (l : List (Fld × Nat)) : (s.capture f l).tim = s.tim := by unfold State.capture; split <;> simp

@[simp] theorem State.capture_eth (s : State) (f : Fld) (l : List (Fld × Nat)) : (s.capture f l).eth = s.eth := by unfold State.capture; split <;> simp

@[simp] theorem State.capture_plc (s : State) (f : Fld) (l : List (Fld × Nat)) : (s.capture f l).plc = s.plc := by unfold State.capture; split <;> simp

@[simp] theorem State.capture_plk (s : State) (f : Fld) (l : List (Fld × Nat)) : (s.capture f l).plk = s.plk := by unfold State.capture; split <;> simp

@[simp] theorem State.capture_bus (s : State) (f : Fld) (l : List (Fld × Nat)) : (s.capture f l).bus = s.bus := by unfold State.capture; split <;> simp

@[simp] theorem State.capture_uart (s : State) (f : Fld) (l : List (Fld × Nat)) : (s.capture f l).uart = s.uart := by unfold State.capture; split <;> simp

@[simp] theorem State.capture_scripts (s : State) (f : Fld) (l : List (Fld × Nat)) : (s.capture f l).scripts = s.scripts := by unfold State.capture; split <;> simp

@[simp] theorem State.capture_sup (s : State) (f : Fld) (l : List (Fld × Nat)) : (s.capture f l).sup = s.sup := by unfold State.capture; split <;> simp

@[simp] theorem State.capture_chg (s : State) (f : Fld) (l : List (Fld × Nat)) : (s.capture f l).chg = s.chg := by unfold State.capture; split <;> simp

@[simp] theorem State.capture_sec (s : State) (f : Fld) (l : List (Fld × Nat)) : (s.capture f l).sec = s.sec := by unfold State.capture; split <;> simp

@[simp] theorem State.capture_otp (s : State) (f : Fld) (l : List (Fld × Nat)) : (s.capture f l).otp = s.otp := by unfold State.capture; split <;> simp

@[simp] theorem State.capture_ftl (s : State) (f : Fld) (l : List (Fld × Nat)) : (s.capture f l).ftl = s.ftl := by unfold State.capture; split <;> simp

@[simp] theorem State.capture_nand (s : State) (f : Fld) (l : List (Fld × Nat)) : (s.capture f l).nand = s.nand := by unfold State.capture; split <;> simp

@[simp] theorem State.capture_evr (s : State) (f : Fld) (l : List (Fld × Nat)) : (s.capture f l).evr = s.evr := by unfold State.capture; split <;> simp

@[simp] theorem State.capture_isl (s : State) (f : Fld) (l : List (Fld × Nat)) : (s.capture f l).isl = s.isl := by unfold State.capture; split <;> simp

@[simp] theorem State.capture_chgSecond (s : State) (f : Fld) (l : List (Fld × Nat)) : (s.capture f l).chgSecond = s.chgSecond := by unfold State.capture; split <;> simp

@[simp] theorem State.capture_nor (s : State) (f : Fld) (l : List (Fld × Nat)) : (s.capture f l).nor = s.nor := by unfold State.capture; split <;> simp

@[simp] theorem State.capture_upd (s : State) (f : Fld) (l : List (Fld × Nat)) : (s.capture f l).upd = s.upd := by unfold State.capture; split <;> simp

@[simp] theorem State.capture_boot (s : State) (f : Fld) (l : List (Fld × Nat)) : (s.capture f l).boot = s.boot := by unfold State.capture; split <;> simp

@[simp] theorem State.capture_prt (s : State) (f : Fld) (l : List (Fld × Nat)) : (s.capture f l).prt = s.prt := by unfold State.capture; split <;> simp

@[simp] theorem State.capture_jtag (s : State) (f : Fld) (l : List (Fld × Nat)) : (s.capture f l).jtag = s.jtag := by unfold State.capture; split <;> simp

@[simp] theorem State.capture_svc (s : State) (f : Fld) (l : List (Fld × Nat)) : (s.capture f l).svc = s.svc := by unfold State.capture; split <;> simp

@[simp] theorem State.capture_pending (s : State) (f : Fld) (l : List (Fld × Nat)) : (s.capture f l).pending = s.pending := by unfold State.capture; split <;> simp

/-! ### raise -/

@[simp] theorem State.raise_regs (s : State) (c r v : Nat) (l : List (Nat × Nat × Nat)) : (s.raise c r v l).regs = s.regs := rfl

@[simp] theorem State.raise_shown (s : State) (c r v : Nat) (l : List (Nat × Nat × Nat)) : (s.raise c r v l).shown = s.shown := rfl

@[simp] theorem State.raise_staged (s : State) (c r v : Nat) (l : List (Nat × Nat × Nat)) : (s.raise c r v l).staged = s.staged := rfl

@[simp] theorem State.raise_late (s : State) (c r v : Nat) (l : List (Nat × Nat × Nat)) : (s.raise c r v l).late = s.late := rfl

@[simp] theorem State.raise_lateIn (s : State) (c r v : Nat) (l : List (Nat × Nat × Nat)) : (s.raise c r v l).lateIn = s.lateIn := rfl

@[simp] theorem State.raise_occ (s : State) (c r v : Nat) (l : List (Nat × Nat × Nat)) : (s.raise c r v l).occ = s.occ := rfl

@[simp] theorem State.raise_mem (s : State) (c r v : Nat) (l : List (Nat × Nat × Nat)) : (s.raise c r v l).mem = s.mem := rfl

@[simp] theorem State.raise_phase (s : State) (c r v : Nat) (l : List (Nat × Nat × Nat)) : (s.raise c r v l).phase = s.phase := rfl

@[simp] theorem State.raise_tsq (s : State) (c r v : Nat) (l : List (Nat × Nat × Nat)) : (s.raise c r v l).tsq = s.tsq := rfl

@[simp] theorem State.raise_bnk (s : State) (c r v : Nat) (l : List (Nat × Nat × Nat)) : (s.raise c r v l).bnk = s.bnk := rfl

@[simp] theorem State.raise_queues (s : State) (c r v : Nat) (l : List (Nat × Nat × Nat)) : (s.raise c r v l).queues = s.queues := rfl

@[simp] theorem State.raise_val (s : State) (c r v : Nat) (l : List (Nat × Nat × Nat)) : (s.raise c r v l).val = s.val := rfl

@[simp] theorem State.raise_out (s : State) (c r v : Nat) (l : List (Nat × Nat × Nat)) : (s.raise c r v l).out = s.out := rfl

@[simp] theorem State.raise_outNext (s : State) (c r v : Nat) (l : List (Nat × Nat × Nat)) : (s.raise c r v l).outNext = s.outNext := rfl

@[simp] theorem State.raise_fresh (s : State) (c r v : Nat) (l : List (Nat × Nat × Nat)) : (s.raise c r v l).fresh = s.fresh := rfl

@[simp] theorem State.raise_locked (s : State) (c r v : Nat) (l : List (Nat × Nat × Nat)) : (s.raise c r v l).locked = s.locked := rfl

@[simp] theorem State.raise_xoffNext (s : State) (c r v : Nat) (l : List (Nat × Nat × Nat)) : (s.raise c r v l).xoffNext = s.xoffNext := rfl

@[simp] theorem State.raise_bal (s : State) (c r v : Nat) (l : List (Nat × Nat × Nat)) : (s.raise c r v l).bal = s.bal := rfl

@[simp] theorem State.raise_mtr (s : State) (c r v : Nat) (l : List (Nat × Nat × Nat)) : (s.raise c r v l).mtr = s.mtr := rfl

@[simp] theorem State.raise_tim (s : State) (c r v : Nat) (l : List (Nat × Nat × Nat)) : (s.raise c r v l).tim = s.tim := rfl

@[simp] theorem State.raise_eth (s : State) (c r v : Nat) (l : List (Nat × Nat × Nat)) : (s.raise c r v l).eth = s.eth := rfl

@[simp] theorem State.raise_plc (s : State) (c r v : Nat) (l : List (Nat × Nat × Nat)) : (s.raise c r v l).plc = s.plc := rfl

@[simp] theorem State.raise_plk (s : State) (c r v : Nat) (l : List (Nat × Nat × Nat)) : (s.raise c r v l).plk = s.plk := rfl

@[simp] theorem State.raise_bus (s : State) (c r v : Nat) (l : List (Nat × Nat × Nat)) : (s.raise c r v l).bus = s.bus := rfl

@[simp] theorem State.raise_uart (s : State) (c r v : Nat) (l : List (Nat × Nat × Nat)) : (s.raise c r v l).uart = s.uart := rfl

@[simp] theorem State.raise_scripts (s : State) (c r v : Nat) (l : List (Nat × Nat × Nat)) : (s.raise c r v l).scripts = s.scripts := rfl

@[simp] theorem State.raise_sup (s : State) (c r v : Nat) (l : List (Nat × Nat × Nat)) : (s.raise c r v l).sup = s.sup := rfl

@[simp] theorem State.raise_chg (s : State) (c r v : Nat) (l : List (Nat × Nat × Nat)) : (s.raise c r v l).chg = s.chg := rfl

@[simp] theorem State.raise_sec (s : State) (c r v : Nat) (l : List (Nat × Nat × Nat)) : (s.raise c r v l).sec = s.sec := rfl

@[simp] theorem State.raise_otp (s : State) (c r v : Nat) (l : List (Nat × Nat × Nat)) : (s.raise c r v l).otp = s.otp := rfl

@[simp] theorem State.raise_ftl (s : State) (c r v : Nat) (l : List (Nat × Nat × Nat)) : (s.raise c r v l).ftl = s.ftl := rfl

@[simp] theorem State.raise_nand (s : State) (c r v : Nat) (l : List (Nat × Nat × Nat)) : (s.raise c r v l).nand = s.nand := rfl

@[simp] theorem State.raise_evr (s : State) (c r v : Nat) (l : List (Nat × Nat × Nat)) : (s.raise c r v l).evr = s.evr := rfl

@[simp] theorem State.raise_isl (s : State) (c r v : Nat) (l : List (Nat × Nat × Nat)) : (s.raise c r v l).isl = s.isl := rfl

@[simp] theorem State.raise_chgSecond (s : State) (c r v : Nat) (l : List (Nat × Nat × Nat)) : (s.raise c r v l).chgSecond = s.chgSecond := rfl

@[simp] theorem State.raise_nor (s : State) (c r v : Nat) (l : List (Nat × Nat × Nat)) : (s.raise c r v l).nor = s.nor := rfl

@[simp] theorem State.raise_upd (s : State) (c r v : Nat) (l : List (Nat × Nat × Nat)) : (s.raise c r v l).upd = s.upd := rfl

@[simp] theorem State.raise_boot (s : State) (c r v : Nat) (l : List (Nat × Nat × Nat)) : (s.raise c r v l).boot = s.boot := rfl

@[simp] theorem State.raise_prt (s : State) (c r v : Nat) (l : List (Nat × Nat × Nat)) : (s.raise c r v l).prt = s.prt := rfl

@[simp] theorem State.raise_jtag (s : State) (c r v : Nat) (l : List (Nat × Nat × Nat)) : (s.raise c r v l).jtag = s.jtag := rfl

@[simp] theorem State.raise_svc (s : State) (c r v : Nat) (l : List (Nat × Nat × Nat)) : (s.raise c r v l).svc = s.svc := rfl

@[simp] theorem State.raise_pending (s : State) (c r v : Nat) (l : List (Nat × Nat × Nat)) : (s.raise c r v l).pending = s.pending := rfl

/-! ### barrier -/

@[simp] theorem State.barrier_regs (s : State) (r : Nat) : (s.barrier r).regs = s.regs := rfl

@[simp] theorem State.barrier_shown (s : State) (r : Nat) : (s.barrier r).shown = s.shown := rfl

@[simp] theorem State.barrier_staged (s : State) (r : Nat) : (s.barrier r).staged = s.staged := rfl

@[simp] theorem State.barrier_late (s : State) (r : Nat) : (s.barrier r).late = s.late := rfl

@[simp] theorem State.barrier_lateIn (s : State) (r : Nat) : (s.barrier r).lateIn = s.lateIn := rfl

@[simp] theorem State.barrier_occ (s : State) (r : Nat) : (s.barrier r).occ = s.occ := rfl

@[simp] theorem State.barrier_mem (s : State) (r : Nat) : (s.barrier r).mem = s.mem := rfl

@[simp] theorem State.barrier_phase (s : State) (r : Nat) : (s.barrier r).phase = s.phase := rfl

@[simp] theorem State.barrier_tsq (s : State) (r : Nat) : (s.barrier r).tsq = s.tsq := rfl

@[simp] theorem State.barrier_bnk (s : State) (r : Nat) : (s.barrier r).bnk = s.bnk := rfl

@[simp] theorem State.barrier_queues (s : State) (r : Nat) : (s.barrier r).queues = s.queues := rfl

@[simp] theorem State.barrier_val (s : State) (r : Nat) : (s.barrier r).val = s.val := rfl

@[simp] theorem State.barrier_out (s : State) (r : Nat) : (s.barrier r).out = s.out := rfl

@[simp] theorem State.barrier_outNext (s : State) (r : Nat) : (s.barrier r).outNext = s.outNext := rfl

@[simp] theorem State.barrier_fresh (s : State) (r : Nat) : (s.barrier r).fresh = s.fresh := rfl

@[simp] theorem State.barrier_locked (s : State) (r : Nat) : (s.barrier r).locked = s.locked := rfl

@[simp] theorem State.barrier_xoffNext (s : State) (r : Nat) : (s.barrier r).xoffNext = s.xoffNext := rfl

@[simp] theorem State.barrier_bal (s : State) (r : Nat) : (s.barrier r).bal = s.bal := rfl

@[simp] theorem State.barrier_mtr (s : State) (r : Nat) : (s.barrier r).mtr = s.mtr := rfl

@[simp] theorem State.barrier_tim (s : State) (r : Nat) : (s.barrier r).tim = s.tim := rfl

@[simp] theorem State.barrier_eth (s : State) (r : Nat) : (s.barrier r).eth = s.eth := rfl

@[simp] theorem State.barrier_plc (s : State) (r : Nat) : (s.barrier r).plc = s.plc := rfl

@[simp] theorem State.barrier_plk (s : State) (r : Nat) : (s.barrier r).plk = s.plk := rfl

@[simp] theorem State.barrier_bus (s : State) (r : Nat) : (s.barrier r).bus = s.bus := rfl

@[simp] theorem State.barrier_uart (s : State) (r : Nat) : (s.barrier r).uart = s.uart := rfl

@[simp] theorem State.barrier_scripts (s : State) (r : Nat) : (s.barrier r).scripts = s.scripts := rfl

@[simp] theorem State.barrier_sup (s : State) (r : Nat) : (s.barrier r).sup = s.sup := rfl

@[simp] theorem State.barrier_chg (s : State) (r : Nat) : (s.barrier r).chg = s.chg := rfl

@[simp] theorem State.barrier_sec (s : State) (r : Nat) : (s.barrier r).sec = s.sec := rfl

@[simp] theorem State.barrier_otp (s : State) (r : Nat) : (s.barrier r).otp = s.otp := rfl

@[simp] theorem State.barrier_ftl (s : State) (r : Nat) : (s.barrier r).ftl = s.ftl := rfl

@[simp] theorem State.barrier_nand (s : State) (r : Nat) : (s.barrier r).nand = s.nand := rfl

@[simp] theorem State.barrier_evr (s : State) (r : Nat) : (s.barrier r).evr = s.evr := rfl

@[simp] theorem State.barrier_isl (s : State) (r : Nat) : (s.barrier r).isl = s.isl := rfl

@[simp] theorem State.barrier_chgSecond (s : State) (r : Nat) : (s.barrier r).chgSecond = s.chgSecond := rfl

@[simp] theorem State.barrier_nor (s : State) (r : Nat) : (s.barrier r).nor = s.nor := rfl

@[simp] theorem State.barrier_upd (s : State) (r : Nat) : (s.barrier r).upd = s.upd := rfl

@[simp] theorem State.barrier_boot (s : State) (r : Nat) : (s.barrier r).boot = s.boot := rfl

@[simp] theorem State.barrier_prt (s : State) (r : Nat) : (s.barrier r).prt = s.prt := rfl

@[simp] theorem State.barrier_jtag (s : State) (r : Nat) : (s.barrier r).jtag = s.jtag := rfl

@[simp] theorem State.barrier_svc (s : State) (r : Nat) : (s.barrier r).svc = s.svc := rfl

@[simp] theorem State.barrier_pending (s : State) (r : Nat) : (s.barrier r).pending = s.pending := rfl

/-! ### refuse -/

@[simp] theorem State.refuse_shown (s : State) (k : Refused) (p : Path) (a : Nat) : (s.refuse k p a).shown = s.shown := by cases k <;> simp [State.refuse]

@[simp] theorem State.refuse_staged (s : State) (k : Refused) (p : Path) (a : Nat) : (s.refuse k p a).staged = s.staged := by cases k <;> simp [State.refuse]

@[simp] theorem State.refuse_late (s : State) (k : Refused) (p : Path) (a : Nat) : (s.refuse k p a).late = s.late := by cases k <;> simp [State.refuse]

@[simp] theorem State.refuse_lateIn (s : State) (k : Refused) (p : Path) (a : Nat) : (s.refuse k p a).lateIn = s.lateIn := by cases k <;> simp [State.refuse]

@[simp] theorem State.refuse_mem (s : State) (k : Refused) (p : Path) (a : Nat) : (s.refuse k p a).mem = s.mem := by cases k <;> simp [State.refuse]

@[simp] theorem State.refuse_phase (s : State) (k : Refused) (p : Path) (a : Nat) : (s.refuse k p a).phase = s.phase := by cases k <;> simp [State.refuse]

@[simp] theorem State.refuse_tsq (s : State) (k : Refused) (p : Path) (a : Nat) : (s.refuse k p a).tsq = s.tsq := by cases k <;> simp [State.refuse]

@[simp] theorem State.refuse_bnk (s : State) (k : Refused) (p : Path) (a : Nat) : (s.refuse k p a).bnk = s.bnk := by cases k <;> simp [State.refuse]

@[simp] theorem State.refuse_queues (s : State) (k : Refused) (p : Path) (a : Nat) : (s.refuse k p a).queues = s.queues := by cases k <;> simp [State.refuse]

@[simp] theorem State.refuse_val (s : State) (k : Refused) (p : Path) (a : Nat) : (s.refuse k p a).val = s.val := by cases k <;> simp [State.refuse]

@[simp] theorem State.refuse_raised (s : State) (k : Refused) (p : Path) (a : Nat) : (s.refuse k p a).raised = s.raised := by cases k <;> simp [State.refuse]

@[simp] theorem State.refuse_out (s : State) (k : Refused) (p : Path) (a : Nat) : (s.refuse k p a).out = s.out := by cases k <;> simp [State.refuse]

@[simp] theorem State.refuse_outNext (s : State) (k : Refused) (p : Path) (a : Nat) : (s.refuse k p a).outNext = s.outNext := by cases k <;> simp [State.refuse]

@[simp] theorem State.refuse_fresh (s : State) (k : Refused) (p : Path) (a : Nat) : (s.refuse k p a).fresh = s.fresh := by cases k <;> simp [State.refuse]

@[simp] theorem State.refuse_locked (s : State) (k : Refused) (p : Path) (a : Nat) : (s.refuse k p a).locked = s.locked := by cases k <;> simp [State.refuse]

@[simp] theorem State.refuse_xoffNext (s : State) (k : Refused) (p : Path) (a : Nat) : (s.refuse k p a).xoffNext = s.xoffNext := by cases k <;> simp [State.refuse]

@[simp] theorem State.refuse_bal (s : State) (k : Refused) (p : Path) (a : Nat) : (s.refuse k p a).bal = s.bal := by cases k <;> simp [State.refuse]

@[simp] theorem State.refuse_mtr (s : State) (k : Refused) (p : Path) (a : Nat) : (s.refuse k p a).mtr = s.mtr := by cases k <;> simp [State.refuse]

@[simp] theorem State.refuse_tim (s : State) (k : Refused) (p : Path) (a : Nat) : (s.refuse k p a).tim = s.tim := by cases k <;> simp [State.refuse]

@[simp] theorem State.refuse_eth (s : State) (k : Refused) (p : Path) (a : Nat) : (s.refuse k p a).eth = s.eth := by cases k <;> simp [State.refuse]

@[simp] theorem State.refuse_plc (s : State) (k : Refused) (p : Path) (a : Nat) : (s.refuse k p a).plc = s.plc := by cases k <;> simp [State.refuse]

@[simp] theorem State.refuse_plk (s : State) (k : Refused) (p : Path) (a : Nat) : (s.refuse k p a).plk = s.plk := by cases k <;> simp [State.refuse]

@[simp] theorem State.refuse_bus (s : State) (k : Refused) (p : Path) (a : Nat) : (s.refuse k p a).bus = s.bus := by cases k <;> simp [State.refuse]

@[simp] theorem State.refuse_uart (s : State) (k : Refused) (p : Path) (a : Nat) : (s.refuse k p a).uart = s.uart := by cases k <;> simp [State.refuse]

@[simp] theorem State.refuse_scripts (s : State) (k : Refused) (p : Path) (a : Nat) : (s.refuse k p a).scripts = s.scripts := by cases k <;> simp [State.refuse]

@[simp] theorem State.refuse_sup (s : State) (k : Refused) (p : Path) (a : Nat) : (s.refuse k p a).sup = s.sup := by cases k <;> simp [State.refuse]

@[simp] theorem State.refuse_chg (s : State) (k : Refused) (p : Path) (a : Nat) : (s.refuse k p a).chg = s.chg := by cases k <;> simp [State.refuse]

@[simp] theorem State.refuse_sec (s : State) (k : Refused) (p : Path) (a : Nat) : (s.refuse k p a).sec = s.sec := by cases k <;> simp [State.refuse]

@[simp] theorem State.refuse_otp (s : State) (k : Refused) (p : Path) (a : Nat) : (s.refuse k p a).otp = s.otp := by cases k <;> simp [State.refuse]

@[simp] theorem State.refuse_ftl (s : State) (k : Refused) (p : Path) (a : Nat) : (s.refuse k p a).ftl = s.ftl := by cases k <;> simp [State.refuse]

@[simp] theorem State.refuse_nand (s : State) (k : Refused) (p : Path) (a : Nat) : (s.refuse k p a).nand = s.nand := by cases k <;> simp [State.refuse]

@[simp] theorem State.refuse_evr (s : State) (k : Refused) (p : Path) (a : Nat) : (s.refuse k p a).evr = s.evr := by cases k <;> simp [State.refuse]

@[simp] theorem State.refuse_isl (s : State) (k : Refused) (p : Path) (a : Nat) : (s.refuse k p a).isl = s.isl := by cases k <;> simp [State.refuse]

@[simp] theorem State.refuse_chgSecond (s : State) (k : Refused) (p : Path) (a : Nat) : (s.refuse k p a).chgSecond = s.chgSecond := by cases k <;> simp [State.refuse]

@[simp] theorem State.refuse_nor (s : State) (k : Refused) (p : Path) (a : Nat) : (s.refuse k p a).nor = s.nor := by cases k <;> simp [State.refuse]

@[simp] theorem State.refuse_upd (s : State) (k : Refused) (p : Path) (a : Nat) : (s.refuse k p a).upd = s.upd := by cases k <;> simp [State.refuse]

@[simp] theorem State.refuse_boot (s : State) (k : Refused) (p : Path) (a : Nat) : (s.refuse k p a).boot = s.boot := by cases k <;> simp [State.refuse]

@[simp] theorem State.refuse_prt (s : State) (k : Refused) (p : Path) (a : Nat) : (s.refuse k p a).prt = s.prt := by cases k <;> simp [State.refuse]

@[simp] theorem State.refuse_jtag (s : State) (k : Refused) (p : Path) (a : Nat) : (s.refuse k p a).jtag = s.jtag := by cases k <;> simp [State.refuse]

@[simp] theorem State.refuse_svc (s : State) (k : Refused) (p : Path) (a : Nat) : (s.refuse k p a).svc = s.svc := by cases k <;> simp [State.refuse]

@[simp] theorem State.refuse_pending (s : State) (k : Refused) (p : Path) (a : Nat) : (s.refuse k p a).pending = s.pending := by cases k <;> simp [State.refuse]

/-! ### send -/

@[simp] theorem State.send_regs (s : State) (p : Port) (b : List Byte) : (s.send p b).regs = s.regs := rfl

@[simp] theorem State.send_shown (s : State) (p : Port) (b : List Byte) : (s.send p b).shown = s.shown := rfl

@[simp] theorem State.send_staged (s : State) (p : Port) (b : List Byte) : (s.send p b).staged = s.staged := rfl

@[simp] theorem State.send_late (s : State) (p : Port) (b : List Byte) : (s.send p b).late = s.late := rfl

@[simp] theorem State.send_lateIn (s : State) (p : Port) (b : List Byte) : (s.send p b).lateIn = s.lateIn := rfl

@[simp] theorem State.send_occ (s : State) (p : Port) (b : List Byte) : (s.send p b).occ = s.occ := rfl

@[simp] theorem State.send_mem (s : State) (p : Port) (b : List Byte) : (s.send p b).mem = s.mem := rfl

@[simp] theorem State.send_phase (s : State) (p : Port) (b : List Byte) : (s.send p b).phase = s.phase := rfl

@[simp] theorem State.send_tsq (s : State) (p : Port) (b : List Byte) : (s.send p b).tsq = s.tsq := rfl

@[simp] theorem State.send_bnk (s : State) (p : Port) (b : List Byte) : (s.send p b).bnk = s.bnk := rfl

@[simp] theorem State.send_queues (s : State) (p : Port) (b : List Byte) : (s.send p b).queues = s.queues := rfl

@[simp] theorem State.send_val (s : State) (p : Port) (b : List Byte) : (s.send p b).val = s.val := rfl

@[simp] theorem State.send_raised (s : State) (p : Port) (b : List Byte) : (s.send p b).raised = s.raised := rfl

@[simp] theorem State.send_outNext (s : State) (p : Port) (b : List Byte) : (s.send p b).outNext = s.outNext := rfl

@[simp] theorem State.send_fresh (s : State) (p : Port) (b : List Byte) : (s.send p b).fresh = s.fresh := rfl

@[simp] theorem State.send_locked (s : State) (p : Port) (b : List Byte) : (s.send p b).locked = s.locked := rfl

@[simp] theorem State.send_xoffNext (s : State) (p : Port) (b : List Byte) : (s.send p b).xoffNext = s.xoffNext := rfl

@[simp] theorem State.send_bal (s : State) (p : Port) (b : List Byte) : (s.send p b).bal = s.bal := rfl

@[simp] theorem State.send_mtr (s : State) (p : Port) (b : List Byte) : (s.send p b).mtr = s.mtr := rfl

@[simp] theorem State.send_tim (s : State) (p : Port) (b : List Byte) : (s.send p b).tim = s.tim := rfl

@[simp] theorem State.send_eth (s : State) (p : Port) (b : List Byte) : (s.send p b).eth = s.eth := rfl

@[simp] theorem State.send_plc (s : State) (p : Port) (b : List Byte) : (s.send p b).plc = s.plc := rfl

@[simp] theorem State.send_plk (s : State) (p : Port) (b : List Byte) : (s.send p b).plk = s.plk := rfl

@[simp] theorem State.send_bus (s : State) (p : Port) (b : List Byte) : (s.send p b).bus = s.bus := rfl

@[simp] theorem State.send_uart (s : State) (p : Port) (b : List Byte) : (s.send p b).uart = s.uart := rfl

@[simp] theorem State.send_scripts (s : State) (p : Port) (b : List Byte) : (s.send p b).scripts = s.scripts := rfl

@[simp] theorem State.send_sup (s : State) (p : Port) (b : List Byte) : (s.send p b).sup = s.sup := rfl

@[simp] theorem State.send_chg (s : State) (p : Port) (b : List Byte) : (s.send p b).chg = s.chg := rfl

@[simp] theorem State.send_sec (s : State) (p : Port) (b : List Byte) : (s.send p b).sec = s.sec := rfl

@[simp] theorem State.send_otp (s : State) (p : Port) (b : List Byte) : (s.send p b).otp = s.otp := rfl

@[simp] theorem State.send_ftl (s : State) (p : Port) (b : List Byte) : (s.send p b).ftl = s.ftl := rfl

@[simp] theorem State.send_nand (s : State) (p : Port) (b : List Byte) : (s.send p b).nand = s.nand := rfl

@[simp] theorem State.send_evr (s : State) (p : Port) (b : List Byte) : (s.send p b).evr = s.evr := rfl

@[simp] theorem State.send_isl (s : State) (p : Port) (b : List Byte) : (s.send p b).isl = s.isl := rfl

@[simp] theorem State.send_chgSecond (s : State) (p : Port) (b : List Byte) : (s.send p b).chgSecond = s.chgSecond := rfl

@[simp] theorem State.send_nor (s : State) (p : Port) (b : List Byte) : (s.send p b).nor = s.nor := rfl

@[simp] theorem State.send_upd (s : State) (p : Port) (b : List Byte) : (s.send p b).upd = s.upd := rfl

@[simp] theorem State.send_boot (s : State) (p : Port) (b : List Byte) : (s.send p b).boot = s.boot := rfl

@[simp] theorem State.send_prt (s : State) (p : Port) (b : List Byte) : (s.send p b).prt = s.prt := rfl

@[simp] theorem State.send_jtag (s : State) (p : Port) (b : List Byte) : (s.send p b).jtag = s.jtag := rfl

@[simp] theorem State.send_svc (s : State) (p : Port) (b : List Byte) : (s.send p b).svc = s.svc := rfl

@[simp] theorem State.send_pending (s : State) (p : Port) (b : List Byte) : (s.send p b).pending = s.pending := rfl

/-! ### mstore -/

@[simp] theorem State.mstore_regs (s : State) (a : Nat) (b : List Byte) : (s.mstore a b).regs = s.regs := rfl

@[simp] theorem State.mstore_shown (s : State) (a : Nat) (b : List Byte) : (s.mstore a b).shown = s.shown := rfl

@[simp] theorem State.mstore_staged (s : State) (a : Nat) (b : List Byte) : (s.mstore a b).staged = s.staged := rfl

@[simp] theorem State.mstore_late (s : State) (a : Nat) (b : List Byte) : (s.mstore a b).late = s.late := rfl

@[simp] theorem State.mstore_lateIn (s : State) (a : Nat) (b : List Byte) : (s.mstore a b).lateIn = s.lateIn := rfl

@[simp] theorem State.mstore_occ (s : State) (a : Nat) (b : List Byte) : (s.mstore a b).occ = s.occ := rfl

@[simp] theorem State.mstore_phase (s : State) (a : Nat) (b : List Byte) : (s.mstore a b).phase = s.phase := rfl

@[simp] theorem State.mstore_tsq (s : State) (a : Nat) (b : List Byte) : (s.mstore a b).tsq = s.tsq := rfl

@[simp] theorem State.mstore_bnk (s : State) (a : Nat) (b : List Byte) : (s.mstore a b).bnk = s.bnk := rfl

@[simp] theorem State.mstore_queues (s : State) (a : Nat) (b : List Byte) : (s.mstore a b).queues = s.queues := rfl

@[simp] theorem State.mstore_val (s : State) (a : Nat) (b : List Byte) : (s.mstore a b).val = s.val := rfl

@[simp] theorem State.mstore_raised (s : State) (a : Nat) (b : List Byte) : (s.mstore a b).raised = s.raised := rfl

@[simp] theorem State.mstore_out (s : State) (a : Nat) (b : List Byte) : (s.mstore a b).out = s.out := rfl

@[simp] theorem State.mstore_outNext (s : State) (a : Nat) (b : List Byte) : (s.mstore a b).outNext = s.outNext := rfl

@[simp] theorem State.mstore_fresh (s : State) (a : Nat) (b : List Byte) : (s.mstore a b).fresh = s.fresh := rfl

@[simp] theorem State.mstore_locked (s : State) (a : Nat) (b : List Byte) : (s.mstore a b).locked = s.locked := rfl

@[simp] theorem State.mstore_xoffNext (s : State) (a : Nat) (b : List Byte) : (s.mstore a b).xoffNext = s.xoffNext := rfl

@[simp] theorem State.mstore_bal (s : State) (a : Nat) (b : List Byte) : (s.mstore a b).bal = s.bal := rfl

@[simp] theorem State.mstore_mtr (s : State) (a : Nat) (b : List Byte) : (s.mstore a b).mtr = s.mtr := rfl

@[simp] theorem State.mstore_tim (s : State) (a : Nat) (b : List Byte) : (s.mstore a b).tim = s.tim := rfl

@[simp] theorem State.mstore_eth (s : State) (a : Nat) (b : List Byte) : (s.mstore a b).eth = s.eth := rfl

@[simp] theorem State.mstore_plc (s : State) (a : Nat) (b : List Byte) : (s.mstore a b).plc = s.plc := rfl

@[simp] theorem State.mstore_plk (s : State) (a : Nat) (b : List Byte) : (s.mstore a b).plk = s.plk := rfl

@[simp] theorem State.mstore_bus (s : State) (a : Nat) (b : List Byte) : (s.mstore a b).bus = s.bus := rfl

@[simp] theorem State.mstore_uart (s : State) (a : Nat) (b : List Byte) : (s.mstore a b).uart = s.uart := rfl

@[simp] theorem State.mstore_scripts (s : State) (a : Nat) (b : List Byte) : (s.mstore a b).scripts = s.scripts := rfl

@[simp] theorem State.mstore_sup (s : State) (a : Nat) (b : List Byte) : (s.mstore a b).sup = s.sup := rfl

@[simp] theorem State.mstore_chg (s : State) (a : Nat) (b : List Byte) : (s.mstore a b).chg = s.chg := rfl

@[simp] theorem State.mstore_sec (s : State) (a : Nat) (b : List Byte) : (s.mstore a b).sec = s.sec := rfl

@[simp] theorem State.mstore_otp (s : State) (a : Nat) (b : List Byte) : (s.mstore a b).otp = s.otp := rfl

@[simp] theorem State.mstore_ftl (s : State) (a : Nat) (b : List Byte) : (s.mstore a b).ftl = s.ftl := rfl

@[simp] theorem State.mstore_nand (s : State) (a : Nat) (b : List Byte) : (s.mstore a b).nand = s.nand := rfl

@[simp] theorem State.mstore_evr (s : State) (a : Nat) (b : List Byte) : (s.mstore a b).evr = s.evr := rfl

@[simp] theorem State.mstore_isl (s : State) (a : Nat) (b : List Byte) : (s.mstore a b).isl = s.isl := rfl

@[simp] theorem State.mstore_chgSecond (s : State) (a : Nat) (b : List Byte) : (s.mstore a b).chgSecond = s.chgSecond := rfl

@[simp] theorem State.mstore_nor (s : State) (a : Nat) (b : List Byte) : (s.mstore a b).nor = s.nor := rfl

@[simp] theorem State.mstore_upd (s : State) (a : Nat) (b : List Byte) : (s.mstore a b).upd = s.upd := rfl

@[simp] theorem State.mstore_boot (s : State) (a : Nat) (b : List Byte) : (s.mstore a b).boot = s.boot := rfl

@[simp] theorem State.mstore_prt (s : State) (a : Nat) (b : List Byte) : (s.mstore a b).prt = s.prt := rfl

@[simp] theorem State.mstore_jtag (s : State) (a : Nat) (b : List Byte) : (s.mstore a b).jtag = s.jtag := rfl

@[simp] theorem State.mstore_svc (s : State) (a : Nat) (b : List Byte) : (s.mstore a b).svc = s.svc := rfl

@[simp] theorem State.mstore_pending (s : State) (a : Nat) (b : List Byte) : (s.mstore a b).pending = s.pending := rfl

/-! ### drive -/

@[simp] theorem State.drive_regs (s : State) (p : Port) (b : List Byte) : (s.drive p b).regs = s.regs := rfl

@[simp] theorem State.drive_shown (s : State) (p : Port) (b : List Byte) : (s.drive p b).shown = s.shown := rfl

@[simp] theorem State.drive_staged (s : State) (p : Port) (b : List Byte) : (s.drive p b).staged = s.staged := rfl

@[simp] theorem State.drive_late (s : State) (p : Port) (b : List Byte) : (s.drive p b).late = s.late := rfl

@[simp] theorem State.drive_lateIn (s : State) (p : Port) (b : List Byte) : (s.drive p b).lateIn = s.lateIn := rfl

@[simp] theorem State.drive_occ (s : State) (p : Port) (b : List Byte) : (s.drive p b).occ = s.occ := rfl

@[simp] theorem State.drive_mem (s : State) (p : Port) (b : List Byte) : (s.drive p b).mem = s.mem := rfl

@[simp] theorem State.drive_phase (s : State) (p : Port) (b : List Byte) : (s.drive p b).phase = s.phase := rfl

@[simp] theorem State.drive_tsq (s : State) (p : Port) (b : List Byte) : (s.drive p b).tsq = s.tsq := rfl

@[simp] theorem State.drive_bnk (s : State) (p : Port) (b : List Byte) : (s.drive p b).bnk = s.bnk := rfl

@[simp] theorem State.drive_queues (s : State) (p : Port) (b : List Byte) : (s.drive p b).queues = s.queues := rfl

@[simp] theorem State.drive_val (s : State) (p : Port) (b : List Byte) : (s.drive p b).val = s.val := rfl

@[simp] theorem State.drive_raised (s : State) (p : Port) (b : List Byte) : (s.drive p b).raised = s.raised := rfl

@[simp] theorem State.drive_out (s : State) (p : Port) (b : List Byte) : (s.drive p b).out = s.out := rfl

@[simp] theorem State.drive_fresh (s : State) (p : Port) (b : List Byte) : (s.drive p b).fresh = s.fresh := rfl

@[simp] theorem State.drive_locked (s : State) (p : Port) (b : List Byte) : (s.drive p b).locked = s.locked := rfl

@[simp] theorem State.drive_xoffNext (s : State) (p : Port) (b : List Byte) : (s.drive p b).xoffNext = s.xoffNext := rfl

@[simp] theorem State.drive_bal (s : State) (p : Port) (b : List Byte) : (s.drive p b).bal = s.bal := rfl

@[simp] theorem State.drive_mtr (s : State) (p : Port) (b : List Byte) : (s.drive p b).mtr = s.mtr := rfl

@[simp] theorem State.drive_tim (s : State) (p : Port) (b : List Byte) : (s.drive p b).tim = s.tim := rfl

@[simp] theorem State.drive_eth (s : State) (p : Port) (b : List Byte) : (s.drive p b).eth = s.eth := rfl

@[simp] theorem State.drive_plc (s : State) (p : Port) (b : List Byte) : (s.drive p b).plc = s.plc := rfl

@[simp] theorem State.drive_plk (s : State) (p : Port) (b : List Byte) : (s.drive p b).plk = s.plk := rfl

@[simp] theorem State.drive_bus (s : State) (p : Port) (b : List Byte) : (s.drive p b).bus = s.bus := rfl

@[simp] theorem State.drive_uart (s : State) (p : Port) (b : List Byte) : (s.drive p b).uart = s.uart := rfl

@[simp] theorem State.drive_scripts (s : State) (p : Port) (b : List Byte) : (s.drive p b).scripts = s.scripts := rfl

@[simp] theorem State.drive_sup (s : State) (p : Port) (b : List Byte) : (s.drive p b).sup = s.sup := rfl

@[simp] theorem State.drive_chg (s : State) (p : Port) (b : List Byte) : (s.drive p b).chg = s.chg := rfl

@[simp] theorem State.drive_sec (s : State) (p : Port) (b : List Byte) : (s.drive p b).sec = s.sec := rfl

@[simp] theorem State.drive_otp (s : State) (p : Port) (b : List Byte) : (s.drive p b).otp = s.otp := rfl

@[simp] theorem State.drive_ftl (s : State) (p : Port) (b : List Byte) : (s.drive p b).ftl = s.ftl := rfl

@[simp] theorem State.drive_nand (s : State) (p : Port) (b : List Byte) : (s.drive p b).nand = s.nand := rfl

@[simp] theorem State.drive_evr (s : State) (p : Port) (b : List Byte) : (s.drive p b).evr = s.evr := rfl

@[simp] theorem State.drive_isl (s : State) (p : Port) (b : List Byte) : (s.drive p b).isl = s.isl := rfl

@[simp] theorem State.drive_chgSecond (s : State) (p : Port) (b : List Byte) : (s.drive p b).chgSecond = s.chgSecond := rfl

@[simp] theorem State.drive_nor (s : State) (p : Port) (b : List Byte) : (s.drive p b).nor = s.nor := rfl

@[simp] theorem State.drive_upd (s : State) (p : Port) (b : List Byte) : (s.drive p b).upd = s.upd := rfl

@[simp] theorem State.drive_boot (s : State) (p : Port) (b : List Byte) : (s.drive p b).boot = s.boot := rfl

@[simp] theorem State.drive_prt (s : State) (p : Port) (b : List Byte) : (s.drive p b).prt = s.prt := rfl

@[simp] theorem State.drive_jtag (s : State) (p : Port) (b : List Byte) : (s.drive p b).jtag = s.jtag := rfl

@[simp] theorem State.drive_svc (s : State) (p : Port) (b : List Byte) : (s.drive p b).svc = s.svc := rfl

@[simp] theorem State.drive_pending (s : State) (p : Port) (b : List Byte) : (s.drive p b).pending = s.pending := rfl

/-! ### stageWrite -/

@[simp] theorem State.stageWrite_regs (s : State) (w : Staged) : (s.stageWrite w).regs = s.regs := by unfold State.stageWrite; split <;> rfl

@[simp] theorem State.stageWrite_shown (s : State) (w : Staged) : (s.stageWrite w).shown = s.shown := by unfold State.stageWrite; split <;> rfl

@[simp] theorem State.stageWrite_lateIn (s : State) (w : Staged) : (s.stageWrite w).lateIn = s.lateIn := by unfold State.stageWrite; split <;> rfl

@[simp] theorem State.stageWrite_occ (s : State) (w : Staged) : (s.stageWrite w).occ = s.occ := by unfold State.stageWrite; split <;> rfl

@[simp] theorem State.stageWrite_mem (s : State) (w : Staged) : (s.stageWrite w).mem = s.mem := by unfold State.stageWrite; split <;> rfl

@[simp] theorem State.stageWrite_phase (s : State) (w : Staged) : (s.stageWrite w).phase = s.phase := by unfold State.stageWrite; split <;> rfl

@[simp] theorem State.stageWrite_tsq (s : State) (w : Staged) : (s.stageWrite w).tsq = s.tsq := by unfold State.stageWrite; split <;> rfl

@[simp] theorem State.stageWrite_bnk (s : State) (w : Staged) : (s.stageWrite w).bnk = s.bnk := by unfold State.stageWrite; split <;> rfl

@[simp] theorem State.stageWrite_queues (s : State) (w : Staged) : (s.stageWrite w).queues = s.queues := by unfold State.stageWrite; split <;> rfl

@[simp] theorem State.stageWrite_val (s : State) (w : Staged) : (s.stageWrite w).val = s.val := by unfold State.stageWrite; split <;> rfl

@[simp] theorem State.stageWrite_raised (s : State) (w : Staged) : (s.stageWrite w).raised = s.raised := by unfold State.stageWrite; split <;> rfl

@[simp] theorem State.stageWrite_out (s : State) (w : Staged) : (s.stageWrite w).out = s.out := by unfold State.stageWrite; split <;> rfl

@[simp] theorem State.stageWrite_outNext (s : State) (w : Staged) : (s.stageWrite w).outNext = s.outNext := by unfold State.stageWrite; split <;> rfl

@[simp] theorem State.stageWrite_fresh (s : State) (w : Staged) : (s.stageWrite w).fresh = s.fresh := by unfold State.stageWrite; split <;> rfl

@[simp] theorem State.stageWrite_locked (s : State) (w : Staged) : (s.stageWrite w).locked = s.locked := by unfold State.stageWrite; split <;> rfl

@[simp] theorem State.stageWrite_xoffNext (s : State) (w : Staged) : (s.stageWrite w).xoffNext = s.xoffNext := by unfold State.stageWrite; split <;> rfl

@[simp] theorem State.stageWrite_bal (s : State) (w : Staged) : (s.stageWrite w).bal = s.bal := by unfold State.stageWrite; split <;> rfl

@[simp] theorem State.stageWrite_mtr (s : State) (w : Staged) : (s.stageWrite w).mtr = s.mtr := by unfold State.stageWrite; split <;> rfl

@[simp] theorem State.stageWrite_tim (s : State) (w : Staged) : (s.stageWrite w).tim = s.tim := by unfold State.stageWrite; split <;> rfl

@[simp] theorem State.stageWrite_eth (s : State) (w : Staged) : (s.stageWrite w).eth = s.eth := by unfold State.stageWrite; split <;> rfl

@[simp] theorem State.stageWrite_plc (s : State) (w : Staged) : (s.stageWrite w).plc = s.plc := by unfold State.stageWrite; split <;> rfl

@[simp] theorem State.stageWrite_plk (s : State) (w : Staged) : (s.stageWrite w).plk = s.plk := by unfold State.stageWrite; split <;> rfl

@[simp] theorem State.stageWrite_bus (s : State) (w : Staged) : (s.stageWrite w).bus = s.bus := by unfold State.stageWrite; split <;> rfl

@[simp] theorem State.stageWrite_uart (s : State) (w : Staged) : (s.stageWrite w).uart = s.uart := by unfold State.stageWrite; split <;> rfl

@[simp] theorem State.stageWrite_scripts (s : State) (w : Staged) : (s.stageWrite w).scripts = s.scripts := by unfold State.stageWrite; split <;> rfl

@[simp] theorem State.stageWrite_sup (s : State) (w : Staged) : (s.stageWrite w).sup = s.sup := by unfold State.stageWrite; split <;> rfl

@[simp] theorem State.stageWrite_chg (s : State) (w : Staged) : (s.stageWrite w).chg = s.chg := by unfold State.stageWrite; split <;> rfl

@[simp] theorem State.stageWrite_sec (s : State) (w : Staged) : (s.stageWrite w).sec = s.sec := by unfold State.stageWrite; split <;> rfl

@[simp] theorem State.stageWrite_otp (s : State) (w : Staged) : (s.stageWrite w).otp = s.otp := by unfold State.stageWrite; split <;> rfl

@[simp] theorem State.stageWrite_ftl (s : State) (w : Staged) : (s.stageWrite w).ftl = s.ftl := by unfold State.stageWrite; split <;> rfl

@[simp] theorem State.stageWrite_nand (s : State) (w : Staged) : (s.stageWrite w).nand = s.nand := by unfold State.stageWrite; split <;> rfl

@[simp] theorem State.stageWrite_evr (s : State) (w : Staged) : (s.stageWrite w).evr = s.evr := by unfold State.stageWrite; split <;> rfl

@[simp] theorem State.stageWrite_isl (s : State) (w : Staged) : (s.stageWrite w).isl = s.isl := by unfold State.stageWrite; split <;> rfl

@[simp] theorem State.stageWrite_chgSecond (s : State) (w : Staged) : (s.stageWrite w).chgSecond = s.chgSecond := by unfold State.stageWrite; split <;> rfl

@[simp] theorem State.stageWrite_nor (s : State) (w : Staged) : (s.stageWrite w).nor = s.nor := by unfold State.stageWrite; split <;> rfl

@[simp] theorem State.stageWrite_upd (s : State) (w : Staged) : (s.stageWrite w).upd = s.upd := by unfold State.stageWrite; split <;> rfl

@[simp] theorem State.stageWrite_boot (s : State) (w : Staged) : (s.stageWrite w).boot = s.boot := by unfold State.stageWrite; split <;> rfl

@[simp] theorem State.stageWrite_prt (s : State) (w : Staged) : (s.stageWrite w).prt = s.prt := by unfold State.stageWrite; split <;> rfl

@[simp] theorem State.stageWrite_jtag (s : State) (w : Staged) : (s.stageWrite w).jtag = s.jtag := by unfold State.stageWrite; split <;> rfl

@[simp] theorem State.stageWrite_svc (s : State) (w : Staged) : (s.stageWrite w).svc = s.svc := by unfold State.stageWrite; split <;> rfl

@[simp] theorem State.stageWrite_pending (s : State) (w : Staged) : (s.stageWrite w).pending = s.pending := by unfold State.stageWrite; split <;> rfl

/-! ### taskWrite -/

@[simp] theorem State.taskWrite_regs (s : State) (a : Nat) (m v : Word) : (s.taskWrite a m v).regs = s.regs := State.stageWrite_regs s _

@[simp] theorem State.taskWrite_shown (s : State) (a : Nat) (m v : Word) : (s.taskWrite a m v).shown = s.shown := State.stageWrite_shown s _

@[simp] theorem State.taskWrite_lateIn (s : State) (a : Nat) (m v : Word) : (s.taskWrite a m v).lateIn = s.lateIn := State.stageWrite_lateIn s _

@[simp] theorem State.taskWrite_occ (s : State) (a : Nat) (m v : Word) : (s.taskWrite a m v).occ = s.occ := State.stageWrite_occ s _

@[simp] theorem State.taskWrite_mem (s : State) (a : Nat) (m v : Word) : (s.taskWrite a m v).mem = s.mem := State.stageWrite_mem s _

@[simp] theorem State.taskWrite_phase (s : State) (a : Nat) (m v : Word) : (s.taskWrite a m v).phase = s.phase := State.stageWrite_phase s _

@[simp] theorem State.taskWrite_tsq (s : State) (a : Nat) (m v : Word) : (s.taskWrite a m v).tsq = s.tsq := State.stageWrite_tsq s _

@[simp] theorem State.taskWrite_bnk (s : State) (a : Nat) (m v : Word) : (s.taskWrite a m v).bnk = s.bnk := State.stageWrite_bnk s _

@[simp] theorem State.taskWrite_queues (s : State) (a : Nat) (m v : Word) : (s.taskWrite a m v).queues = s.queues := State.stageWrite_queues s _

@[simp] theorem State.taskWrite_val (s : State) (a : Nat) (m v : Word) : (s.taskWrite a m v).val = s.val := State.stageWrite_val s _

@[simp] theorem State.taskWrite_raised (s : State) (a : Nat) (m v : Word) : (s.taskWrite a m v).raised = s.raised := State.stageWrite_raised s _

@[simp] theorem State.taskWrite_out (s : State) (a : Nat) (m v : Word) : (s.taskWrite a m v).out = s.out := State.stageWrite_out s _

@[simp] theorem State.taskWrite_outNext (s : State) (a : Nat) (m v : Word) : (s.taskWrite a m v).outNext = s.outNext := State.stageWrite_outNext s _

@[simp] theorem State.taskWrite_fresh (s : State) (a : Nat) (m v : Word) : (s.taskWrite a m v).fresh = s.fresh := State.stageWrite_fresh s _

@[simp] theorem State.taskWrite_locked (s : State) (a : Nat) (m v : Word) : (s.taskWrite a m v).locked = s.locked := State.stageWrite_locked s _

@[simp] theorem State.taskWrite_xoffNext (s : State) (a : Nat) (m v : Word) : (s.taskWrite a m v).xoffNext = s.xoffNext := State.stageWrite_xoffNext s _

@[simp] theorem State.taskWrite_bal (s : State) (a : Nat) (m v : Word) : (s.taskWrite a m v).bal = s.bal := State.stageWrite_bal s _

@[simp] theorem State.taskWrite_mtr (s : State) (a : Nat) (m v : Word) : (s.taskWrite a m v).mtr = s.mtr := State.stageWrite_mtr s _

@[simp] theorem State.taskWrite_tim (s : State) (a : Nat) (m v : Word) : (s.taskWrite a m v).tim = s.tim := State.stageWrite_tim s _

@[simp] theorem State.taskWrite_eth (s : State) (a : Nat) (m v : Word) : (s.taskWrite a m v).eth = s.eth := State.stageWrite_eth s _

@[simp] theorem State.taskWrite_plc (s : State) (a : Nat) (m v : Word) : (s.taskWrite a m v).plc = s.plc := State.stageWrite_plc s _

@[simp] theorem State.taskWrite_plk (s : State) (a : Nat) (m v : Word) : (s.taskWrite a m v).plk = s.plk := State.stageWrite_plk s _

@[simp] theorem State.taskWrite_bus (s : State) (a : Nat) (m v : Word) : (s.taskWrite a m v).bus = s.bus := State.stageWrite_bus s _

@[simp] theorem State.taskWrite_uart (s : State) (a : Nat) (m v : Word) : (s.taskWrite a m v).uart = s.uart := State.stageWrite_uart s _

@[simp] theorem State.taskWrite_scripts (s : State) (a : Nat) (m v : Word) : (s.taskWrite a m v).scripts = s.scripts := State.stageWrite_scripts s _

@[simp] theorem State.taskWrite_sup (s : State) (a : Nat) (m v : Word) : (s.taskWrite a m v).sup = s.sup := State.stageWrite_sup s _

@[simp] theorem State.taskWrite_chg (s : State) (a : Nat) (m v : Word) : (s.taskWrite a m v).chg = s.chg := State.stageWrite_chg s _

@[simp] theorem State.taskWrite_sec (s : State) (a : Nat) (m v : Word) : (s.taskWrite a m v).sec = s.sec := State.stageWrite_sec s _

@[simp] theorem State.taskWrite_otp (s : State) (a : Nat) (m v : Word) : (s.taskWrite a m v).otp = s.otp := State.stageWrite_otp s _

@[simp] theorem State.taskWrite_ftl (s : State) (a : Nat) (m v : Word) : (s.taskWrite a m v).ftl = s.ftl := State.stageWrite_ftl s _

@[simp] theorem State.taskWrite_nand (s : State) (a : Nat) (m v : Word) : (s.taskWrite a m v).nand = s.nand := State.stageWrite_nand s _

@[simp] theorem State.taskWrite_evr (s : State) (a : Nat) (m v : Word) : (s.taskWrite a m v).evr = s.evr := State.stageWrite_evr s _

@[simp] theorem State.taskWrite_isl (s : State) (a : Nat) (m v : Word) : (s.taskWrite a m v).isl = s.isl := State.stageWrite_isl s _

@[simp] theorem State.taskWrite_chgSecond (s : State) (a : Nat) (m v : Word) : (s.taskWrite a m v).chgSecond = s.chgSecond := State.stageWrite_chgSecond s _

@[simp] theorem State.taskWrite_nor (s : State) (a : Nat) (m v : Word) : (s.taskWrite a m v).nor = s.nor := State.stageWrite_nor s _

@[simp] theorem State.taskWrite_upd (s : State) (a : Nat) (m v : Word) : (s.taskWrite a m v).upd = s.upd := State.stageWrite_upd s _

@[simp] theorem State.taskWrite_boot (s : State) (a : Nat) (m v : Word) : (s.taskWrite a m v).boot = s.boot := State.stageWrite_boot s _

@[simp] theorem State.taskWrite_prt (s : State) (a : Nat) (m v : Word) : (s.taskWrite a m v).prt = s.prt := State.stageWrite_prt s _

@[simp] theorem State.taskWrite_jtag (s : State) (a : Nat) (m v : Word) : (s.taskWrite a m v).jtag = s.jtag := State.stageWrite_jtag s _

@[simp] theorem State.taskWrite_svc (s : State) (a : Nat) (m v : Word) : (s.taskWrite a m v).svc = s.svc := State.stageWrite_svc s _

@[simp] theorem State.taskWrite_pending (s : State) (a : Nat) (m v : Word) : (s.taskWrite a m v).pending = s.pending := State.stageWrite_pending s _

/-! ### setDmg -/

@[simp] theorem State.setDmg_regs (s : State) (l n : Nat) : (s.setDmg l n).regs = s.regs := rfl

@[simp] theorem State.setDmg_shown (s : State) (l n : Nat) : (s.setDmg l n).shown = s.shown := rfl

@[simp] theorem State.setDmg_staged (s : State) (l n : Nat) : (s.setDmg l n).staged = s.staged := rfl

@[simp] theorem State.setDmg_late (s : State) (l n : Nat) : (s.setDmg l n).late = s.late := rfl

@[simp] theorem State.setDmg_lateIn (s : State) (l n : Nat) : (s.setDmg l n).lateIn = s.lateIn := rfl

@[simp] theorem State.setDmg_occ (s : State) (l n : Nat) : (s.setDmg l n).occ = s.occ := rfl

@[simp] theorem State.setDmg_mem (s : State) (l n : Nat) : (s.setDmg l n).mem = s.mem := rfl

@[simp] theorem State.setDmg_phase (s : State) (l n : Nat) : (s.setDmg l n).phase = s.phase := rfl

@[simp] theorem State.setDmg_tsq (s : State) (l n : Nat) : (s.setDmg l n).tsq = s.tsq := rfl

@[simp] theorem State.setDmg_queues (s : State) (l n : Nat) : (s.setDmg l n).queues = s.queues := rfl

@[simp] theorem State.setDmg_val (s : State) (l n : Nat) : (s.setDmg l n).val = s.val := rfl

@[simp] theorem State.setDmg_raised (s : State) (l n : Nat) : (s.setDmg l n).raised = s.raised := rfl

@[simp] theorem State.setDmg_out (s : State) (l n : Nat) : (s.setDmg l n).out = s.out := rfl

@[simp] theorem State.setDmg_outNext (s : State) (l n : Nat) : (s.setDmg l n).outNext = s.outNext := rfl

@[simp] theorem State.setDmg_fresh (s : State) (l n : Nat) : (s.setDmg l n).fresh = s.fresh := rfl

@[simp] theorem State.setDmg_locked (s : State) (l n : Nat) : (s.setDmg l n).locked = s.locked := rfl

@[simp] theorem State.setDmg_xoffNext (s : State) (l n : Nat) : (s.setDmg l n).xoffNext = s.xoffNext := rfl

@[simp] theorem State.setDmg_bal (s : State) (l n : Nat) : (s.setDmg l n).bal = s.bal := rfl

@[simp] theorem State.setDmg_mtr (s : State) (l n : Nat) : (s.setDmg l n).mtr = s.mtr := rfl

@[simp] theorem State.setDmg_tim (s : State) (l n : Nat) : (s.setDmg l n).tim = s.tim := rfl

@[simp] theorem State.setDmg_eth (s : State) (l n : Nat) : (s.setDmg l n).eth = s.eth := rfl

@[simp] theorem State.setDmg_plc (s : State) (l n : Nat) : (s.setDmg l n).plc = s.plc := rfl

@[simp] theorem State.setDmg_plk (s : State) (l n : Nat) : (s.setDmg l n).plk = s.plk := rfl

@[simp] theorem State.setDmg_bus (s : State) (l n : Nat) : (s.setDmg l n).bus = s.bus := rfl

@[simp] theorem State.setDmg_uart (s : State) (l n : Nat) : (s.setDmg l n).uart = s.uart := rfl

@[simp] theorem State.setDmg_scripts (s : State) (l n : Nat) : (s.setDmg l n).scripts = s.scripts := rfl

@[simp] theorem State.setDmg_sup (s : State) (l n : Nat) : (s.setDmg l n).sup = s.sup := rfl

@[simp] theorem State.setDmg_chg (s : State) (l n : Nat) : (s.setDmg l n).chg = s.chg := rfl

@[simp] theorem State.setDmg_sec (s : State) (l n : Nat) : (s.setDmg l n).sec = s.sec := rfl

@[simp] theorem State.setDmg_otp (s : State) (l n : Nat) : (s.setDmg l n).otp = s.otp := rfl

@[simp] theorem State.setDmg_ftl (s : State) (l n : Nat) : (s.setDmg l n).ftl = s.ftl := rfl

@[simp] theorem State.setDmg_nand (s : State) (l n : Nat) : (s.setDmg l n).nand = s.nand := rfl

@[simp] theorem State.setDmg_evr (s : State) (l n : Nat) : (s.setDmg l n).evr = s.evr := rfl

@[simp] theorem State.setDmg_isl (s : State) (l n : Nat) : (s.setDmg l n).isl = s.isl := rfl

@[simp] theorem State.setDmg_chgSecond (s : State) (l n : Nat) : (s.setDmg l n).chgSecond = s.chgSecond := rfl

@[simp] theorem State.setDmg_nor (s : State) (l n : Nat) : (s.setDmg l n).nor = s.nor := rfl

@[simp] theorem State.setDmg_upd (s : State) (l n : Nat) : (s.setDmg l n).upd = s.upd := rfl

@[simp] theorem State.setDmg_boot (s : State) (l n : Nat) : (s.setDmg l n).boot = s.boot := rfl

@[simp] theorem State.setDmg_prt (s : State) (l n : Nat) : (s.setDmg l n).prt = s.prt := rfl

@[simp] theorem State.setDmg_jtag (s : State) (l n : Nat) : (s.setDmg l n).jtag = s.jtag := rfl

@[simp] theorem State.setDmg_svc (s : State) (l n : Nat) : (s.setDmg l n).svc = s.svc := rfl

@[simp] theorem State.setDmg_pending (s : State) (l n : Nat) : (s.setDmg l n).pending = s.pending := rfl

/-! ### draw -/

@[simp] theorem State.draw_regs (s : State) : (s.draw.2).regs = s.regs := rfl

@[simp] theorem State.draw_shown (s : State) : (s.draw.2).shown = s.shown := rfl

@[simp] theorem State.draw_staged (s : State) : (s.draw.2).staged = s.staged := rfl

@[simp] theorem State.draw_late (s : State) : (s.draw.2).late = s.late := rfl

@[simp] theorem State.draw_lateIn (s : State) : (s.draw.2).lateIn = s.lateIn := rfl

@[simp] theorem State.draw_occ (s : State) : (s.draw.2).occ = s.occ := rfl

@[simp] theorem State.draw_mem (s : State) : (s.draw.2).mem = s.mem := rfl

@[simp] theorem State.draw_phase (s : State) : (s.draw.2).phase = s.phase := rfl

@[simp] theorem State.draw_tsq (s : State) : (s.draw.2).tsq = s.tsq := rfl

@[simp] theorem State.draw_bnk (s : State) : (s.draw.2).bnk = s.bnk := rfl

@[simp] theorem State.draw_queues (s : State) : (s.draw.2).queues = s.queues := rfl

@[simp] theorem State.draw_val (s : State) : (s.draw.2).val = s.val := rfl

@[simp] theorem State.draw_raised (s : State) : (s.draw.2).raised = s.raised := rfl

@[simp] theorem State.draw_out (s : State) : (s.draw.2).out = s.out := rfl

@[simp] theorem State.draw_outNext (s : State) : (s.draw.2).outNext = s.outNext := rfl

@[simp] theorem State.draw_locked (s : State) : (s.draw.2).locked = s.locked := rfl

@[simp] theorem State.draw_xoffNext (s : State) : (s.draw.2).xoffNext = s.xoffNext := rfl

@[simp] theorem State.draw_bal (s : State) : (s.draw.2).bal = s.bal := rfl

@[simp] theorem State.draw_mtr (s : State) : (s.draw.2).mtr = s.mtr := rfl

@[simp] theorem State.draw_tim (s : State) : (s.draw.2).tim = s.tim := rfl

@[simp] theorem State.draw_eth (s : State) : (s.draw.2).eth = s.eth := rfl

@[simp] theorem State.draw_plc (s : State) : (s.draw.2).plc = s.plc := rfl

@[simp] theorem State.draw_plk (s : State) : (s.draw.2).plk = s.plk := rfl

@[simp] theorem State.draw_bus (s : State) : (s.draw.2).bus = s.bus := rfl

@[simp] theorem State.draw_uart (s : State) : (s.draw.2).uart = s.uart := rfl

@[simp] theorem State.draw_scripts (s : State) : (s.draw.2).scripts = s.scripts := rfl

@[simp] theorem State.draw_sup (s : State) : (s.draw.2).sup = s.sup := rfl

@[simp] theorem State.draw_chg (s : State) : (s.draw.2).chg = s.chg := rfl

@[simp] theorem State.draw_sec (s : State) : (s.draw.2).sec = s.sec := rfl

@[simp] theorem State.draw_otp (s : State) : (s.draw.2).otp = s.otp := rfl

@[simp] theorem State.draw_ftl (s : State) : (s.draw.2).ftl = s.ftl := rfl

@[simp] theorem State.draw_nand (s : State) : (s.draw.2).nand = s.nand := rfl

@[simp] theorem State.draw_evr (s : State) : (s.draw.2).evr = s.evr := rfl

@[simp] theorem State.draw_isl (s : State) : (s.draw.2).isl = s.isl := rfl

@[simp] theorem State.draw_chgSecond (s : State) : (s.draw.2).chgSecond = s.chgSecond := rfl

@[simp] theorem State.draw_nor (s : State) : (s.draw.2).nor = s.nor := rfl

@[simp] theorem State.draw_upd (s : State) : (s.draw.2).upd = s.upd := rfl

@[simp] theorem State.draw_boot (s : State) : (s.draw.2).boot = s.boot := rfl

@[simp] theorem State.draw_prt (s : State) : (s.draw.2).prt = s.prt := rfl

@[simp] theorem State.draw_jtag (s : State) : (s.draw.2).jtag = s.jtag := rfl

@[simp] theorem State.draw_svc (s : State) : (s.draw.2).svc = s.svc := rfl

@[simp] theorem State.draw_pending (s : State) : (s.draw.2).pending = s.pending := rfl

end Sys2Proof.Machine
end

