-- ==== Sys2Proof/Laws/Registers.lean ====
section
/-!
SUPPORT. The laws of the register file and of SRAM: what a field reads after a write to it, to another field of its register or to
another register; that a hard-wired or absent register keeps its word; and that every named operation keeps the canonical forms.
-/
namespace Sys2Proof.Machine

/-! ### Fields of a word -/

theorem bitsOf_testBit (n lo w i : Nat) : (bitsOf n lo w).testBit i = (decide (i < w) && n.testBit (lo + i)) := by
  simp [bitsOf, Nat.testBit_mod_two_pow, Nat.testBit_div_two_pow, Nat.add_comm]

theorem bitsOf_lt (n lo w : Nat) : bitsOf n lo w < 2 ^ w := Nat.mod_lt _ (Nat.two_pow_pos w)

theorem Fld.mask_bit (f : Fld) (i : Nat) (hi : i < 32) :
    f.mask.getLsbD i = (decide (f.lo ≤ i) && decide (i - f.lo < f.w)) := by
  rw [Fld.mask, BitVec.getLsbD_ofNat, Nat.testBit_mul_two_pow, Nat.testBit_two_pow_sub_one]
  simp [hi]

theorem Fld.write_bit (f : Fld) (x : Word) (v i : Nat) (hi : i < 32) :
    (f.write x v).getLsbD i =
      if f.lo ≤ i ∧ i - f.lo < f.w then v.testBit (i - f.lo) else x.getLsbD i := by
  unfold Fld.write
  rw [BitVec.getLsbD_or, BitVec.getLsbD_and, BitVec.getLsbD_not, Fld.mask_bit f i hi, BitVec.getLsbD_ofNat,
    Nat.testBit_mul_two_pow, Nat.testBit_mod_two_pow]
  by_cases h1 : f.lo ≤ i <;> by_cases h2 : i - f.lo < f.w <;> simp [h1, h2, hi]

/-- The value of a field lies in its width. -/
theorem Fld.read_lt (f : Fld) (x : Word) : f.read x < 2 ^ f.w := bitsOf_lt _ _ _

/-- A field reads what was written to it. -/
theorem Fld.read_write_same (f : Fld) (x : Word) (v : Nat) (h : f.lo + f.w ≤ 32) : f.read (f.write x v) = v % 2 ^ f.w := by
  apply Nat.eq_of_testBit_eq
  intro i
  unfold Fld.read
  rw [bitsOf_testBit, Nat.testBit_mod_two_pow]
  by_cases hi : i < f.w
  · have := Fld.write_bit f x v (f.lo + i) (by omega)
    rw [BitVec.getLsbD] at this
    rw [this, if_pos ⟨by omega, by omega⟩]
    simp [hi]
  · simp [hi]

/-- A field that shares no bit with the one written keeps its value. -/
theorem Fld.read_write_ne (f g : Fld) (x : Word) (v : Nat) (h : f.lo + f.w ≤ g.lo ∨ g.lo + g.w ≤ f.lo) :
    g.read (f.write x v) = g.read x := by
  apply Nat.eq_of_testBit_eq
  intro i
  unfold Fld.read
  rw [bitsOf_testBit, bitsOf_testBit]
  by_cases hi : i < g.w
  · congr 1
    by_cases h32 : g.lo + i < 32
    · have := Fld.write_bit f x v (g.lo + i) h32
      rw [BitVec.getLsbD, if_neg (by omega)] at this
      exact this
    · rw [Nat.testBit_lt_two_pow, Nat.testBit_lt_two_pow]
      · exact lt_of_lt_of_le x.isLt (Nat.pow_le_pow_right (by decide) (by omega))
      · exact lt_of_lt_of_le (f.write x v).isLt (Nat.pow_le_pow_right (by decide) (by omega))
  · simp [hi]

/-! ### The register file -/

/-- Whether a register can be written at all: it exists and is not hard-wired (R22, R1). -/
def writable (a : Nat) : Bool := !(hardWired a) && (rowAt a).isSome

theorem State.setWord_of_writable (s : State) {a : Nat} (w : Word) (h : writable a = true) :
    s.setWord a w = { s with regs := SMap.put resetWord s.regs a w } := by
  simp only [writable, Bool.and_eq_true, Bool.not_eq_true', Option.isSome_iff_ne_none, ne_eq] at h
  unfold State.setWord
  rw [if_neg]
  simp [h.1, Option.isNone_iff_eq_none, h.2]

theorem State.setWord_of_not_writable (s : State) {a : Nat} (w : Word) (h : writable a = false) : s.setWord a w = s := by
  unfold State.setWord
  rw [if_pos]
  cases hw : hardWired a <;> cases hr : rowAt a <;> simp_all [writable]

/-- The word written is the word read. -/
theorem State.word_setWord_same (s : State) {a : Nat} (w : Word) (h : writable a = true) (hs : Regs.wf s.regs = true) :
    (s.setWord a w).word a = w := by
  rw [State.setWord_of_writable s w h]
  exact SMap.get_put_same hs

/-- Another register keeps its word. -/
theorem State.word_setWord_ne (s : State) {a b : Nat} (w : Word) (h : b ≠ a) (hs : Regs.wf s.regs = true) :
    (s.setWord a w).word b = s.word b := by
  cases hw : writable a
  · rw [State.setWord_of_not_writable s w hw]
  · rw [State.setWord_of_writable s w hw]
    exact SMap.get_put_ne h hs

/-- A hard-wired register, or one that does not exist, keeps its word whatever is written (R1, R22). -/
theorem State.word_setWord_fixed (s : State) {a : Nat} (w : Word) (h : writable a = false) (b : Nat) :
    (s.setWord a w).word b = s.word b := by rw [State.setWord_of_not_writable s w h]

/-- A register write keeps the canonical form of the register file. -/
theorem State.setWord_wf (s : State) (a : Nat) (w : Word) (hs : Regs.wf s.regs = true) : Regs.wf (s.setWord a w).regs = true := by
  cases hw : writable a
  · rwa [State.setWord_of_not_writable s w hw]
  · rw [State.setWord_of_writable s w hw]
    exact SMap.wf_put hs

theorem State.set_wf (s : State) (f : Fld) (v : Nat) (hs : Regs.wf s.regs = true) : Regs.wf (s.set f v).regs = true :=
  s.setWord_wf _ _ hs

theorem State.setAll_wf (l : List (Fld × Nat)) (s : State) (hs : Regs.wf s.regs = true) : Regs.wf (s.setAll l).regs = true := by
  induction l generalizing s with
  | nil => exact hs
  | cons p l ih => exact ih _ (s.set_wf _ _ hs)

/-- A field reads what was written to it. -/
theorem State.get_set_same (s : State) (f : Fld) (v : Nat) (hw : writable f.addr = true) (hf : f.lo + f.w ≤ 32)
    (hs : Regs.wf s.regs = true) : (s.set f v).get f = v % 2 ^ f.w := by
  unfold State.get State.set
  rw [State.word_setWord_same s _ hw hs, Fld.read_write_same f _ _ hf]

/-- A field of another register keeps its value. -/
theorem State.get_set_addr (s : State) (f g : Fld) (v : Nat) (h : g.addr ≠ f.addr) (hs : Regs.wf s.regs = true) :
    (s.set f v).get g = s.get g := by
  unfold State.get State.set
  rw [State.word_setWord_ne s _ h hs]

/-- A field that shares no bit with the one written keeps its value. -/
theorem State.get_set_bits (s : State) (f g : Fld) (v : Nat) (h : f.lo + f.w ≤ g.lo ∨ g.lo + g.w ≤ f.lo)
    (hs : Regs.wf s.regs = true) : (s.set f v).get g = s.get g := by
  by_cases ha : g.addr = f.addr
  · cases hw : writable f.addr
    · unfold State.set
      rw [State.setWord_of_not_writable s _ hw]
    · unfold State.get State.set
      rw [ha, State.word_setWord_same s _ hw hs, Fld.read_write_ne f g _ _ h]
  · exact s.get_set_addr f g v ha hs

/-- The value of a field lies in its width. -/
theorem State.get_lt (s : State) (f : Fld) : s.get f < 2 ^ f.w := f.read_lt _

/-! ### SRAM -/

theorem memStore_wf : ∀ {m : List Host.Cell} {a : Nat} (bs : List Byte), Memory.wf m = true → Memory.wf (memStore m a bs) = true
  | _, _, [], h => h
  | _, _, _ :: t, h => memStore_wf t (SMap.wf_put h)

/-- A store keeps the canonical form of memory. -/
theorem State.mstore_wf (s : State) (a : Nat) (bs : List Byte) (h : Memory.wf s.mem = true) : Memory.wf (s.mstore a bs).mem = true :=
  memStore_wf bs h

theorem memStore_get_out : ∀ {m : List Host.Cell} {a b : Nat} (bs : List Byte), Memory.wf m = true → (b < a ∨ a + bs.length ≤ b) →
    SMap.get memDefault (memStore m a bs) b = SMap.get memDefault m b
  | _, _, _, [], _, _ => rfl
  | m, a, b, x :: t, h, hb => by
    simp only [List.length_cons] at hb
    rw [memStore, memStore_get_out t (SMap.wf_put h) (by omega), SMap.get_put_ne (by omega) h]

/-- A byte outside the stored ones keeps its value. -/
theorem State.byte_mstore_out (s : State) (a b : Nat) (bs : List Byte) (h : Memory.wf s.mem = true)
    (hb : b < a ∨ a + bs.length ≤ b) : (s.mstore a bs).byte b = s.byte b := memStore_get_out bs h hb

theorem memStore_get_in : ∀ {m : List Host.Cell} {a : Nat} (bs : List Byte) (i : Nat), Memory.wf m = true → (hi : i < bs.length) →
    SMap.get memDefault (memStore m a bs) (a + i) = bs[i]
  | _, _, [], i, _, hi => absurd hi (Nat.not_lt_zero i)
  | m, a, x :: t, 0, h, _ => by
    have := memStore_get_out (a := a + 1) (b := a) t (SMap.wf_put (k := a) (v := x) h) (Or.inl (Nat.lt_succ_self a))
    exact this.trans (SMap.get_put_same h)
  | m, a, x :: t, i + 1, h, hi => by
    have := memStore_get_in (a := a + 1) t i (SMap.wf_put (k := a) (v := x) h) (by simpa using hi)
    rw [memStore, show a + (i + 1) = a + 1 + i by omega, this]
    rfl

/-- A stored byte reads as stored. -/
theorem State.byte_mstore_in (s : State) (a : Nat) (bs : List Byte) (i : Nat) (h : Memory.wf s.mem = true) (hi : i < bs.length) :
    (s.mstore a bs).byte (a + i) = bs[i] := memStore_get_in bs i h hi

/-- Zero-filling a bank keeps the canonical form of memory. -/
theorem zeroFill_wf {m : List Host.Cell} (p : Nat → Bool) (h : Memory.wf m = true) : Memory.wf (SMap.keep p m) = true :=
  SMap.wf_keep h

end Sys2Proof.Machine
end

