-- ==== Sys2Proof/Safety.lean ====
section
/-!
DEFINITION. What a safe run is: no command stops the device, and its register file and its SRAM keep their one canonical form, so
that a register or a byte reads as what was last written to it.  What a write that passes is, and what a timely run is (R50).
-/
namespace Sys2Proof.Machine

/-- The register file, live and committed, SRAM, the damage of its lines and the drains of its banks are in their canonical forms. -/
def State.canonical (s : State) : Prop :=
  Regs.wf s.regs = true ∧ Regs.wf s.shown = true ∧ Memory.wf s.mem = true ∧ SMap.wf (fun _ => 0) s.bnk.damage = true ∧
    SMap.wf (fun _ => 0) s.bnk.drain = true

/-! ### Writes -/

/-- The capture or compute phase of a tick, in which an input or a write that arrives acts (R38). -/
def State.listening (s : State) : Prop := s.phase = .capture ∨ s.phase = .compute

/-- A write that R13, R38 and R533 let pass whole: its path is open, the register exists, no owner, hold or busy page turns it away, and
every written field is open to the path, takes the value and is not locked or barred; `bits` are the bits that pass. -/
def writePassed (s : State) (p : Path) (agent a : Nat) (mask value bits : Word) : Prop :=
  s.listening ∧ s.pathOpen p = true ∧ bits ≠ 0 ∧ ¬ (p = .fw ∧ a = R.DIR_CMD ∧ s.on R.PRT_CTL_DIRHOLD = true) ∧
    ¬ (s.ownPage agent a = true ∧ (s.page (a / 256 % 256)).busy = true ∧ s.zeroOp a mask value = false) ∧
    ∃ r, rowAt a = some r ∧ s.pageRefused p agent a r = false ∧
      s.bars p a mask value (s.judgeRow p a mask value r) = ⟨bits, false, false⟩

/-- A write of one field that passes whole. -/
def fieldPassed (s : State) (p : Path) (f : Fld) (v : Nat) : Prop :=
  writePassed s p (agentOf p 0) f.addr f.mask (f.write 0 v) f.mask

/-- The registers whose writes act on receipt (R279). -/
def actsAtOnce (a : Nat) : Prop := a = R.TIM_STEPS ∨ a = R.PRT_STEPS ∨ a = R.TIM_STEPNS ∨ a = R.PRT_STEPNS

/-- The state in which a write waits for the commit of its tick (R14). -/
def State.waiting (s : State) (p : Path) (agent a : Nat) (bits value : Word) : State :=
  { s with staged := s.staged ++ [⟨p, agent, a, bits, value⟩] }

/-- The state in which the write of one field waits for the commit of its tick. -/
def State.fieldWaiting (s : State) (p : Path) (f : Fld) (v : Nat) : State :=
  s.waiting p (agentOf p 0) f.addr f.mask (f.write 0 v)

/-- What a write does when it is committed (R14, R532). -/
def State.committed (s : State) (p : Path) (agent a : Nat) (bits value : Word) : State :=
  (State.commitWrite (s, []) ⟨p, agent, a, bits, value⟩).1

/-- A write whose bits all still pass when it is committed: no write committed before it in the tick makes them illegal or barred (R12). -/
def State.stands (s : State) (p : Path) (agent a : Nat) (bits value : Word) : Prop :=
  ∀ r, rowAt a = some r → s.stillLegal ⟨p, agent, a, bits, value⟩ r bits = { mask := bits }

/-- A write of one field that still passes when it is committed. -/
def State.fieldStands (s : State) (p : Path) (f : Fld) (v : Nat) : Prop :=
  s.stands p (agentOf p 0) f.addr f.mask (f.write 0 v)

/-- What the write of one field does when it is committed. -/
def State.fieldCommitted (s : State) (p : Path) (f : Fld) (v : Nat) : State :=
  s.committed p (agentOf p 0) f.addr f.mask (f.write 0 v)

/-! ### Runs -/

/-- An outcome that is a next state. -/
def Outcome.isNext : Out → Bool
  | .next _ => true
  | .fault _ => false
  | .refused _ => false

/-- A run of `k` steps in which no step stops and every state is canonical. -/
def safeRun : Nat → State → Prop
  | 0, s => s.canonical
  | k + 1, s => s.canonical ∧
    match step s with
    | .next t => safeRun k t
    | .fault _ => False
    | .refused _ => False

/-! ### Timely runs (R50) -/

/-- The demands of R50 that are counted in whole ticks. -/
inductive Demand where
  | sample | residual | contactor | turnaround | fence | round | batch | interval
  deriving DecidableEq, Repr

/-- The least and the greatest number of ticks of a demand (R50). -/
def Demand.ticks : Demand → Nat × Nat
  | .sample | .residual => (1, 1)
  | .contactor => (0, 800)
  | .turnaround => (0, 320)
  | .fence => (0, 80)
  | .round => (8000, 480000)
  | .batch => (8000, 7200000)
  | .interval => (480000, 28800000)

/-- A number of ticks is within a demand. -/
def Demand.allows (d : Demand) (k : Nat) : Prop := d.ticks.1 ≤ k ∧ k ≤ d.ticks.2

/-- The configured rounds, batch and balance interval are within R50. -/
def State.ranges50 (s : State) : Prop :=
  (∀ p : Fin 4, Demand.round.allows (s.get (R.PLK_SCH_RND p) * ticksPerSec)) ∧
    Demand.batch.allows (s.get R.SUP_TIM0_BATCH * ticksPerSec) ∧ Demand.interval.allows (s.get R.BAL_CTL_INTLEN * 60 * ticksPerSec)

/-- Along a run, what has begun ends within its demand. -/
def endsWithin (run : Nat → State) (d : Demand) (begun ended : State → Prop) : Prop :=
  ∀ i, begun (run i) → ∃ j, i ≤ j ∧ ended (run j) ∧ (run j).now ≤ (run i).now + d.ticks.2

/-- A run of the device that meets R50: each tick's samples enter its cycle sums and its residual currents are decided; a contactor opens
after the pilot has left state C, or D with VENT; a granted slot begins after the frame that granted it; a fence completes.  These
are properties of a run, for which no step asks (DESIGN CHOICE, assumption 132). -/
def timely (run : Nat → State) : Prop :=
  (∀ i, (run i).ranges50) ∧
  (∀ n, endsWithin run .sample (fun s => s.phase = .commit ∧ s.now = n) (fun s => n < s.now ∧ s.phase = .compute)) ∧
  (∀ (o : Fin 2) (n : Nat), endsWithin run .residual (fun s => s.phase = .commit ∧ s.now = n ∧ s.on (R.CHG_CTL_EN o) = true)
    (fun s => n < s.now ∧ s.phase = .compute)) ∧
  (∀ o : Fin 2, endsWithin run .contactor
    (fun s => s.on (R.CHG_STAT_K o) = true ∧ s.get (R.CHG_STAT_CP o) ≠ 2 ∧
      ¬ (s.get (R.CHG_STAT_CP o) = 3 ∧ s.on (R.CHG_CTL_VENT o) = true))
    (fun s => s.on (R.CHG_STAT_K o) = false)) ∧
  (∀ (p : Fin 4) (w : Await), endsWithin run .turnaround (fun s => w ∈ (s.link p).slots ∧ w.start = s.halfCycle p + 2)
    (fun s => w ∉ (s.link p).slots ∨ w.start ≤ s.halfCycle p)) ∧
  (∀ k : Nat, endsWithin run .fence (fun s => ∃ l, (k, l) ∈ s.ftl.fences) (fun s => ∀ l, (k, l) ∉ s.ftl.fences))

end Sys2Proof.Machine
end

