-- ==== Sys2Proof/Laws/Writes.lean ====
section
/-!
SUPPORT. What the shared operations of a register write and of an input answer: one lemma for each way a write of R533 can end, and one
for each part of a tick in which an input can arrive (R38).
-/
namespace Sys2Proof.Machine

/-! ### Inputs and the parts of a tick -/

/-- While inputs act an input has its effect at once (R38). -/
theorem State.receive_listening (s : State) (i : Instr) (f : State → State) (h : s.listening) : s.receive i f = f s := by
  rcases h with h | h <;> simp [State.receive, h]

/-- In the commit phase an input waits for the next tick, and nothing else changes (R38). -/
theorem State.receive_commit (s : State) (i : Instr) (f : State → State) (h : s.phase = .commit) :
    s.receive i f = { s with lateIn := s.lateIn ++ [i] } := by simp [State.receive, h]

/-- While the main clusters are held in reset an input finds no machine. -/
theorem State.receive_held (s : State) (i : Instr) (f : State → State) (h : s.phase = .held) : s.receive i f = s := by
  simp [State.receive, h]

/-- While the main clusters run a change is made. -/
theorem State.run_up (s : State) (f : State → State) (h : s.up = true) : s.run f = f s := by simp [State.run, h]

/-- While the main clusters are held in reset nothing changes. -/
theorem State.run_held (s : State) (f : State → State) (h : s.up = false) : s.run f = s := by simp [State.run, h]

/-- A part of the tick other than `held` is a running device. -/
theorem State.up_of_phase {s : State} {ph : Phase} (h : s.phase = ph) (hp : ph ≠ .held) : s.up = true := by
  simp [State.up, h, hp]

theorem State.held_iff (s : State) : s.up = false ↔ s.phase = .held := by simp [State.up]

theorem State.up_of_listening {s : State} (h : s.listening) : s.up = true := by
  rcases h with h | h <;> simp [State.up, h]

theorem State.listening_ne_commit {s : State} (h : s.listening) : s.phase ≠ .commit := by
  rcases h with h | h <;> simp [h]

/-- A change that the commit phase alone makes is made there (R37, R52). -/
theorem State.inCommit_commit (s : State) (f : State → State) (h : s.phase = .commit) : s.inCommit f = f s := by
  simp [State.inCommit, h]

/-- ... and in no other part of the tick. -/
theorem State.inCommit_other (s : State) (f : State → State) (h : s.phase ≠ .commit) : s.inCommit f = s := by
  simp [State.inCommit, h]

/-! ### Writes -/

/-- A write by a closed path changes nothing (R13). -/
theorem State.wordWrite_closed (s : State) (p : Path) (agent a : Nat) (m v : Word) (h : s.pathOpen p = false) :
    s.wordWrite p agent a m v = s := by simp [State.wordWrite, h]

/-- A write that passes is accepted with the bits that pass, and counts nothing (R533). -/
theorem State.wordWrite_passed (s : State) (p : Path) (agent a : Nat) (m v bits : Word) (h : writePassed s p agent a m v bits) :
    s.wordWrite p agent a m v = s.acceptWrite ⟨p, agent, a, bits, v⟩ := by
  obtain ⟨-, hp, hb, hd, hz, r, hr, hf, hj⟩ := h
  unfold State.wordWrite State.busWrite
  rw [if_pos hp, hr]
  dsimp only
  rw [if_neg (by simp [hf]), if_neg hd, if_neg hz]
  unfold State.judgeWrite
  rw [hj]
  dsimp only [State.countJudged]
  rw [if_neg (fun h => hb h.1)]
  simp

/-- A write that is accepted outside the commit phase waits for the commit of its tick (R14), but for the staging registers of steps. -/
theorem State.acceptWrite_waits (s : State) (p : Path) (agent a : Nat) (bits v : Word) (h : s.phase ≠ .commit) (ha : ¬ actsAtOnce a) :
    s.acceptWrite ⟨p, agent, a, bits, v⟩ = s.waiting p agent a bits v := by
  simp only [actsAtOnce, not_or] at ha
  unfold State.acceptWrite
  dsimp only
  rw [if_neg ha.1, if_neg ha.2.1, if_neg ha.2.2.1, if_neg ha.2.2.2]
  simp [State.stageWrite, h, State.waiting]

/-- A write that passes waits for the commit of its tick (R14, R533). -/
theorem State.wordWrite_waits (s : State) (p : Path) (agent a : Nat) (m v bits : Word) (h : writePassed s p agent a m v bits)
    (ha : ¬ actsAtOnce a) : s.wordWrite p agent a m v = s.waiting p agent a bits v := by
  rw [s.wordWrite_passed p agent a m v bits h, s.acceptWrite_waits p agent a bits v (State.listening_ne_commit h.1) ha]

/-- A write of one field that passes waits for the commit of its tick (R14, R533). -/
theorem State.fieldWrite_waits (s : State) (p : Path) (f : Fld) (v : Nat) (h : fieldPassed s p f v) (ha : ¬ actsAtOnce f.addr) :
    s.fieldWrite p f v = s.fieldWaiting p f v := s.wordWrite_waits p _ _ _ _ _ h ha

/-- A command that is a write of one field, when it passes, leaves the write waiting (R14, R38). -/
theorem State.receive_field (s : State) (i : Instr) (p : Path) (f : Fld) (v : Nat) (h : fieldPassed s p f v)
    (ha : ¬ actsAtOnce f.addr) : s.receive i (fun s => s.fieldWrite p f v) = s.fieldWaiting p f v := by
  rw [s.receive_listening i _ h.1, s.fieldWrite_waits p f v h ha]

/-- A write that no field of the register is open for, or that locks and encodings refuse whole, is counted once and waits for nothing
(R533); a page register's write goes on to its commit, which counts it when the page is BUSY. -/
theorem State.judgeWrite_refused (s : State) (p : Path) (agent a : Nat) (m v : Word) (r : RegRow) (j : Judgement)
    (hj : s.bars p a m v (s.judgeRow p a m v r) = j) (h0 : j.mask = 0) (hp : s.ownPage agent a = false) :
    s.judgeWrite p agent a m v r = s.countJudged p a j := by
  unfold State.judgeWrite
  rw [hj]
  simp [h0, hp]

/-! ### Commits -/

/-- The bits of a field that a write sets are those of the value written. -/
theorem Fld.merge_write (f : Fld) (w : Word) (v : Nat) : (w &&& ~~~ f.mask) ||| (f.write 0 v &&& f.mask) = f.write w v := by
  apply BitVec.eq_of_getLsbD_eq
  intro i hi
  rw [BitVec.getLsbD_or, BitVec.getLsbD_and, BitVec.getLsbD_and, BitVec.getLsbD_not, f.mask_bit i hi, f.write_bit 0 v i hi,
    f.write_bit w v i hi]
  by_cases h1 : f.lo ≤ i <;> by_cases h2 : i - f.lo < f.w <;> simp [h1, h2, hi]

/-- A write of one field gives it the value written. -/
theorem State.newVal_field (s : State) (f : Fld) (v : Nat) (h : f.lo + f.w ≤ 32) : s.newVal f f.mask (f.write 0 v) = v % 2 ^ f.w := by
  unfold State.newVal
  rw [Fld.merge_write, Fld.read_write_same f _ _ h]

/-- A write of the word that stands changes nothing. -/
theorem State.setWord_word (s : State) (a : Nat) (hs : Regs.wf s.regs = true) : s.setWord a (s.word a) = s := by
  have : SMap.put resetWord s.regs a (s.word a) = s.regs := SMap.put_get hs
  unfold State.setWord
  rw [this]
  simp

/-- A write of no bits changes nothing. -/
theorem State.mergeWord_none (s : State) (a : Nat) (v : Word) (hs : Regs.wf s.regs = true) : s.mergeWord a 0 v = s := by
  unfold State.mergeWord
  have : (s.word a &&& ~~~ (0 : Word)) ||| (v &&& 0) = s.word a := by
    rw [show (~~~ (0 : Word)) = BitVec.allOnes 32 by decide, BitVec.and_allOnes]
    simp
  rw [this, s.setWord_word a hs]

/-- A write of the bits of one field sets the field. -/
theorem State.mergeWord_field (s : State) (f : Fld) (v : Nat) : s.mergeWord f.addr f.mask (f.write 0 v) = s.set f v := by
  unfold State.mergeWord State.set
  rw [Fld.merge_write]

/-- A write whose register has the row `r`, clears no bit and reaches bits `m`, all of them still legal, does what its block does with them
(R12, R14, R532). -/
theorem State.committed_hook (s : State) (p : Path) (agent a : Nat) (bits v m : Word) (r : RegRow) (h : s.up = true)
    (hr : rowAt a = some r) (hc : clearedBits r a bits v = 0)
    (hm : bits &&& (plainBits r a ||| r.flds.foldl (fun (n : Word) f => if f.acc = .wo then n ||| Fld.mask ⟨a, f.lo, f.w⟩ else n) 0) = m)
    (hj : s.stillLegal ⟨p, agent, a, bits, v⟩ r m = { mask := m }) (h0 : m ≠ 0) : s.committed p agent a bits v = s.hook ⟨p, agent, a, bits, v⟩ m := by
  unfold State.committed State.commitWrite
  dsimp only
  rw [if_pos h, hr]
  dsimp only
  rw [hc, if_pos rfl, hm, hj]
  dsimp only [State.countJudged]
  rw [if_neg (fun e => h0 e.1)]
  simp

end Sys2Proof.Machine
end

