-- ==== Sys2Proof/WellFormed.lean ====
section
/-!
DEFINITION. Which commands the device's surroundings can send: the operands that are held as plain numbers or lists are within the
ranges and lengths that the manual gives the signal, message or measurement they stand for.
-/
namespace Sys2Proof

/-- A number of `w` bits. -/
def fits (w n : Nat) : Bool := decide (n < 2 ^ w)

/-- A two's-complement number of `w` bits. -/
def fitsI (w : Nat) (n : Int) : Bool := decide (-(2 ^ (w - 1)) ≤ n) && decide (n < 2 ^ (w - 1))

/-- An access to one line of SRAM (R27): an owner code of R25, an address of R8, at most the bytes of a line of R30, at most its
36 symbols in error. -/
def Access.wf (a : Access) : Bool :=
  decide (a.agent ≤ 14) && fits 32 a.addr && decide (a.addr % 32 + a.len ≤ 32) && decide (a.err ≤ 36) &&
    match a.wr with
    | some bs => decide (a.addr % 32 + bs.length ≤ 32)
    | none => true

/-- Directory arguments are registers (R126). -/
def DirArgs.wf (d : DirArgs) : Bool := fits 32 d.a0 && fits 32 d.a1 && fits 32 d.a2 && fits 32 d.a3

/-- A datagram arrives over IPv4 or IPv6 on one of the interfaces of R299. -/
def Dgram.wf (d : Dgram) : Bool :=
  decide (d.iface ≤ 3) && (decide (d.addr.length = 4) || decide (d.addr.length = 16)) && fits 16 d.port && fits 16 d.bytes.length

/-- A message received over SUP, if it comes as a datagram. -/
def dgramWf : Option Dgram → Bool
  | some d => d.wf
  | none => true

/-- The fields of an IEEE 1588 message have their widths, and it crosses the reference plane within a tick (R283, R36). -/
def PtpMsg.wf (m : PtpMsg) : Bool :=
  decide (m.port ≤ 2) && decide (m.trans ≤ 2) && fits 8 m.domain && fits 64 m.src && fits 16 m.seq && fitsI 64 m.corr && fits 48 m.sec &&
    decide (m.ns < 1000000000) && fits 64 m.req && fits 17 m.off &&
    match m.utc with
    | some u => fitsI 16 u
    | none => true

/-- The residual currents are values of 0.1 mA in 16 bits (R392). -/
def ChgIn.wf (x : ChgIn) : Bool := fitsI 16 x.cur && fits 32 x.sq && decide (x.cur.natAbs * x.cur.natAbs ≤ x.sq)

/-- A tick takes 24 converter samples of 24 bits, four excitation currents and two outlets' inputs (R155, R381). -/
def TickIn.wf (x : TickIn) : Bool :=
  decide (x.samples.length = 24) && x.samples.all (fitsI 24) && decide (x.exc.length = 4) && decide (x.chg.length = 2) &&
    x.chg.all ChgIn.wf

/-- A start ends each of the steps 3 to 9 at a tick of its own, in order (R490); the dummy cycles that an SFDP table declares have five
bits of wait states and three of mode clocks (R550). -/
def Release.wf (x : Release) : Bool :=
  decide (x.steps.length = 7) && decide (x.steps.Pairwise (· ≤ ·)) &&
    x.sfdp.all (fun t => t.read144.all (fits 6) && t.read114.all (fits 6))

/-- A codeword that is corrected had at most 24 errors (R415). -/
def corrWf (l : List Nat) : Bool := decide (l.length ≤ 17) && l.all (fun c => decide (c ≤ 24))

/-- The reading and the copies of a unit (R421). -/
def UnitMove.wf (x : UnitMove) : Bool := corrWf x.corr && x.tries.all (fun t => fits 32 t.dst && corrWf t.corr)

/-- A parameter page names a page size of R413. -/
def ParamPage.wf (p : ParamPage) : Bool := decide (p.luns ≤ 255) && fits 32 p.page && fits 16 p.spare

/-- Whether the operands of a command are within the manual's ranges. -/
def Instr.wellFormed : Instr → Bool
  | .tickCapture x => x.wf
  | .resetRelease x => x.wf
  | .bankAccess p0 p1 => p0.wf && p1.all Access.wf
  | .correctedLineWriteback line => decide (line < 786432)
  | .scrub errs left => errs.all (fun e => decide (e.1 < 786432) && decide (e.2 ≤ 36)) && left.all (fun e => decide (e.1 < 48))
  | .registerWrite _ _ addr _ _ narrow => fits 32 addr && (narrow || decide (addr % 4 = 0))
  | .unmappedAccess _ addr => fits 32 addr
  | .insert d | .remove d | .setstat d | .setepoch d | .setassign d | .setlink d | .find d | .setdown d | .wrstat d | .rplread d
  | .rplmax d | .rplline d | .dirfix d | .wepoch d | .hfree d => d.wf
  | .windowZeroing lines => decide (lines ≤ 131072)
  | .temperatureFactorUpdate die board => fitsI 16 die && board.all (fitsI 16)
  | .sillageWindow samples =>
    decide (samples.length = 3) && samples.all (fun l => decide (l.length = 8) && l.all (fitsI 24))
  | .plcTransmitRequest _ _ psdu => decide (1 ≤ psdu.length) && decide (psdu.length ≤ 1023)
  | .block _ _ cnt no data => decide (cnt = 0) || (decide (cnt ≤ 4096) && decide (no < cnt) && decide (data.length = 192))
  | .slaveDownReceived names => names.all (fits 32)
  | .plcFrameDecode .. => true
  | .serialReply _ _ _ bytes => decide (1 ≤ bytes.length)
  | .rspUd _ _ bytes => decide (1 ≤ bytes.length)
  | .cipStart _ _ regs => regs.all (fun w => decide (w.1 < 256) && decide (w.1 % 4 = 0))
  | .pauseReceived _ _ offs | .pauseQuantaExpiry _ offs => offs.all (fits 17)
  | .rfidLine _ line => decide (1 ≤ line.length)
  | .ethFrameReceived _ _ bytes => decide (14 ≤ bytes.length)
  | .syncReceived m | .followUpReceived m | .delayRespReceived m | .announceReceived m | .delayReqReceived m => m.wf
  | .syncSend off | .delayReqSend off | .captureEdge _ off => fits 17 off
  | .helloPhase1 d | .helloPhase2 d | .helloPhase3 d | .records d | .ack d | .mgmtRead d | .mgmtWrite d | .keyUpdate d | .fwChunk d
  | .activate d | .downlink d | .testOpen d | .testClose d | .alarmReceived d => dgramWf d
  | .tripIslandTimer _ x => x.wf
  | .nandProgramDone _ dst _ => fits 32 dst
  | .nandEraseDone b _ => fits 32 b
  | .unitRead lun corr _ => fits 32 lun && corrWf corr
  | .mapSegmentWrite dst _ => fits 32 dst
  | .garbageCollection victim moves => victim.all (fits 32) && moves.all UnitMove.wf
  | .mount pages bad => decide (pages.length ≤ 4) && pages.all ParamPage.wf && bad.all (fits 32)
  | .checkpoint tries | .drydown tries | .drydownTakeover tries => tries.all (fun t => fits 32 t.1)
  | .temperatureHistogram temps => temps.all (fitsI 16)
  | .svcMessage bytes => fits 16 bytes.length
  | .testacc addr _ => fits 32 addr
  | .tickCommit | .slotActivation .. | .slotCut .. | .planSwitch | .islandPowerOnReset | .resetNAssert | .pllRestart | .restart
  | .recoveryRestart .. | .bankOwnerHandover .. | .handoverDrainEnd .. | .bankPowerChange .. | .bankReady .. | .frameOpen ..
  | .frameWordWrite .. | .frameErrorRewind .. | .frameTimeout .. | .queueRefill .. | .queueModeChange .. | .ringReadAdvance ..
  | .queueFenceFlagChange .. | .admissionSlot .. | .fenceRelease .. | .laneFault .. | .laneResume .. | .heartFill | .heartRederive
  | .intervalOpen | .intervalClose | .balanceRunStart | .reportPop .. | .meteringValid | .perSecondValues
  | .zeroCrossingDecision .. | .pseudoCycle .. | .periodicSave | .energyBaseAdd .. | .pulseStart .. | .pulseEnd ..
  | .sillageBlockEnd | .sillageTotalClear .. | .plcBurstStart .. | .plcSyncDetect .. | .plcHeaderDecode .. | .sweepStart ..
  | .trainStart .. | .slotTimeout .. | .dataFrameReceived .. | .dataVerdictsComplete .. | .meterAckReceived ..
  | .meterNackReceived .. | .roundEnd .. | .beacon .. | .joinReceived .. | .down .. | .slavePollReceived | .slaveBeaconReceived
  | .uplinkBeaconLoss | .serialRequest .. | .serialReplyTimeout .. | .serialGapTimeout .. | .sndNke .. | .reqUd2 ..
  | .mbusReplyTimeout .. | .transceiverScript .. | .jam .. | .jamEnd .. | .mbusOverload .. | .mbusOverloadRetry ..
  | .displayLine .. | .pppEchoTimeout .. | .ethLinkLoss .. | .sfpModuleChange .. | .timeStepRequest ..
  | .stepRearm .. | .addendApply .. | .announceTimeout | .announceSend | .timestampSearch .. | .triggerArm .. | .triggerPulse ..
  | .ppsOutPulse | .ppsSourceLoss | .rtcSync | .helloPhase1Send | .helloRetryTimeout | .halfOpenTimeout | .recordsSend
  | .recordsRetransmit | .ackSend | .ackrAdvance | .alarmSend | .sessionIdleTimeout | .sessionLifetimeExpiry | .keepaliveAck
  | .perturbationWindowExpiry | .radioFrame .. | .cipZero .. | .cipCommit .. | .cipAbandon .. | .jobEnd .. | .counterMarkRaise ..
  | .keyLoad .. | .keyUpdateWrite | .keyUpdateTransition | .keyUpdateSetauth | .transitionDieReset | .tamperInput ..
  | .tamperInternal .. | .entropyFailure | .pilotStateChange .. | .proximityChange .. | .contactorClose ..
  | .contactorCheckTimeout .. | .lockTimeout .. | .residualCurrentTrip .. | .selfTest .. | .selfTestResult ..
  | .cpComparatorSafeOpen .. | .offerCompute | .pausedContactorRelease .. | .authStart .. | .authStop .. | .authClear ..
  | .authDisable .. | .authEnable .. | .authorisationTimeout .. | .creditLimitWrite | .sessionRecord .. | .setacc | .accountCredit
  | .accountBlock | .accountRead | .tariff | .accountRemove | .accountRebuild | .holdupCheck .. | .holdupChargeTimeout
  | .holdupDecision | .ledgerRestore | .ledgerUnitFlush | .fenceIssue .. | .fenceComplete | .ledgerHold | .ledgerHoldEnd
  | .ledgerUnitRelease | .drydownDone .. | .drydownShort | .format .. | .eventRecord .. | .barrier .. | .flush .. | .read ..
  | .clear .. | .eventUnitProgram | .confirm .. | .trialTimerExpiry | .fixativeWrite | .powerFailWarning | .mainSuppliesLost
  | .warningRecovery | .vbatMeasurement .. | .rtcSet .. | .crystalStop | .watchdogKick .. | .watchdogExpiry | .skewStart ..
  | .nandFailureArm .. | .tagFailureArm .. | .testStepRequest .. | .loopbackSet .. | .dirhold .. | .bypass .. | .idcode
  | .samplePreload .. | .extest .. | .slaveDiscoverReceived | .slaveJoinAckReceived | .ethLinkUp ..
  | .uartCtsChange .. | .svcVbusChange .. | .entropyRecovery | .islandSupplyLost => true

end Sys2Proof
end

