-- ==== Sys2Proof/Certificates/Slice0/Obligations.lean ====
section
/-!
DEFINITION. The statements for the provers.  The first group says, for every command of the table, in which states it has its own
effect and what the next state then is; the later ones say what the rules of the manual ask of that effect.
-/

open Sys2Proof Sys2Proof.Machine

/-! ### Where every command completes -/

/-- R37, R44-R47: the tick sequencer's commands in a device that runs. -/
def Obligations.TickCommandsComplete : Prop :=
  (∀ (s : State) (x : TickIn), s.up = true → s.phase = .commit → exec (.tickCapture x) s = .next (s.capture0 x)) ∧
  (∀ s : State, s.phase = .compute → exec .tickCommit s = .next s.commit0) ∧
  (∀ (s : State) (n : Fin 48) (work : Nat) (x : Slot), s.phase = .compute → s.tsq.plan[n.val]? = some x → x.activeIn s.now = true →
    s.ranNow n = false → s.slotTurn n x = true → s.execRuns x = true →
    exec (.slotActivation n work) s = .next (s.activate n x work)) ∧
  (∀ (s : State) (n : Fin 48) (x : Slot) (total : Nat), s.up = true → s.tsq.plan[n.val]? = some x →
    (s.slotRun n).overrun = some total → exec (.slotCut n) s = .next (s.cutSlot n)) ∧
  (∀ (s : State) (plan : List Slot), s.up = true → s.tsq.newPlan = some plan → s.tsq.proven < s.now →
    exec .planSwitch s = .next (s.switchPlan plan))

/-- R10, R477, R478, R490, R496, R468: resets, the start and restarts. -/
def Obligations.ResetCommandsComplete : Prop :=
  (∀ s : State, s.isl.dead = true → exec .islandPowerOnReset s = .next { State.reset with
    nand := s.nand, nor := s.nor, otp := s.otp, fresh := s.fresh, svc := { vbus := s.svc.vbus }, pending := s.pending }) ∧
  (∀ s : State, s.up = true → s.isl.warned = false → exec .resetNAssert s = .next (s.evLose.dieReset 1)) ∧
  (∀ (s : State) (x : Release), s.phase = .held → s.isl.dead = false → s.isl.halted = false →
    exec (.resetRelease x) s = .next { s.release x with shown := (s.release x).regs }) ∧
  (∀ s : State, exec .pllRestart s = .next s) ∧
  (∀ (s : State) (id f : Nat) (kinds : List Nat), s.up = true → s.sup.activate = some (none, id, f) → s.fenceEnded f = true →
    s.isl.warned = false → s.activation id = some kinds → exec .restart s = .next (s.restart 3 kinds)) ∧
  (∀ (s : State) (cpu : Fin 4), s.up = true → s.on R.CFG_STAT_SAFE = false → s.locked = true → s.isl.warned = false →
    (s.isl.recov.filter (fun r => decide (s.get R.ISL_OPSEC_SEC < r + 3600))).length < 3 →
    exec (.recoveryRestart cpu 1) s = .next (s.recoverWith
      (s.isl.recov.filter (fun r => decide (s.get R.ISL_OPSEC_SEC < r + 3600)) ++ [s.get R.ISL_OPSEC_SEC]))) ∧
  (∀ (s : State) (cpu : Fin 4), s.up = true → s.on R.CFG_STAT_SAFE = false → s.locked = true → s.isl.warned = false →
    3 ≤ (s.isl.recov.filter (fun r => decide (s.get R.ISL_OPSEC_SEC < r + 3600))).length →
    exec (.recoveryRestart cpu 1) s = .next (s.evLose.dieReset 4))

/-- R27-R35: the bank fabric. -/
def Obligations.BankCommandsComplete : Prop :=
  (∀ (s : State) (x : Access), s.up = true → x.wr = none → Sys2Proof.Machine.Access.inSram x = true → s.grants (bankOf x.addr) x.agent = .ok →
    exec (.bankAccess x none) s = .next { (s.readSpan x.addr x.len x.err).2 with
      bnk := { (s.readSpan x.addr x.len x.err).2.bnk with rd0 := (s.readSpan x.addr x.len x.err).1, rd1 := [] } }) ∧
  (∀ (s : State) (x : Access) (bs : List Byte), s.up = true → x.wr = some bs → Sys2Proof.Machine.Access.inSram x = true →
    s.grants (bankOf x.addr) x.agent = .ok →
    exec (.bankAccess x none) s = .next (({ s with bnk := { s.bnk with rd0 := [], rd1 := [] } }).portPut x.addr bs)) ∧
  (∀ (s : State) (line : Nat), s.up = true → line ∈ s.bnk.wback → s.dmg line ≤ 2 →
    exec (.correctedLineWriteback line) s = .next
      (({ s.setDmg line 0 with bnk := { (s.setDmg line 0).bnk with wback := s.bnk.wback.erase line } }).bump
        (R.BNK_STAT_CORR (line / 16384)))) ∧
  (∀ (s : State) (p : Path) (bank : Fin 48) (owner : Fin 32), fieldPassed s p (R.BNK_CTL_OWNER bank) owner →
    exec (.bankOwnerHandover p bank owner) s = .next (s.fieldWaiting p (R.BNK_CTL_OWNER bank) owner)) ∧
  (∀ (s : State) (p : Path) (bank : Fin 48) (owner : Fin 32), s.up = true → s.fieldStands p (R.BNK_CTL_OWNER bank) owner →
    s.ownerOpen p bank = true → s.owner bank ≠ owner →
    s.fieldCommitted p (R.BNK_CTL_OWNER bank) owner = { s.set (R.BNK_CTL_OWNER bank) owner with
      bnk := { s.bnk with drain := SMap.put (fun _ => 0) s.bnk.drain bank (s.owner bank + 1) } }) ∧
  (∀ (s : State) (bank : Fin 48), s.up = true → exec (.handoverDrainEnd bank) s = .next
    { s with bnk := { s.bnk with drain := SMap.put (fun _ => 0) s.bnk.drain bank 0 } }) ∧
  (∀ (s : State) (p : Path) (bank : Fin 48) (pwr : Fin 4), fieldPassed s p (R.BNK_CTL_PWR bank) pwr →
    exec (.bankPowerChange p bank pwr) s = .next (s.fieldWaiting p (R.BNK_CTL_PWR bank) pwr)) ∧
  (∀ (s : State) (p : Path) (bank : Fin 48) (pwr : Fin 4), s.up = true → s.fieldStands p (R.BNK_CTL_PWR bank) pwr →
    s.fieldCommitted p (R.BNK_CTL_PWR bank) pwr = s.power p bank pwr) ∧
  (∀ (s : State) (bank : Fin 48) (w : Nat), s.up = true →
    SMap.get (fun _ => (0, false)) s.bnk.wake bank = (w, true) → w ≠ 0 → w ≤ s.now → s.get (R.BNK_CTL_PWR bank) = 0 →
    exec (.bankReady bank) s = .next (({ s.zeroBank bank with bnk := { (s.zeroBank bank).bnk with
      wake := SMap.put (fun _ => (0, false)) s.bnk.wake bank (0, false) } }).showNow (R.BNK_STAT_READY bank) 1)) ∧
  (∀ (s : State) (errs left : List (Nat × Nat)), s.up = true →
    ∃ t, t = (List.range 48).foldl (State.scrubBank errs left (s.now + 1 - s.bnk.scrubbed)) s ∧
      exec (.scrub errs left) s = .next { t with bnk := { t.bnk with scrubbed := s.now + 1 } })

/-- R22, R533: accesses over the register bus. -/
def Obligations.BusCommandsComplete : Prop :=
  (∀ (s : State) (p : Path) (cpu : Fin 4) (a : Nat) (mask value bits : Word), writePassed s p (agentOf p cpu) a mask value bits →
    sramEnd ≤ a → ¬ actsAtOnce a →
    exec (.registerWrite p cpu a mask value false) s = .next (s.waiting p (agentOf p cpu) a bits value)) ∧
  (∀ (s : State) (p : Path) (cpu : Fin 4) (a : Nat) (mask value : Word), s.listening → s.pathOpen p = true → p ≠ .h → p ≠ .s →
    a < sramEnd → exec (.registerWrite p cpu a mask value false) s = .next (s.sramWrite (agentOf p cpu) a mask value)) ∧
  (∀ (s : State) (p : Path) (cpu : Fin 4) (a : Nat) (mask value : Word) (narrow : Bool), s.phase = .commit →
    exec (.registerWrite p cpu a mask value narrow) s = .next
      { s with lateIn := s.lateIn ++ [.registerWrite p cpu a mask value narrow] }) ∧
  (∀ (s : State) (p : Path) (a : Nat), s.listening → s.pathOpen p = true → sramEnd ≤ a → rowAt (a / 4 * 4) = none →
    exec (.unmappedAccess p a) s = .next (s.refuse .unmapped p a))

/-- R78-R87: the receive queues. -/
def Obligations.QueueCommandsComplete : Prop :=
  (∀ (s : State) (q : Fin 32) (fcnt : Fin 64) (job : Bool), s.listening →
    exec (.frameOpen q fcnt job) s = .next (s.openFrame q fcnt job)) ∧
  (∀ (s : State) (q : Fin 32) (w : Rec), s.listening → exec (.frameWordWrite q w) s = .next (s.writeWord q w)) ∧
  (∀ (s : State) (q : Fin 32), s.listening → exec (.frameErrorRewind q) s = .next (s.rewind q)) ∧
  (∀ (s : State) (q : Fin 32) (f : Frame), s.phase = .commit → (s.queue q).frame = some f → f.deadline ≤ s.now →
    exec (.frameTimeout q) s = .next (s.rewind q)) ∧
  (∀ (s : State) (q : Fin 32) (bad : Bool) (k : Nat) (t : List Nat), s.up = true → (s.queue q).head.length < 16 →
    (s.queue q).spill = k :: t →
    exec (.queueRefill q bad) s = .next ((((s.spillRead q bad).2.putQueue q { s.queue q with
      head := (s.queue q).head ++ [⟨(s.spillRead q bad).1, k⟩], spill := t
      spillAt := ((s.queue q).spillAt + 1) % s.spillCap q })).spillOver q)) ∧
  (∀ (s : State) (q : Fin 32) (bad : Bool) (r : QRec) (t : List QRec), s.up = true → (s.queue q).head.length < 16 →
    (s.queue q).spill = [] → (s.queue q).tail = r :: t →
    exec (.queueRefill q bad) s = .next (s.putQueue q { s.queue q with head := (s.queue q).head ++ [r], tail := t })) ∧
  (∀ (s : State) (p : Path) (q : Fin 32) (mode : Bool), fieldPassed s p (R.QUE_CTL_MODE q) (b2n mode) →
    exec (.queueModeChange p q mode) s = .next (s.fieldWaiting p (R.QUE_CTL_MODE q) (b2n mode))) ∧
  (∀ (s : State) (p : Path) (q : Fin 32) (rptr : Fin 2048), fieldPassed s p (R.QUE_RING_RPTR q) rptr →
    exec (.ringReadAdvance p q rptr) s = .next (s.fieldWaiting p (R.QUE_RING_RPTR q) rptr)) ∧
  (∀ (s : State) (p : Path) (q : Fin 32) (v : Bool), fieldPassed s p (R.QUE_CTL_FENCE q) (b2n v) →
    exec (.queueFenceFlagChange p q v) s = .next (s.fieldWaiting p (R.QUE_CTL_FENCE q) (b2n v))) ∧
  (∀ (s : State) (p : Path) (q : Fin 32) (mode : Bool) (rptr : Fin 2048) (v : Bool), s.up = true → Regs.wf s.regs = true →
    s.fieldCommitted p (R.QUE_CTL_MODE q) (b2n mode) = s.changeMode q mode ∧
    s.fieldCommitted p (R.QUE_RING_RPTR q) rptr = s.advanceRing q rptr ∧
    s.fieldCommitted p (R.QUE_CTL_FENCE q) (b2n v) = s.set (R.QUE_CTL_FENCE q) (b2n v))

/-- R97, R55, R121: the admission of records. -/
def Obligations.AdmissionCommandsComplete : Prop :=
  (∀ (s : State) (l : Fin 4) (j : Fin 125) (lat : Fin 461), s.phase = .compute → (s.lane l).next ≤ j →
    exec (.admissionSlot l j lat) s = .next (s.admitSlot l j lat (fun q r s => s.validate l q r))) ∧
  (∀ (s : State) (q : Fin 32), s.up = true → s.unsent q = 0 →
    exec (.fenceRelease q) s = .next ((s.putQueue q { s.queue q with fenced := false }).syncWait q)) ∧
  (∀ (s : State) (l : Fin 4), s.up = true → exec (.laneFault l none) s = .next (s.resetLane l)) ∧
  (∀ (s : State) (l : Fin 4) (j : Fin 125), s.phase = .compute → (s.lane l).next ≤ j →
    exec (.laneFault l (some j)) s = .next ((s.admitSlot l j 0 (fun q r s => s.faultVerdict l q r)).resetLane l)) ∧
  (∀ (s : State) (l : Fin 4), s.up = true → (s.lane l).resume ≤ s.now →
    exec (.laneResume l) s = .next (s.putLane l { s.lane l with resume := 0 }))

/-- R126: a directory command of firmware or of the head end that finds the window free runs to its end in it. -/
def Obligations.DirectoryCommandsComplete : Prop :=
  ∀ (s : State) (d : DirArgs), s.up = true → s.val.dirCmd = none → s.on R.PRT_CTL_DIRHOLD = false → d.wf = true →
    exec (.insert d) s = .next (s.dirFinish 1 d) ∧
    exec (.remove d) s = .next (s.dirFinish 2 d) ∧
    exec (.setstat d) s = .next (s.dirFinish 3 d) ∧
    exec (.setepoch d) s = .next (s.dirFinish 4 d) ∧
    exec (.setassign d) s = .next (s.dirFinish 5 d) ∧
    exec (.setlink d) s = .next (s.dirFinish 6 d) ∧
    exec (.find d) s = .next (s.dirFinish 7 d) ∧
    exec (.setdown d) s = .next (s.dirFinish 8 d) ∧
    exec (.wrstat d) s = .next (s.dirFinish 9 d) ∧
    exec (.rplread d) s = .next (s.dirFinish 10 d) ∧
    exec (.rplmax d) s = .next (s.dirFinish 11 d) ∧
    exec (.rplline d) s = .next (s.dirFinish 12 d) ∧
    exec (.dirfix d) s = .next (s.dirFinish 13 d) ∧
    exec (.wepoch d) s = .next (s.dirFinish 14 d) ∧
    exec (.hfree d) s = .next (s.dirFinish 15 d)

/-- R128, R111, R364: the engine's own work in the command windows. -/
def Obligations.WindowCommandsComplete : Prop :=
  (∀ (s : State) (lines : Nat), s.up = true → s.on R.RPL_STAT_ZEROING = true →
    exec (.windowZeroing lines) s = .next (s.zeroWindow lines)) ∧
  (∀ (s : State) (i : Nat), s.up = true → s.val.fill = some i → s.baseNote ≠ none → s.val.scanFrom ≤ s.now →
    exec .heartFill s = .next (s.fillStep i)) ∧
  (∀ s : State, s.up = true → s.val.rederive = true → s.val.deriveFrom ≤ s.now → exec .heartRederive s = .next
    ({ s.deriveWindow with val := { s.deriveWindow.val with
      rederive := s.deriveWindow.val.hearts.any (fun h => h.note.isNone) && s.deriveWindow.baseNote.isSome } }).syncRederive)

/-- R136, R144, R145, R154: intervals and reports. -/
def Obligations.BalanceCommandsComplete : Prop :=
  (∀ (s : State) (m : Nat), s.up = true → s.on R.BAL_STAT_RUN = true → s.bal.last = some m → m < s.curInt →
    exec .intervalOpen s = .next (({ s.deliverInterval m with
      mtr := { (s.deliverInterval m).mtr with baseN := s.curInt, baseT := s.now } }).enterInt s.curInt false s.now)) ∧
  (∀ (s : State) (i : Intv) (rest : List Intv), s.phase = .commit → s.bal.ivs = i :: rest → s.bal.last = some s.curInt →
    i.n + 1 + s.get R.BAL_CTL_SETTLE ≤ s.curInt →
    ∃ t, exec .intervalClose s = .next t ∧ t.bal.ivs = rest) ∧
  (∀ s : State, s.up = true → s.on R.BAL_STAT_RUN = false → s.on R.TIM_STAT_VALID = true → s.afterOrigin s.tim.start = true →
    exec .balanceRunStart s = .next s.startRun) ∧
  (∀ (s : State) (p : Path), fieldPassed s p R.BAL_RPTPOP_POP 1 →
    exec (.reportPop p) s = .next (s.fieldWaiting p R.BAL_RPTPOP_POP 1)) ∧
  (∀ (s : State) (p : Path), s.up = true → s.fieldCommitted p R.BAL_RPTPOP_POP 1 = s.reportPop p)

/-- R161-R187: the metering front end. -/
def Obligations.MeteringCommandsComplete : Prop :=
  (∀ s : State, s.up = true → s.mtr.started = true → 4 ≤ s.mtr.seen → s.on R.MTR_STAT_VALID = false →
    exec .meteringValid s = .next (s.set R.MTR_STAT_VALID 1).useSamples) ∧
  (∀ (s : State) (die : Int) (board : Option Int), s.up = true →
    exec (.temperatureFactorUpdate die board) s = .next (s.temperatureRead die board)) ∧
  (∀ (s : State) (a : SecSums), s.up = true → s.mtr.done = some a → a.n ≠ 0 → exec .perSecondValues s = .next (s.putSecond a)) ∧
  (∀ (s : State) (v : Fin 7) (zh h t : Int) (up : Bool), s.up = true → (s.zcx v).lock = some (zh, up, h) → s.mtr.inst[3]? = some t →
    zh + 875000 * nsU ≤ t → (s.get R.MTR_CTL_VEN).testBit v = true →
    exec (.zeroCrossingDecision v) s = .next ((s.decideCrossing v zh up h).dropPorts (fun p => s.on (R.PLC_STAT_READY p)))) ∧
  (∀ (s : State) (g : Fin 4), s.up = true → s.groupOn g = true → s.on R.MTR_STAT_VALID = true →
    200 ≤ (SMap.get cycle0 s.mtr.cycles (4 * g + 1)).ticks → exec (.pseudoCycle g 1) s = .next (s.closeCycle g 1)) ∧
  (∀ (s : State) (g : Fin 4), s.up = true → s.groupOn g = true → s.on R.MTR_STAT_VALID = true →
    200 ≤ (SMap.get cycle0 s.mtr.cycles (4 * g + 0)).ticks →
    exec (.pseudoCycle g 0) s = .next ((s.closeCycle g 0).countSequence g 2)) ∧
  (∀ s : State, s.up = true → s.ftl.mounted = true → s.regionOpen 2 = true → s.isl.warned = false → s.bufferFree = true →
    s.get R.NRG_CTL_SAVEP ≠ 0 → s.mtr.saveAt + s.get R.NRG_CTL_SAVEP ≤ secOf s.tim.start →
    exec .periodicSave s = .next { s with
      mtr := { s.mtr with saveAt := secOf s.tim.start }
      ftl := { s.ftl with snapAt := (s.ftl.snapAt + 1) % 16, progs := s.ftl.progs ++
        [{ what := .snap, lun := s.nextSnap, region := 2, data := s.snapBytes 1 }] } }) ∧
  (∀ (s : State) (p : Path), fieldPassed s p R.NRG_CTL_ADD 1 →
    exec (.energyBaseAdd p) s = .next (s.fieldWaiting p R.NRG_CTL_ADD 1)) ∧
  (∀ (s : State) (k : Fin 4), s.phase = .commit → (SMap.get pulse0 s.mtr.pulses k).start = none →
    (SMap.get pulse0 s.mtr.pulses k).active = false → (SMap.get pulse0 s.mtr.pulses k).hold ≤ s.now + 1 →
    (SMap.get pulse0 s.mtr.pulses k).ready = true → exec (.pulseStart k) s = .next (s.startPulse k)) ∧
  (∀ (s : State) (k : Fin 4) (a : Nat), s.phase = .commit → (SMap.get pulse0 s.mtr.pulses k).start = some a →
    (SMap.get pulse0 s.mtr.pulses k).active = true → a + s.get (R.NRG_PCFG_WIDTH k) ≤ s.now + 1 →
    exec (.pulseEnd k) s = .next (({ s with mtr := { s.mtr with
      pulses := SMap.put pulse0 s.mtr.pulses k { SMap.get pulse0 s.mtr.pulses k with active := false } } }).pulsePin k false)) ∧
  (∀ (s : State) (samples : List (List Int)), s.sillageOn = true → s.get R.BAT_STAT_VBAT < 2900 → ∃ l,
    exec (.sillageWindow samples) s = .next ((s.set R.SIL_STAT_SUSP 1).draw.2.sillageWindow l)) ∧
  (∀ (s : State) (samples : List (List Int)), s.sillageOn = true → 2900 ≤ s.get R.BAT_STAT_VBAT →
    exec (.sillageWindow samples) s = .next
      (s.sillageWindow ([0, 1, 2].map (fun p => ((nth samples p []).take 8).foldl (fun a i => a + i.natAbs) 0)))) ∧
  (∀ s : State, s.sillageOn = true → s.isl.sil.window = 16 → exec .sillageBlockEnd s = .next s.closeSillage) ∧
  (∀ (s : State) (p : Path), fieldPassed s p R.SIL_CLR_CLR 1 →
    exec (.sillageTotalClear p) s = .next (s.fieldWaiting p R.SIL_CLR_CLR 1)) ∧
  (∀ (s : State) (p : Path), s.up = true → Regs.wf s.regs = true →
    (s.fieldStands p R.NRG_CTL_ADD 1 → s.fieldCommitted p R.NRG_CTL_ADD 1 = s.baseAdd p) ∧
    (s.fieldStands p R.SIL_CLR_CLR 1 → s.fieldCommitted p R.SIL_CLR_CLR 1 = s.set R.SIL_TOTAL_TOTAL 0))

/-- R209-R219: the power-line ports. -/
def Obligations.PlcCommandsComplete : Prop :=
  (∀ (s : State) (p mod : Fin 4) (psdu : List Byte), s.up = true → s.isMaster p = false → s.isSlave p = false →
    s.plcFree p mod (s.halfCycle p) psdu.length = true →
    exec (.plcTransmitRequest p mod psdu) s = .next (s.putPlc p { s.plcPort p with
      tx := some { mod := mod, psdu := psdu, bursts := plcFrameBursts (s.plcClass p) mod psdu, hc := s.halfCycle p,
                   drop := if s.plcDrops p 0 then s.get R.PRT_PLCDROP_MASK else 0 }
      refused := false
      drops := if s.plcDrops p 0 then (s.plcPort p).drops - 1 else (s.plcPort p).drops })) ∧
  (∀ (s : State) (p mod : Fin 4) (psdu : List Byte), s.up = true → s.isMaster p = false → s.isSlave p = false →
    s.plcFree p mod (s.halfCycle p) psdu.length = false →
    exec (.plcTransmitRequest p mod psdu) s = .next (s.putPlc p { s.plcPort p with refused := true })) ∧
  (∀ (s : State) (p mod : Fin 4) (psdu : List Byte) (f : Nat × Nat × List Byte) (rest : List (Nat × Nat × List Byte)), s.up = true →
    (s.link p).sendq = f :: rest →
    (s.isMaster p = true → exec (.plcTransmitRequest p mod psdu) s = .next (s.sendMaster p f rest)) ∧
    (s.isMaster p = false → s.isSlave p = true → exec (.plcTransmitRequest p mod psdu) s = .next (s.sendStation p f rest))) ∧
  (∀ (s : State) (p : Fin 4) (t : PlcTx) (b : List (List Nat)) (rest : List (List (List Nat))), s.up = true → (s.plcPort p).tx = some t →
    t.bursts = b :: rest → s.on (R.PLC_STAT_READY p) = true → s.halfCycle p = t.hc → s.burstAt p < s.instant + s.tickSpan →
    t.drop = 0 → s.plcPeer p = none →
    exec (.plcBurstStart p) s = .next ((((s.putPlc p { s.plcPort p with
      tx := some { t with bursts := rest, hc := t.hc + 1, idx := t.idx + 1, ends := s.burstAt p + s.plcSpan (burstSamples b), cur := b,
                          next := s.burstAt p } })).txEnable p true (s.burstAt p - 20000 * nsU)).sendSymbol p)) ∧
  (∀ (s : State) (p : Fin 4) (dev : Int) (gain : Fin 8) (ref : Nat), s.listening → (s.plcPort p).rx = none →
    exec (.plcSyncDetect p dev gain ref) s = .next ((s.plcSync p dev gain ref).markSeen p)) ∧
  (∀ (s : State) (p : Fin 4) (b : BurstIn) (h : BitVec 24) (r : PlcRx), s.listening → (s.plcPort p).rx = some r → r.head = none →
    exec (.plcHeaderDecode p b h) s = .next ((s.plcHead p b h.toNat).overSlot p)) ∧
  (∀ (s : State) (p : Fin 4) (bursts : List BurstIn) (snr : Fin 64) (stream : List Byte), s.listening →
    (s.plcDecode p bursts snr stream).1 = none →
    exec (.plcFrameDecode p bursts snr stream) s = .next (s.plcDecode p bursts snr stream).2) ∧
  (∀ (s : State) (p : Fin 4) (bursts : List BurstIn) (snr : Fin 64) (stream : List Byte) (f : PlcFrame), s.listening →
    (s.plcDecode p bursts snr stream).1 = some f →
    exec (.plcFrameDecode p bursts snr stream) s = .next ((s.plcDecode p bursts snr stream).2.linkFilter p f))

/-- R232-R241, R245-R249: the master of a power-line network. -/
def Obligations.MasterCommandsComplete : Prop :=
  (∀ (s : State) (p : Fin 4), s.up = true → s.isMaster p = true → s.on (R.PLK_STAT_SWEEP p) = false → s.atBoundary = true →
    exec (.sweepStart p) s = .next (s.beginSweep p)) ∧
  (∀ (s : State) (p : Fin 4), s.up = true → s.masterIdle p = true → exec (.trainStart p) s = .next (s.trainNext p)) ∧
  (∀ (s : State) (p : Fin 4) (w : Await) (rest : List Await), s.up = true → (s.link p).slots = w :: rest → s.slotOver p w = true →
    exec (.slotTimeout p) s = .next (((s.putLink p { s.link p with slots := rest }).missSlot p w).endSweep p)) ∧
  (∀ (s : State) (p : Fin 4) (f : PlcFrame) (w : Await), s.up = true → s.isMaster p = true → s.inboxOf p 2 = some (f, w) →
    exec (.dataFrameReceived p) s = .next (s.takeData p f w)) ∧
  (∀ (s t : State) (p : Fin 4) (addr d : Nat) (w : Waiting), s.up = true → s.takeDone (fun w => w.ofPlc p) = (some w, t) →
    w.who = .plc p addr d → exec (.dataVerdictsComplete p) s = .next (t.ackVerdicts p addr d w)) ∧
  (∀ (s : State) (p : Fin 4) (f : PlcFrame) (w : Await), s.up = true → s.isMaster p = true → s.inboxOf p 5 = some (f, w) →
    exec (.meterAckReceived p) s = .next (s.takeMeterAck p f w)) ∧
  (∀ (s : State) (p : Fin 4) (f : PlcFrame) (w : Await) (k : Nat), s.up = true → s.isMaster p = true → s.inboxOf p 6 = some (f, w) →
    w.kind = .down k → exec (.meterNackReceived p) s = .next ((s.answered p f w none).failDown p k)) ∧
  (∀ (s : State) (p : Fin 4), s.up = true → s.isMaster p = true →
    (s.link p).roundAt + s.get (R.PLK_SCH_RND p) * ticksPerSec ≤ s.now →
    ∃ t, exec (.roundEnd p) s = .next t ∧
      t = (s.missRounds p (s.get (R.PLK_SCH_RETRY p)) (s.link p).missed).2.putLink p
        { (s.missRounds p (s.get (R.PLK_SCH_RETRY p)) (s.link p).missed).2.link p with
          retry := (s.link p).retry ++ (s.missRounds p (s.get (R.PLK_SCH_RETRY p)) (s.link p).missed).1.filter
            (fun m => !((s.link p).retry.contains m))
          missed := [], nacked := [], roundAt := s.now }) ∧
  (∀ (s : State) (p : Fin 4), s.up = true → s.masterIdle p = true → (s.link p).greeted = false →
    exec (.beacon p) s = .next (s.sendBeacon p)) ∧
  (∀ (s : State) (p : Fin 4) (f : PlcFrame), s.up = true → s.isMaster p = true → (s.plcPort p).inbox = some f →
    frameType f.psdu = 8 → exec (.joinReceived p) s = .next (s.takeJoin p f)) ∧
  (∀ (s : State) (p : Fin 4) (m : DlMsg) (i : Nat), s.up = true → s.masterIdle p = true → s.get (R.PLK_SCH_DNGAP p) ≤ (s.link p).trains →
    s.nextDown p = some (m, i) → exec (.down p) s = .next (s.sendDown p m i)) ∧
  (∀ (s : State) (p : Fin 4) (img : BitVec 32) (cnt no : Nat) (data : List Byte), s.up = true → s.masterIdle p = true → 1 ≤ cnt →
    cnt ≤ 4096 → no < cnt → (s.campaign p img.toNat cnt).next.head? = some no →
    exec (.block p img cnt no data) s = .next (s.sendBlock p (s.campaign p img.toNat cnt) no data)) ∧
  (∀ (s : State) (p : Fin 4) (img : BitVec 32) (no : Nat) (data : List Byte) (c : Camp), s.up = true → s.isMaster p = true →
    (s.link p).camp = some c → c.img = img.toNat →
    exec (.block p img 0 no data) s = .next (s.putLink p { s.link p with camp := none }))

/-- R245, R246, R250: PLC3 as a station of the master above. -/
def Obligations.SlaveCommandsComplete : Prop :=
  (∀ (s : State) (f : PlcFrame), s.up = true → s.slaveInbox 1 = some f → exec .slavePollReceived s = .next (s.takePoll f)) ∧
  (∀ (s : State) (f : PlcFrame) (names : Option Nat), s.up = true → s.slaveInbox 3 = some f →
    exec (.slaveDownReceived names) s = .next (s.takeDown f names)) ∧
  (∀ (s : State) (f : PlcFrame), s.up = true → s.slaveInbox 9 = some f →
    exec .slaveBeaconReceived s = .next (s.takeBeacon f)) ∧
  (∀ (s : State) (b : Beacon), s.phase = .commit → (s.link 3).beacon = some b → s.isSlave 3 = true → s.on (R.PLK_STAT_JOINED 3) = true →
    (s.link 3).upAt + 4 * b.per * ticksPerSec ≤ s.now →
    exec .uplinkBeaconLoss s = .next ((((s.putLink 3 { s.link 3 with beacon := none, sendq := [], joinNet := none }).setAll
      [(R.PLK_STAT_JOINED 3, 0), (R.PLK_ADDR_ADDR 3, 0)]).flag (R.PLK_STAT_UPLOST 3)).raise 0x0A04 10 1 [(0, 1, 3)])) ∧
  (∀ (s : State) (f : PlcFrame), s.up = true → s.slaveInbox 7 = some f →
    exec .slaveDiscoverReceived s = .next (s.takeDiscover f)) ∧
  (∀ (s : State) (f : PlcFrame), s.up = true → s.slaveInbox 5 = some f →
    exec .slaveJoinAckReceived s = .next (((s.clearInbox 3).putLink 3
      { (s.clearInbox 3).link 3 with mod := leAt (masterBody f.psdu) 6 1 % 4, upAt := s.now }).setAll
        [(R.PLK_ADDR_ADDR 3, leAt (masterBody f.psdu) 4 2), (R.PLK_ADDR_UPNET 3, leAt f.psdu 1 1), (R.PLK_STAT_JOINED 3, 1)]))

/-- R256-R266: serial, M-Bus, radio and UART ports. -/
def Obligations.WiredCommandsComplete : Prop :=
  (∀ (s : State) (k : Fin 12), s.up = true → s.busUp (pollBus k) = true → (s.busOf (pollBus k)).req = none →
    (s.busOf (pollBus k)).drive = none → exec (.serialRequest k) s = .next (s.pollNext (pollBus k))) ∧
  (∀ (s : State) (n : Fin 8) (ago idle : Nat) (bytes : List Byte), s.listening → s.busUp (4 + n) = true →
    s.busLooped (4 + n) = false → s.gapBroken n ago bytes = false →
    (s.busGap n ≤ idle →
      exec (.serialReply n ago idle bytes) s = .next ((s.bufferReply (4 + n) ago idle bytes).judgeReply (4 + n))) ∧
    (idle < s.busGap n → exec (.serialReply n ago idle bytes) s = .next (s.bufferReply (4 + n) ago idle bytes))) ∧
  (∀ (s : State) (n : Fin 8) (ago idle : Nat) (bytes : List Byte), s.listening → s.busLooped (4 + n) = true →
    exec (.serialReply n ago idle bytes) s = .next s) ∧
  (∀ (s : State) (k : Fin 12) (r : BusReq), s.phase = .commit → (s.busOf (pollBus k)).req = some r →
    (s.busOf (pollBus k)).reply = none → r.deadline ≤ s.now → exec (.serialReplyTimeout k) s = .next (s.busLate (pollBus k))) ∧
  (∀ (s : State) (n : Fin 8) (r : Reply), s.phase = .commit → (s.busOf (4 + n)).reply = some r → r.last + s.busGap n < s.now →
    exec (.serialGapTimeout n) s = .next
      ((s.putBus (4 + n) { s.busOf (4 + n) with reply := none }).takeReply (4 + n) r.first r.bytes)) ∧
  (∀ (s : State) (b : Fin 2) (i : Nat), s.up = true → s.busUp (12 + b) = true → (s.busOf (12 + b)).req = none →
    (s.servedFrom (12 + b) 0).find? (fun i => !((s.busOf (12 + b)).nke.contains (s.dirMeter i))) = some i →
    exec (.sndNke b) s = .next (s.sendNke (12 + b) i)) ∧
  (∀ (s : State) (b : Fin 2), s.up = true → s.busUp (12 + b) = true → (s.busOf (12 + b)).req = none →
    exec (.reqUd2 b) s = .next (s.sendReqUd2 (12 + b))) ∧
  (∀ (s t : State) (b : Fin 2) (ago : Nat) (bytes : List Byte) (y : Reply), s.listening → t = s.bufferReply (12 + b) ago 0 bytes →
    (t.busOf (12 + b)).reply = some y → mbusWhole y.bytes = true →
    exec (.rspUd b ago bytes) s = .next ((t.putBus (12 + b) { t.busOf (12 + b) with reply := none }).takeTelegram (12 + b) y.first y.bytes)) ∧
  (∀ (s : State) (b : Fin 2) (first : Nat) (bytes : List Byte) (r : BusReq), (s.busOf (12 + b)).req = some r →
    first ≤ r.deadline → r.nke = false → longFrameOk r.addr bytes = true → bytes ≠ [0xE5#8] →
    s.takeTelegram (12 + b) first bytes = (s.busAnswer (12 + b) none).giveTelegram (12 + b) r.meter bytes) ∧
  (∀ (s : State) (b : Fin 2) (r : BusReq), s.phase = .commit → (s.busOf (12 + b)).req = some r → (s.busOf (12 + b)).reply = none →
    r.deadline ≤ s.now → exec (.mbusReplyTimeout b) s = .next (s.busLate (12 + b))) ∧
  (∀ (s : State) (r : Fin 4) (ago : Nat) (bytes : List Byte), s.listening → s.busUp (14 + r) = true →
    (s.busOf (14 + r)).req = none → bytes ≠ [] →
    exec (.radioFrame r ago bytes) s = .next
      ((s.putBus (14 + r) { s.busOf (14 + r) with reply := none }).unprompted (14 + r) bytes)) ∧
  (∀ (s : State) (r : Fin 4) (b : List Byte), s.up = true → s.on (R.RAD_CTL_EN r) = true → (s.busOf (14 + r)).loaded = false →
    (s.busOf (14 + r)).script = none → SMap.at? s.scripts r = some b →
    exec (.transceiverScript r) s = .next (s.runScript (14 + r) b)) ∧
  (∀ (s : State) (k : Fin 12), s.phase = .capture → s.busUp (pollBus k) = true →
    exec (.jam k) s = .next ((s.flag (if isSer (pollBus k) then R.SER_BSTAT_JAM (pollBus k - 4)
      else R.RAD_STAT_JAM (pollBus k - 14))).silence (pollBus k) 0)) ∧
  (∀ (s : State) (k : Fin 12), s.phase = .commit → exec (.jamEnd k) s = .next (s.unsilence (pollBus k))) ∧
  (∀ (s : State) (b : Fin 2), s.phase = .capture → s.busUp (12 + b) = true →
    exec (.mbusOverload b) s = .next ((s.flag (R.MBS_STAT_OVL b)).silence (12 + b) 1)) ∧
  (∀ (s : State) (b : Fin 2), s.phase = .commit → exec (.mbusOverloadRetry b) s = .next (s.unsilence (12 + b))) ∧
  (∀ (s : State) (u : Fin 4) (line : List Byte), s.listening → s.get (R.SER_UCTL_ROLE u) = 2 → s.task0A = true →
    exec (.rfidLine u line) s = .next (s.takeLine u line)) ∧
  (∀ (s : State) (u : Fin 4), s.up = true → s.get (R.SER_UCTL_ROLE u) = 3 → (s.uartOf u).shown ≠ some (secOf s.tim.start) →
    exec (.displayLine u) s = .next (s.showLine u (secOf s.tim.start))) ∧
  (∀ (s : State) (u : Fin 4), s.phase = .commit → s.isModem u = true → (s.uartOf u).ppp.sent.isSome = true →
    (s.uartOf u).echoAt + 240000 ≤ s.now →
    exec (.pppEchoTimeout u []) s = .next
      (State.dial { s with lateIn := s.lateIn ++ [Instr.pppEchoTimeout u []] } u)) ∧
  (∀ (s : State) (u : Fin 4) (rx : List Byte), s.listening → exec (.pppEchoTimeout u rx) s = .next (s.modemRx u rx)) ∧
  (∀ (s : State) (u : Fin 4), s.listening → s.isModem u = true →
    exec (.uartCtsChange u false) s = .next (s.putUart u { s.uartOf u with cts := false }) ∧
    exec (.uartCtsChange u true) s = .next ((s.uartOf u).wait.foldl (fun (s : State) b => s.send (.uart u) b)
      (s.putUart u { s.uartOf u with cts := true, wait := [] })))

/-- R272, R273: the Ethernet ports. -/
def Obligations.EthCommandsComplete : Prop :=
  (∀ (s : State) (n : Fin 3) (bytes : List Byte), s.listening → s.on (R.ETH_CTL_EN n) = true → s.on (R.ETH_STAT_LINK n) = true →
    exec (.ethFrameReceived n false bytes) s = .next (s.bump (R.ETH_ERR_ERR n))) ∧
  (∀ (s : State) (n : Fin 3) (bytes : List Byte), s.listening → s.on (R.ETH_CTL_EN n) = true → s.on (R.ETH_STAT_LINK n) = true →
    60 ≤ bytes.length → bytes.length ≤ 1518 → beAt bytes 12 2 ≠ 0x8100 → s.on (R.ETH_CTL_VLAN n) = false →
    s.destTaken n (bytes.take 6) = true →
    exec (.ethFrameReceived n true bytes) s = .next (s.deliverFrame n bytes (beAt bytes 12 2) (bytes.drop 14))) ∧
  (∀ (s : State) (n : Fin 3), s.listening → exec (.ethLinkLoss n) s = .next (s.linkDown n)) ∧
  (∀ (s : State) (n : Fin 3) (quanta : BitVec 16) (offs : List Nat), s.listening → s.on (R.ETH_CTL_EN n) = true → s.on (R.ETH_STAT_LINK n) = true →
    s.on (R.ETH_CTL_PAUSE n) = true → quanta.toNat ≠ 0 →
    exec (.pauseReceived n quanta offs) s = .next (s.putEth n { s.ethPort n with pause := true })) ∧
  (∀ (s : State), s.listening → exec (.sfpModuleChange false false) s = .next
    ((s.setAll [(R.ETH_STAT_MODABS 2, 0), (R.ETH_STAT_LOS 2, 0)]).drive (.pin "ETH2_TXDIS") [0#8])) ∧
  (∀ (s : State) (n : Fin 3) (spd : Fin 4), s.listening → s.on (R.ETH_CTL_EN n) = true → n.val ≠ 2 → spd.val ≠ 0 →
    s.get (R.ETH_CTL_SPEED n) = 0 →
    exec (.ethLinkUp n spd) s = .next (s.setAll [(R.ETH_STAT_LINK n, 1), (R.ETH_STAT_SPD n, spd)])) ∧
  (∀ (s : State), s.listening → s.on (R.ETH_CTL_EN 2) = true → s.on (R.ETH_STAT_MODABS 2) = false → s.on (R.ETH_STAT_LOS 2) = false →
    exec (.ethLinkUp 2 3) s = .next (s.setAll [(R.ETH_STAT_LINK 2, 1), (R.ETH_STAT_SPD 2, 3)])) ∧
  (∀ (s : State) (n : Fin 3) (offs : List Nat), s.up = true → (s.ethPort n).pause = true →
    exec (.pauseQuantaExpiry n offs) s = .next (s.sendWaiting n offs))

/-- R275-R295: the time unit. -/
def Obligations.TimeCommandsComplete : Prop :=
  (∀ (s : State) (p : Path) (ns : BitVec 31), fieldPassed s p R.TIM_STEPNS_NS ns.toNat →
    exec (.timeStepRequest p ns) s = .next (s.requestStep (stepWho p) (sgn 31 ns.toNat))) ∧
  (∀ (s : State) (p : Path), fieldPassed s p R.TIM_CTL_REARM 1 →
    exec (.stepRearm p) s = .next (s.fieldWaiting p R.TIM_CTL_REARM 1)) ∧
  (∀ (s : State) (p : Path), s.up = true → Regs.wf s.regs = true → s.fieldCommitted p R.TIM_CTL_REARM 1 =
    { s.set R.TIM_STAT_STEPARM 1 with tim := { s.tim with offs := [] } }) ∧
  (∀ (s : State) (p : Path) (hi : BitVec 32), fieldPassed s p R.TIM_ADDHI_ADD hi.toNat →
    exec (.addendApply p hi) s = .next (s.fieldWaiting p R.TIM_ADDHI_ADD hi.toNat)) ∧
  (∀ (s : State) (p : Path) (hi : BitVec 32), s.up = true → s.fieldStands p R.TIM_ADDHI_ADD hi.toNat →
    s.fieldCommitted p R.TIM_ADDHI_ADD hi.toNat = s.setAddend (s.tim.addLo + hi.toNat * 2 ^ 32)) ∧
  (∀ (s : State) (m : PtpMsg), s.phase = .compute → s.fromMaster m = true → m.two = true →
    exec (.syncReceived m) s = .next (s.putPtp (fun p => { p with
      syncSeq := m.seq, t1 := none, t2 := some (s.stamp m.off (s.get (R.ETH_LAT_RX m.port)) - m.corr), syncGen := s.stampGen }))) ∧
  (∀ (s : State) (m : PtpMsg) (t2 : Int), s.listening → s.fromMaster m = true → s.tim.ptp.syncSeq = m.seq → s.tim.ptp.t1 = none →
    s.tim.ptp.t2 = some t2 →
    exec (.followUpReceived m) s = .next (s.putPtp (fun p => { p with t1 := some (ptpMsgTime m) }))) ∧
  (∀ (s : State) (m : PtpMsg) (t1 t2 t3 : Int), s.listening → s.fromMaster m = true → m.req = s.clockId m.port →
    s.tim.ptp.reqSeq = m.seq → s.tim.ptp.t1 = some t1 → s.tim.ptp.t2 = some t2 → s.tim.ptp.t3 = some t3 →
    s.tim.ptp.syncGen = s.tim.ptp.reqGen → s.tim.ptp.reqGen = s.gen →
    exec (.delayRespReceived m) s = .next ((s.putPtp (fun p => { p with t3 := none })).takeOffset
      (divOpen ((t2 - t1) - ((((m.sec : Int) * 1000000000 + m.ns) * nsU - m.corr) - t3)) (2 * nsU)))) ∧
  (∀ (s : State) (m : PtpMsg), s.phase = .capture → s.get R.TIM_CTL_SRC = 1 → s.ptpTaken m = true → s.wantedMaster = 0 →
    s.tim.ptp.master = none → m.utc = none →
    exec (.announceReceived m) s = .next (s.putPtp (fun p => { p with master := some m.src, annAt := s.now }))) ∧
  (∀ (s : State) (m : PtpMsg), s.phase = .compute → s.ptpMaster = true → s.ptpTaken m = true →
    ∃ r, r = s.ptpHead 9 54 0 (unsgn 64 m.corr) m.seq 3 (unsgn 8 (sgn 4 (s.get R.TIM_PTPCFG_LDREQ))) ++
        ptpTime (s.stamp m.off (s.get (R.ETH_LAT_RX m.port))) ++ beBytes 8 m.src ++ beBytes 2 1 ∧
      exec (.delayReqReceived m) s = .next (s.ethSend m.port { bytes := s.ptpFrame m.port false false r r })) ∧
  (∀ (s : State), s.phase = .commit → s.get R.TIM_CTL_SRC = 1 → (s.tim.ptp.master.isSome = true ∨ s.wantedMaster ≠ 0) →
    s.tim.ptp.annAt + 3 * 2 ^ s.get R.TIM_PTPCFG_LANN * ticksPerSec ≤ s.now →
    exec .announceTimeout s = .next (s.putPtp (fun p => { p with master := none, annAt := s.now })).sourceLost) ∧
  (∀ (s : State) (off : Nat), s.up = true → s.ptpMaster = true →
    s.intervalPast s.tim.ptp.atSync (sgn 4 (s.get R.TIM_PTPCFG_LSYNC)) = true →
    exec (.syncSend off) s = .next ((s.sendEvent (s.get R.TIM_CTL_PORT) 0 s.tim.ptp.nSync off).putPtp
      (fun p => { p with nSync := (p.nSync + 1) % 65536, atSync := some s.now }))) ∧
  (∀ s : State, s.up = true → s.ptpMaster = true → s.intervalPast s.tim.ptp.atAnn (s.get R.TIM_PTPCFG_LANN) = true →
    ∃ t, exec .announceSend s = .next t ∧ t.tim.ptp.nAnn = (s.tim.ptp.nAnn + 1) % 65536 ∧ t.tim.ptp.atAnn = some s.now) ∧
  (∀ (s : State) (off : Nat), s.up = true → s.get R.TIM_CTL_SRC = 1 → s.ptpOn (s.get R.TIM_CTL_PORT) = true →
    s.intervalPast s.tim.ptp.atReq (sgn 4 (s.get R.TIM_PTPCFG_LDREQ)) = true →
    exec (.delayReqSend off) s = .next ((s.putPtp (fun p => { p with
      nReq := (p.nReq + 1) % 65536, reqSeq := p.nReq, t3 := none, atReq := some s.now })).sendEvent (s.get R.TIM_CTL_PORT) 1
        s.tim.ptp.nReq off)) ∧
  (∀ (s : State) (p : Path) (key : BitVec 32), writePassed s p (agentOf p 0) R.TIM_TSQKEY 0x3FFFFF#32 key 0x3FFFFF#32 →
    exec (.timestampSearch p key) s = .next (s.waiting p (agentOf p 0) R.TIM_TSQKEY 0x3FFFFF#32 key)) ∧
  (∀ (s : State) (p : Path) (key : BitVec 32), s.up = true → s.stands p (agentOf p 0) R.TIM_TSQKEY 0x3FFFFF#32 key →
    s.committed p (agentOf p 0) R.TIM_TSQKEY 0x3FFFFF#32 key = s.tsqSearch (key.toNat % 2 ^ 22)) ∧
  (∀ (s : State) (p : Path) (k : Fin 4) (ns : BitVec 30), fieldPassed s p (R.TIM_TRGN_NS k) ns.toNat →
    exec (.triggerArm p k ns) s = .next (s.fieldWaiting p (R.TIM_TRGN_NS k) ns.toNat)) ∧
  (∀ (s : State) (p : Path) (k : Fin 4) (ns : BitVec 30), s.up = true → s.fieldStands p (R.TIM_TRGN_NS k) ns.toNat →
    s.fieldCommitted p (R.TIM_TRGN_NS k) ns.toNat = s.armTrigger p k ns.toNat) ∧
  (∀ (s : State) (k : Fin 4) (c0 c : Nat), s.up = true → SMap.at? s.tim.trig k = some (c0, c) → s.tim.start / nsUnits ≤ c →
    c < s.tickEnd / nsUnits → s.get (R.TIM_TRGCTL_MODE k) = 1 →
    ∃ t, exec (.triggerPulse k) s = .next t ∧ t.tim.trig = SMap.del s.tim.trig k ∧
      t.out = s.out ++ [(.pin ("TRIG" ++ toString k.val), [BitVec.ofNat 8 (s.get (R.TIM_TRGCTL_POL k))] ++
        leBytes 4 (8 * s.get (R.TIM_TRGCTL_WIDTH k)) ++ leBytes 8 c)]) ∧
  (∀ s : State, s.up = true → s.on R.TIM_PPS_EN = true → s.on R.TIM_STAT_VALID = true → s.tim.start % secUnits = 0 →
    exec .ppsOutPulse s = .next (s.send (.pin "PPS_OUT")
      [BitVec.ofNat 8 (s.get R.TIM_PPS_POL), BitVec.ofNat 8 (s.get R.TIM_PPS_WIDTH)])) ∧
  (∀ (s : State) (k : Fin 5) (off : Nat), s.phase = .compute ∨ s.phase = .commit →
    exec (.captureEdge k off) s = .next { s with
      lateIn := s.lateIn ++ [.captureEdge k off]
      tim := { s.tim with marks := s.tim.marks ++ [(s.stamp off 0, s.instant + off * nsU, s.stampGen)] } }) ∧
  (∀ (s : State) (k : Fin 5) (off : Nat) (m : Int × Int × Nat) (l : List (Int × Int × Nat)), s.phase = .capture →
    s.tim.marks = m :: l → k.val < 4 → s.get (R.TIM_TRGCTL_MODE k) = 3 →
    (s.on (R.TIM_CAPST_CAPV k) = true →
      exec (.captureEdge k off) s = .next (({ s with tim := { s.tim with marks := l } }).bump (R.TIM_CAPST_OVR k))) ∧
    (s.on (R.TIM_CAPST_CAPV k) = false →
      exec (.captureEdge k off) s = .next ((({ s with tim := { s.tim with marks := l } }).flag (R.TIM_CAPST_CAPV k)).setAll
        [(R.TIM_CAPS_SEC k, (m.1 / nsU).toNat / 1000000000), (R.TIM_CAPN_NS k, (m.1 / nsU).toNat % 1000000000),
          (R.TIM_CAPST_GEN k, m.2.2)]))) ∧
  (∀ (s : State), s.phase = .commit → s.get R.TIM_CTL_SRC = 2 → s.tim.ppsAt + 24000 ≤ s.now →
    exec .ppsSourceLoss s = .next ({ s with tim := { s.tim with pps := none, ppsAt := s.now } }).sourceLost) ∧
  (∀ s : State, s.up = true → s.tim.start / secUnits < s.tickEnd / secUnits → s.tim.rtcDue = true →
    exec .rtcSync s = .next { s with
      tim := { s.tim with rtcDue := false }, isl := { s.isl with rtcDue := some (s.tickEnd / secUnits % 2 ^ 48) } })

/-- R299-R321, R328: sessions with the head end and with stations.  A message is given to the engine as the datagram `d` that came over
PPP, or is the first of its kind in the receive buffer. -/
def Obligations.SessionCommandsComplete : Prop :=
  (∀ s : State, s.up = true → s.uplinkOn = true → s.uplink = none → s.sup.hello = none → s.get R.CFG_STAT_STEP ≠ 10 →
    exec .helloPhase1Send s = .next (s.helloSend 16000)) ∧
  (∀ (s t : State) (d : Option Dgram) (m : Dgram), s.listening →
    s.supTake d (fun b => decide (supType b = 1 ∧ supPhase b = 1)) = (some m, t) → s.on R.RNG_STAT_OK = true →
    exec (.helloPhase1 d) s = .next (t.takePhase1 m)) ∧
  (∀ (s t : State) (d : Option Dgram) (m : Dgram), s.listening →
    s.supTake d (fun b => decide (supType b = 1 ∧ supPhase b = 2)) = (some m, t) →
    exec (.helloPhase2 d) s = .next (t.takePhase2 m)) ∧
  (∀ (s t : State) (d : Option Dgram) (m : Dgram), s.listening →
    s.supTake d (fun b => decide (supType b = 1 ∧ supPhase b ≠ 1 ∧ supPhase b ≠ 2)) = (some m, t) → (t.supCheck m).1 = none →
    exec (.helloPhase3 d) s = .next (t.supCheck m).2) ∧
  (∀ (s t : State) (d : Option Dgram) (m : Dgram) (k : Nat) (body : List Byte) (x : Sess), s.listening →
    s.supTake d (fun b => decide (supType b = 1 ∧ supPhase b ≠ 1 ∧ supPhase b ≠ 2)) = (some m, t) →
    (t.supCheck m).1 = some (k, body) → (t.supCheck m).2.sessOf k = some x → x.est = false → supType m.bytes = 1 →
    (t.supCheck m).2.srvSess = [] → 0 < s.get R.SUP_SCFG_MAXSESS →
    exec (.helloPhase3 d) s = .next ((((t.supCheck m).2.putSess { x with est := true }).syncSup).ackSend k)) ∧
  (∀ (s : State) (h : Hello), s.phase = .commit → s.sup.hello = some h → s.uplinkOn = true → h.sent + s.sup.wait ≤ s.now →
    s.seenMsg (fun b => decide (supType b = 1 ∧ supPhase b = 2)) = false →
    exec .helloRetryTimeout s = .next (s.helloSend (min 2048000 (2 * s.sup.wait)))) ∧
  (∀ (s : State) (x : Sess), s.phase = .commit →
    s.halfOpen.find? (fun x => decide (x.openAt + 16000 ≤ s.now) && !(s.seenMsg (fun b => decide (supSess b = x.id)))) = some x →
    exec .halfOpenTimeout s = .next (s.endSession x.num)) ∧
  (∀ (s t : State) (d : Option Dgram) (m : Dgram), s.listening → s.supTake d (fun b => decide (supType b = 2)) = (some m, t) →
    exec (.records d) s = .next (t.takeRecords m)) ∧
  (∀ (s : State) (x : Sess), s.up = true → s.uplink = some x → s.sendable.take (x.window - x.recs.length) ≠ [] →
    ∃ y l, l = s.sendable.take (x.window - x.recs.length) ∧ y.recs = x.recs ++ l ∧
      exec .recordsSend s = .next ((((s.touchFwd (l.map Prod.fst)).putSess y).sendRecords x.num (x.ackr + x.recs.length)
        (l.map Prod.snd)).syncSup)) ∧
  (∀ (s : State) (x : Sess), s.phase = .commit → s.uplink = some x → x.recs ≠ [] → x.rtoAt + x.rto ≤ s.now → x.items = [] →
    s.seenMsg (fun b => decide (supType b = 3 ∧ supSess b = x.id)) = false →
    exec .recordsRetransmit s = .next ((s.putSess { x with rto := min 512000 (2 * x.rto), rtoAt := s.now }).resendFrom x.num
      (x.recs.length + 1) x.ackr (x.recs.map Prod.snd))) ∧
  (∀ (s t : State) (d : Option Dgram) (m : Dgram) (k : Nat) (body : List Byte) (x : Sess), s.listening →
    s.supTake d (fun b => decide (supType b = 3)) = (some m, t) → (t.supCheck m).1 = some (k, body) → body.length = 24 →
    leAt body 16 4 ≤ 65535 → leAt body 20 4 = 0 → (t.supCheck m).2.sessOf k = some x → x.up = true →
    exec (.ack d) s = .next ((t.supCheck m).2.takeAck x (supSeq m.bytes) body)) ∧
  (∀ (s t : State) (d : Option Dgram) (m : Dgram), s.listening → s.supTake d (fun b => decide (supType b = 3)) = (some m, t) →
    (t.supCheck m).1 = none → exec (.ack d) s = .next (t.supCheck m).2) ∧
  (∀ (s : State) (x : Sess), s.up = true →
    s.sup.sess.find? (fun x => x.ackDue.isSome && s.mayAck x) = some x →
    exec .ackSend s = .next (s.ackSend x.num)) ∧
  (∀ s : State, s.up = true → exec .ackrAdvance s = .next ((s.srvSess.map Sess.num).foldl State.advanceAckr s)) ∧
  (∀ (s : State) (x : Sess), s.up = true → s.uplink = some x →
    itemsFit (min 32 (64 - x.items.length)) 1180 (s.evItems ++ s.repItems x) ≠ [] →
    ∃ t y, exec .alarmSend s = .next ((t : State).sendItems x.num (x.acka + x.items.length)
        ((itemsFit (min 32 (64 - x.items.length)) 1180 (s.evItems ++ s.repItems x)).map Prod.snd)) ∧
      t.sup.sess = (s.putSess y).sup.sess ∧
      y.items = x.items ++ itemsFit (min 32 (64 - x.items.length)) 1180 (s.evItems ++ s.repItems x)) ∧
  (∀ (s t : State) (d : Option Dgram) (m : Dgram) (k : Nat) (body : List Byte) (x : Sess), s.listening →
    s.supTake d (fun b => decide (supType b = 10)) = (some m, t) → (t.supCheck m).1 = some (k, body) →
    (t.supCheck m).2.sessOf k = some x → 12 ≤ body.length → 1 ≤ leAt body 8 1 → leAt body 8 1 ≤ 32 → leAt body 9 3 = 0 →
    x.est = true → leAt body 0 8 = x.racka →
    exec (.alarmReceived d) s = .next ((t.supCheck m).2.putSess
      (Sess.due { x with racka := x.racka + leAt body 8 1 } (s.now + s.get R.SUP_SCFG_ACKDLY)))) ∧
  (∀ (s t : State) (d : Option Dgram) (m : Dgram), s.listening → s.supTake d (fun b => decide (supType b = 10)) = (some m, t) →
    (t.supCheck m).1 = none → exec (.alarmReceived d) s = .next (t.supCheck m).2) ∧
  (∀ (s : State) (x : Sess), s.phase = .commit →
    s.sup.sess.find? (fun x => x.est && decide (x.rxAt + s.get R.SUP_TIM0_IDLE * ticksPerSec ≤ s.now) &&
      !(s.seenMsg (fun b => decide (supSess b = x.id)))) = some x →
    exec .sessionIdleTimeout s = .next (s.endSession x.num)) ∧
  (∀ (s : State) (x : Sess), s.phase = .commit → s.uplink = some x → s.uplinkOn = true → s.sup.hello = none →
    x.openAt + s.get R.SUP_TIM1_LIFE * 60 * ticksPerSec ≤ s.now → exec .sessionLifetimeExpiry s = .next (s.helloSend 16000)) ∧
  (∀ (s : State) (x : Sess), s.phase = .commit →
    s.sup.sess.find? (fun x => s.mayAck x && decide (x.txAt + s.get R.SUP_TIM0_IDLE * ticksPerSec / 3 ≤ s.now)) = some x →
    exec .keepaliveAck s = .next (s.ackSend x.num))

/-- R322-R328, R367, R520: a request of the head end that arrives over PPP, or that waits as the lowest request identifier while none
runs, is carried out. -/
def Obligations.RequestCommandsComplete : Prop :=
  (∀ (s t : State) (d : Option Dgram) (m : Dgram), s.listening → s.supTake d (fun b => decide (supType b = 4)) = (some m, t) →
    exec (.mgmtRead d) s = .next (t.takeRequest m (fun r => decide (r.ty = 4) && true) (State.runMgmt true))) ∧
  (∀ (s : State) (r : Req) (rest : List Req), s.listening → s.sup.inbox = [] → s.reqRuns = false → s.sup.reqs = r :: rest →
    (r.ty = 4 → exec (.mgmtRead none) s = .next (State.runMgmt true r s)) ∧
    (r.ty = 5 → s.on R.PRT_CTL_DIRHOLD = false → exec (.mgmtWrite none) s = .next (State.runMgmt false r s)) ∧
    (r.ty = 6 → exec (.keyUpdate none) s = .next (State.runKeyUpdate r s)) ∧
    (r.ty = 7 → exec (.fwChunk none) s = .next (State.runChunk r s)) ∧
    (r.ty = 8 → exec (.activate none) s = .next (State.runActivate r s)) ∧
    (r.ty = 9 → s.on R.PRT_CTL_DIRHOLD = false → exec (.downlink none) s = .next (State.runDownlink r s)) ∧
    (r.ty = 11 → leAt r.body 22 1 ≠ 2 → exec (.testOpen none) s = .next (State.runTest r s)) ∧
    (r.ty = 11 → leAt r.body 22 1 = 2 → exec (.testClose none) s = .next (State.runTest r s))) ∧
  (∀ s : State, s.phase = .commit → s.get R.PRT_WIN_LEFT = 0 → s.get R.KEY_LC_STATE = lcField → s.on R.PRT_CTL_OPEN = true →
    exec .perturbationWindowExpiry s = .next ((s.restorePrt.watermarks.decideXoff).barrier 0x15))

/-- R338-R351: the cipher engine. -/
def Obligations.CipherCommandsComplete : Prop :=
  (∀ (s : State) (agent : Fin 32) (page : Fin 256) (regs : List (Nat × BitVec 32)), s.up = true → busPath agent = none →
    agent.val ≠ 0 → s.pageOwner page = agent →
    exec (.cipStart agent page regs) s = .next ((regs.foldl (fun t w => t.portReg page w) s).startJob page) ∧
    exec (.cipZero agent page) s = .next (s.zeroPage page) ∧
    exec (.cipCommit agent page) s = .next (s.settleJob page true) ∧
    exec (.cipAbandon agent page) s = .next (s.settleJob page false)) ∧
  (∀ (s : State) (agent : Fin 32) (page : Fin 256) (regs : List (Nat × BitVec 32)) (p : Path) (op : Fin 5) (c : Instr),
    busPath agent = some p → (op, c) ∈ [((1 : Fin 5), Instr.cipStart agent page regs), (2, .cipZero agent page), (3, .cipCommit agent page),
      (4, .cipAbandon agent page)] →
    (writePassed s p agent (R.CIP_CMD page) 7#32 (BitVec.ofNat 32 op) 7#32 →
      exec c s = .next (s.waiting p agent (R.CIP_CMD page) 7#32 (BitVec.ofNat 32 op))) ∧
    (s.phase = .commit → exec c s = .next { s with lateIn := s.lateIn ++ [c] })) ∧
  (∀ (s : State) (p : Path) (agent : Nat) (page : Fin 256), s.up = true →
    s.committed p agent (R.CIP_CMD page) 7#32 2#32 = s.zeroPage page ∧
    ((s.page page).busy = false →
      s.committed p agent (R.CIP_CMD page) 7#32 1#32 = s.startJob page ∧
      s.committed p agent (R.CIP_CMD page) 7#32 3#32 = s.settleJob page true ∧
      s.committed p agent (R.CIP_CMD page) 7#32 4#32 = s.settleJob page false)) ∧
  (∀ (s : State) (page : Fin 256), s.up = true → (s.page page).busy = true → exec (.jobEnd page) s = .next (s.finishJob page)) ∧
  (∀ (s : State) (slot : Fin 32), s.up = true → (s.slot slot).valid = true → (s.slot slot).mark < s.nextCtr slot + 2 ^ 19 →
    exec (.counterMarkRaise slot) s = .next (s.raiseMark slot))

/-- R365-R374, R380: keys, tamper and entropy. -/
def Obligations.KeyCommandsComplete : Prop :=
  (∀ (s : State) (agent : Fin 32) (page : Fin 256) (purpose : Fin 16) (gen : BitVec 32), s.up = true →
    (agent.val = 0 ∨ (5 ≤ agent.val ∧ agent.val ≠ 14)) →
    exec (.keyLoad agent page purpose gen) s = .next (((s.decideLoad agent page purpose gen.toNat).2.set R.KEY_LDRES_RESULT
      (s.decideLoad agent page purpose gen.toNat).1).wrap R.KEY_LDRES_SEQ)) ∧
  (∀ (s : State) (agent : Fin 32) (page : Fin 256) (purpose : Fin 16) (gen : BitVec 32) (p : Path), busPath agent = some p →
    writePassed s p agent R.KEY_LDCMD 0xFFF#32 (BitVec.ofNat 32 (page.val + 256 * purpose.val)) 0xFFF#32 →
    exec (.keyLoad agent page purpose gen) s = .next
      (s.waiting p agent R.KEY_LDCMD 0xFFF#32 (BitVec.ofNat 32 (page.val + 256 * purpose.val)))) ∧
  (∀ (s : State) (agent page purpose : Nat) (p : Path), s.up = true → page < 256 → purpose < 16 →
    s.stands p agent R.KEY_LDCMD 0xFFF#32 (BitVec.ofNat 32 (page + 256 * purpose)) →
    s.committed p agent R.KEY_LDCMD 0xFFF#32 (BitVec.ofNat 32 (page + 256 * purpose)) = { s with
      sec := { s.sec with loads := s.sec.loads ++ [⟨agent, page, purpose, s.get R.KEY_LDGEN_GEN⟩] } }) ∧
  (∀ (s : State) (x : KeyLoad), s.sec.loads = [x] →
    s.runLoads = (({ s with sec := { s.sec with loads := [] } }).loadKey x.agent x.page x.purpose x.gen).2) ∧
  (∀ (s : State) (src : KupSrc) (m : List Byte), s.phase = .commit → s.sec.kup.accepted = some (src, m) →
    (leAt m 1 1 = 1 → ((s.kupCommit m).kupWrite (leAt m 2 1) s.sec.kup.item).val.rederive = false →
      exec .keyUpdateWrite s = .next (((s.kupCommit m).kupWrite (leAt m 2 1) s.sec.kup.item).kupDone src)) ∧
    (leAt m 1 1 = 2 → exec .keyUpdateTransition s = .next ((if leAt m 2 1 = 4 ∨ (s.kupCommit m).lc = lcField then
      ((s.kupCommit m).kupTransition (leAt m 2 1)).chgKeyLost else (s.kupCommit m).kupTransition (leAt m 2 1)).kupDone src)) ∧
    (leAt m 1 1 = 3 →
      exec .keyUpdateSetauth s = .next (((s.kupCommit m).kupSetauth (leAt m 2 1) (sliceB m 148 32)).kupDone src))) ∧
  (∀ (s : State) (t : Nat), s.phase = .commit → s.sec.kup.transAt = some t → t + 800 ≤ s.now →
    exec .transitionDieReset s = .next (s.draw.2.evLose.dieReset (s.draw.1.toNat % 8))) ∧
  (∀ (s : State) (n : Fin 8), s.isl.dead = false → (s.phase = .capture ∨ s.phase = .held) → s.on (R.TMP_CFG_EN n) = true → s.on (R.TMP_CFG_POL n) = true →
    s.get (R.TMP_CFG_FILT n) ≤ SMap.get zN s.isl.tampRun n + 1 → s.on (R.TMP_CFG_ERASE n) = false →
    exec (.tamperInput n true) s = .next (({ s with isl := { s.isl with
      tampRun := SMap.put zN s.isl.tampRun n (SMap.get zN s.isl.tampRun n + 1)
      erasing := SMap.put zB s.isl.erasing n false } }).flagBit R.TMP_STAT_PIN n)) ∧
  (∀ (s : State) (n : Fin 8), s.isl.dead = false → (s.phase = .capture ∨ s.phase = .held) → s.on (R.TMP_CFG_EN n) = true → s.on (R.TMP_CFG_POL n) = true →
    s.get (R.TMP_CFG_FILT n) ≤ SMap.get zN s.isl.tampRun n + 1 → s.on (R.TMP_CFG_ERASE n) = true →
    SMap.get zB s.isl.erasing n = false →
    exec (.tamperInput n true) s = .next ((({ s with isl := { s.isl with
      tampRun := SMap.put zN s.isl.tampRun n (SMap.get zN s.isl.tampRun n + 1)
      erasing := SMap.put zB s.isl.erasing n true } }).flagBit R.TMP_STAT_PIN n).eraseKeys)) ∧
  (∀ (s : State) (src : Fin 3), s.isl.dead = false → (s.get R.TMP_INT_EN).testBit src = true →
    ¬ (src.val = 1 ∧ s.isl.battery = true) →
    exec (.tamperInternal src) s = .next ((s.flagBit R.TMP_STAT_INT src).eraseKeys)) ∧
  (∀ s : State, s.up = true → ∃ t, exec .entropyFailure s = .next t ∧
    t = ((s.set R.RNG_STAT_OK 0).bump R.RNG_STAT_FAILS).raise 0x0F02 15 2
      [(0, 1, ((s.set R.RNG_STAT_OK 0).bump R.RNG_STAT_FAILS).get R.RNG_STAT_FAILS)]) ∧
  (∀ s : State, s.up = true →
    (s.sec.identWait = false → exec .entropyRecovery s = .next (s.set R.RNG_STAT_OK 1)) ∧
    (s.sec.identWait = true → ∃ t, t = s.set R.RNG_STAT_OK 1 ∧
      exec .entropyRecovery s = .next ({ t with sec := { t.sec with identWait := false } }).makeIdentity))

/-- R386-R398: the safety path and the pilot of the charging outlets. -/
def Obligations.OutletCommandsComplete : Prop :=
  (∀ (s : State) (o : Fin 2) (r : List (Int × Int)) (cp : Nat), s.phase = .capture → s.on (R.CHG_CTL_EN o) = true →
    agreed (r.map (fun x => pilotCode (s.pwmOn o) x.1 x.2)) = some cp →
    exec (.pilotStateChange o r) s = .next (s.pilotChange o cp)) ∧
  (∀ (s : State) (o : Fin 2) (r : List Nat) (pp : Nat), s.listening → s.on (R.CHG_CTL_EN o) = true → s.on (R.CHG_CTL_TETHER o) = false →
    agreed (r.map proxCode) = some pp → pp ≠ 0 → exec (.proximityChange o r) s = .next (s.set (R.CHG_STAT_PP o) pp)) ∧
  (∀ (s : State) (o : Fin 2) (r : List Nat), s.listening → s.on (R.CHG_CTL_EN o) = true → s.on (R.CHG_CTL_TETHER o) = false →
    agreed (r.map proxCode) = some 0 → s.get (R.CHG_STAT_PP o) ≠ 0 →
    exec (.proximityChange o r) s = .next ((s.set (R.CHG_STAT_PP o) 0).endCharge o 1)) ∧
  (∀ (s : State) (o : Fin 2), s.phase = .commit → s.inSession o = true → (s.outlet o).passed = true → s.outState o = 3 →
    s.pilotReady o = true → 60 ≤ s.get (R.CHG_OFFER_OFFER o) → s.get (R.CHG_OFFER_OFFER o) ≤ s.cable o →
    s.on (R.CHG_STAT_SAFE o) = false → s.on (R.CHG_STAT_K o) = false → s.on (R.CHG_CTL_TETHER o) = true →
    (s.outlet o).check = none → s.on (R.CHG_STAT_MIR o) = true → s.on (R.CHG_STAT_VP o) = false →
    exec (.contactorClose o) s = .next (s.closeK o)) ∧
  (∀ (s : State) (o : Fin 2), s.phase = .commit → s.inSession o = true → (s.outlet o).passed = true → s.outState o = 3 →
    s.pilotReady o = true → 60 ≤ s.get (R.CHG_OFFER_OFFER o) → s.get (R.CHG_OFFER_OFFER o) ≤ s.cable o →
    s.on (R.CHG_STAT_SAFE o) = false → s.on (R.CHG_STAT_K o) = false → s.on (R.CHG_CTL_TETHER o) = true →
    (s.outlet o).check = none → s.on (R.CHG_STAT_VP o) = true →
    exec (.contactorClose o) s = .next (s.weld o)) ∧
  (∀ (s : State) (o : Fin 2) (a : Nat), s.phase = .commit → (s.outlet o).check = some (true, a) → a + 1600 ≤ s.now →
    exec (.contactorCheckTimeout o) s = .next (((s.onOutlet o (fun x => { x with check := none })).endCharge o 7).dropK o)) ∧
  (∀ (s : State) (o : Fin 2) (a : Nat), s.phase = .commit → (s.outlet o).check = some (false, a) → a + 1600 ≤ s.now →
    exec (.contactorCheckTimeout o) s = .next (s.weld o)) ∧
  (∀ (s : State) (o : Fin 2) (a : Nat), s.phase = .commit → (s.outlet o).lockAt = some a → a + 8000 ≤ s.now →
    s.on (R.CHG_STAT_LOCKED o) = false →
    exec (.lockTimeout o) s = .next ((s.onOutlet o (fun x => { x with lockAt := none })).endCharge o 14)) ∧
  (∀ (s : State) (o : Fin 2), s.up = true → exec (.residualCurrentTrip o) s = .next (s.tripCheck o)) ∧
  (∀ (s : State) (o : Fin 2), s.up = true → s.on (R.CHG_CTL_EN o) = true → s.inSession o = true → (s.outlet o).passed = false →
    (s.outlet o).test = none → s.on (R.CHG_STAT_K o) = false →
    exec (.selfTest o) s = .next ((s.onOutlet o (fun x => { x with test := some s.now, inj := none })).drive
      (.pin ("RDC" ++ toString o.val ++ "_TEST")) [1#8])) ∧
  (∀ (s : State) (o : Fin 2) (a : Nat) (i : Int), s.up = true → (s.outlet o).test = some a → (s.outlet o).inj = some i →
    (i < 250 ∨ 350 < i) →
    exec (.selfTestResult o) s = .next (((s.onOutlet o (fun x => { x with test := none, inj := none })).endCharge o 8).toOut o 8)) ∧
  (∀ (s : State) (o : Fin 2), s.up = true → s.on (R.CHG_STAT_K o) = true → (s.outlet o).kAt = some s.now →
    exec (.cpComparatorSafeOpen o) s = .next ((((s.undoClose o).set (R.CHG_STAT_SAFE o) 1).onOutlet o
      (fun x => { x with comp := true })).endCharge o 5)) ∧
  (∀ (s : State) (o : Fin 2), s.up = true → s.on (R.CHG_STAT_K o) = true → (s.outlet o).kAt ≠ some s.now →
    ∃ t, t = (((s.dropK o).send (chgPort o "K") [0#8]).set (R.CHG_STAT_SAFE o) 1).onOutlet o (fun x => { x with comp := true }) ∧
      exec (.cpComparatorSafeOpen o) s = .next (if t.outState o = 4 then t.toOut o 3 else t)) ∧
  (∀ (s : State) (o : Fin 2) (x : ChgIn), s.up = true → s.on (R.CHG_CTL_EN o) = true →
    exec (.tripIslandTimer o x) s = .next ((s.rcdValues o x).tripCheck o)) ∧
  (∀ (s : State) (n : Nat), s.up = true → n + 1 = s.now →
    (s.chgSecond = some (n, true) → exec .offerCompute s = .next { [0, 1].foldl State.offerChange ([0, 1, 2].foldl
      (fun (t : State) p => t.set (R.CHG_HEAD_A p) (min 65535 (s.headroom p))) s) with chgSecond := none }) ∧
    (s.chgSecond = some (n, false) →
      exec .offerCompute s = .next { [0, 1].foldl State.offerChange s with chgSecond := none })) ∧
  (∀ (s : State) (o : Fin 2), s.up = true → s.outState o ≠ 3 → s.outState o ≠ 4 → s.get (R.CHG_STAT_CP o) = 1 →
    exec (.pausedContactorRelease o) s = .next (s.dropK o))

/-- R399-R408: authorisation, sessions and accounts. -/
def Obligations.AccountCommandsComplete : Prop :=
  (∀ (s : State) (p : Path) (o : Fin 2) (acct : Fin 4096) (op v : Nat) (c : Instr), (op, v, c) ∈ [(1, acct.val, Instr.authStart p o acct),
      (2, 0, .authStop p o), (3, 0, .authClear p o), (4, 0, .authDisable p o), (5, 0, .authEnable p o)] →
    (writePassed s p (agentOf p 0) (R.CHG_AUTH o) 0xFFFF#32 (BitVec.ofNat 32 (v + 4096 * op)) 0xFFFF#32 →
      exec c s = .next (s.waiting p (agentOf p 0) (R.CHG_AUTH o) 0xFFFF#32 (BitVec.ofNat 32 (v + 4096 * op)))) ∧
    (s.up = true → s.committed p (agentOf p 0) (R.CHG_AUTH o) 0xFFFF#32 (BitVec.ofNat 32 (v + 4096 * op)) = s.authOp o op v)) ∧
  (∀ (s : State) (o : Fin 2), s.phase = .commit → s.outState o = 3 → s.inSession o = true →
    (s.outlet o).inAuth + s.get (R.CHG_LIM_AUTHTO o) * ticksPerSec ≤ s.now →
    exec (.authorisationTimeout o) s = .next (s.endCharge o 11)) ∧
  (∀ (s : State) (a : Acct), s.listening → s.task0A = true → secOf s.tim.start ≠ s.chg.limSec → s.inSession 0 = true →
    s.inSession 1 = false → SMap.at? s.chg.accounts (s.get (R.CHG_SACC_ACCT 0)) = some a →
    exec .creditLimitWrite s = .next ((State.fieldWrite { s with chg := { s.chg with limSec := secOf s.tim.start } } .fw (R.CHG_SLIM_LIM 0)
      (creditLimit a.bal (s.outlet 0).table ((s.now - (s.outlet 0).authAt) / ticksPerSec))))) ∧
  (∀ (s t : State) (o : Fin 2) (e : EndedSession) (i : Nat), s.up = true → s.task0A = true →
    t = s.payOwed.readCandidates (s.get R.CHG_MTR_METER) → (t.outlet o).ended = some e →
    t.dirFind (t.get R.CHG_MTR_METER) = some i → t.on (R.CHG_STAT_PEND o) = true →
    e.tick ≠ t.now → exec (.sessionRecord o) s = .next (t.writeSession o i e)) ∧
  (∀ (s : State) (a0 a1 a2 a3 n : Nat), s.up = true → s.task0A = true → n < s.now →
    (s.chg.cmd = some (1, a0, a1, a2, a3, n) → s.chg.restored = false →
      exec .setacc s = .next (s.acctDone acNotable)) ∧
    (s.chg.cmd = some (1, a0, a1, a2, a3, n) → s.chg.restored = true → a0 < 4096 → bitsOf a3 16 4 = 4 → bitsOf a3 20 4 = 0 → bitsOf a3 28 4 = 0 →
      SMap.at? s.chg.accounts a0 = none →
      ∃ r, exec .setacc s = .next (r.2.acctDone r.1) ∧
        r = s.acctChange a0 (some ⟨sliceB (leBytes 4 a1 ++ leBytes 4 a2 ++ leBytes 2 (a3 % 65536)) 0 4, bitsOf a3 24 4, false, 0, 0⟩)) ∧
    (∀ a, s.chg.restored = true → a0 < 4096 → SMap.at? s.chg.accounts a0 = some a →
      (s.chg.cmd = some (2, a0, a1, a2, a3, n) → a.xfer < a2 →
        ∃ r, exec .accountCredit s = .next (r.2.acctDone r.1) ∧
          r = s.acctChange a0 (some { a with bal := bal64 (a.bal + sgn 32 a1), xfer := a2 })) ∧
      (s.chg.cmd = some (3, a0, a1, a2, a3, n) → a1 < 2 →
        ∃ r, exec .accountBlock s = .next (r.2.acctDone r.1) ∧
          r = s.acctChange a0 (some { a with blocked := decide (a1 = 1) })) ∧
      (s.chg.cmd = some (4, a0, a1, a2, a3, n) →
        exec .accountRead s = .next ((s.setAll [(R.CHG_ADAT_DATA 0, unsgn 64 a.bal % 2 ^ 32),
          (R.CHG_ADAT_DATA 1, unsgn 64 a.bal / 2 ^ 32), (R.CHG_ADAT_DATA 2, a.xfer),
          (R.CHG_ADAT_DATA 3, 1 + 2 * b2n a.blocked + 256 * a.tariff)]).acctDone acDone)) ∧
      (s.chg.cmd = some (6, a0, a1, a2, a3, n) → s.acctOpen a0 = false →
        ∃ r, exec .accountRemove s = .next (r.2.acctDone r.1) ∧ r = s.acctChange a0 none)) ∧
    (s.chg.cmd = some (5, a0, a1, a2, a3, n) → bitsOf a0 4 12 = 0 →
      exec .tariff s = .next (({ s with chg := { s.chg with
        tariffs := SMap.put tariff0 s.chg.tariffs (a0 % 16) ⟨a1, a2, a3, a0 / 65536⟩ } }).acctDone acDone))) ∧
  (∀ (s t : State) (p : Nat), s.up = true → s.chg.restored = false → s.task0A = true → s.on R.FTL_STAT_RESTORED = true →
    s.rcptLoad = (some p, t) → exec .accountRebuild s = .next (t.rebuildFrom p))

/-- R413-R421, R434, R440: the NAND array and its translation. -/
def Obligations.StorageCommandsComplete : Prop :=
  (∀ (s : State) (k dst : Nat) (ok : Bool) (p : Prog), s.phase = .capture → s.ftl.progs[k]? = some p → s.regionOpen p.region = true →
    exec (.nandProgramDone k dst ok) s = .next (s.endProgram 0 k dst ok)) ∧
  (∀ (s : State) (block : Nat), s.phase = .capture → s.ftl.erasing.contains block = true → s.ftl.format = none →
    s.eraseWaits block = false →
    exec (.nandEraseDone block true) s = .next ({ s with
      ftl := { s.ftl with erasing := s.ftl.erasing.erase block, dest := s.ftl.dest.erase block }
      nand := { s.nand with
        units := s.nand.units.filter (fun e => decide (s.blockOf e.1 ≠ block))
        erases := SMap.put zN s.nand.erases block (s.eraseCount block + 1) } }).wearLevel ∧
    exec (.nandEraseDone block false) s = .next ((({ s with
      ftl := { s.ftl with erasing := s.ftl.erasing.erase block } }).bump R.NND_CNT_EFAIL).retire block)) ∧
  (∀ (s : State) (block n : Nat) (ok : Bool), s.phase = .capture → s.ftl.erasing.contains block = true → s.ftl.format = some n →
    exec (.nandEraseDone block ok) s = .next (s.formatErase n block ok)) ∧
  (∀ (s : State) (lun : Nat) (corr : List Nat) (bad : Bool), s.phase = .capture → s.ftl.mounted = true → (s.mapped lun).isSome = true →
    exec (.unitRead lun corr bad) s = .next { (s.readUnit lun corr bad).2 with ftl := { (s.readUnit lun corr bad).2.ftl with
      rdLost := (s.readUnit lun corr bad).1.isNone, rdData := unitBytes ((s.readUnit lun corr bad).1.getD []) } }) ∧
  (∀ (s t : State) (b : Nat) (moves : List UnitMove), s.up = true → s.ftl.mounted = true → s.isl.warned = false → t = s.readMap →
    t.mayCollect b = true →
    ((t.moveUnits b (t.validIn b) moves).1 = true →
      exec (.garbageCollection (some b) moves) s = .next ((t.moveUnits b (t.validIn b) moves).2.endCollect b)) ∧
    ((t.moveUnits b (t.validIn b) moves).1 = false →
      exec (.garbageCollection (some b) moves) s = .next (t.moveUnits b (t.validIn b) moves).2)) ∧
  (∀ (s : State) (moves : List UnitMove), s.up = true → s.ftl.mounted = true → s.storWrites = true →
    s.isl.warned = false → s.canFree = false → (s.ftl.sys.map SysRec.spare).getD 0 = 0 → s.ftl.bufs ≠ [] →
    exec (.garbageCollection none moves) s = .next s.writeRefused) ∧
  (∀ (s : State) (dst : Nat) (ok : Bool), s.up = true → 8 ≤ s.ftl.dirty.length → s.ftl.mounted = true →
    exec (.mapSegmentWrite dst ok) s = .next (s.writeSegment 0 dst ok)) ∧
  (∀ (s : State) (reached fall time a : Nat), s.up = true → s.ftl.hold.start = some a → s.isl.warned = false →
    s.ftl.hold.meas = none → reached ≤ s.get R.DRY_CFG_CHGTO * ticksPerSec → a + reached + 80 + time / 125 ≤ s.now →
    exec (.holdupCheck reached fall time) s = .next (s.holdMeasure fall time)) ∧
  (∀ (s : State) (a : Nat), s.phase = .commit → s.ftl.hold.start = some a → s.ftl.hold.meas = none →
    a + s.get R.DRY_CFG_CHGTO * ticksPerSec ≤ s.now → exec .holdupChargeTimeout s = .next (s.holdDecide false)) ∧
  (∀ (s : State) (m : Nat × Nat), s.up = true → s.ftl.hold.meas = some m → (s.ftl.array = true ∨ s.on R.FTL_CTL_EN = false) → ∃ t, exec .holdupDecision s = .next t ∧
    t.ftl.hold.decided = some s.now ∧ t.ftl.hold.start = none) ∧
  (∀ (s : State) (pages : List ParamPage) (bad : List Nat), s.up = true → s.on R.FTL_CTL_EN = true → s.stor = 0 →
    s.ftl.mounted = false → s.ftl.format = none → s.isl.warned = false → Regs.wf s.regs = true →
    (s.ftl.array = false → arrayAccept (s.get R.NND_CTL_CEMASK) pages = none →
      exec (.mount pages bad) s = .next (s.sendStart.set R.FTL_STAT_STATE 5)) ∧
    (∀ g, s.ftl.array = false → arrayAccept (s.get R.NND_CTL_CEMASK) pages = some g →
      (s.ftl.hold.decided = none → exec (.mount pages bad) s = .next (s.takeGeo g bad)) ∧
      (s.ftl.hold.decided ≠ none → exec (.mount pages bad) s = .next (s.takeGeo g bad).mountRun)) ∧
    (s.ftl.array = true → s.ftl.hold.decided ≠ none → exec (.mount pages bad) s = .next s.mountRun)) ∧
  (∀ (s : State) (temps : List Int), s.up = true → s.ftl.histAt + 3600 * ticksPerSec ≤ s.now →
    ∃ t, exec (.temperatureHistogram temps) s = .next t ∧ t.ftl.histAt = s.now)

/-- R427-R432, R505, R436, R439: the ledger, its fences and the drydown. -/
def Obligations.LedgerCommandsComplete : Prop :=
  (∀ s : State, s.up = true → s.get R.CFG_STAT_STEP = 9 → s.storReady = true → s.isl.warned = false → s.upd.lanes = false →
    exec .ledgerRestore s = .next s.restoreLedger) ∧
  (∀ (s : State) (b : LBuf), s.up = true → s.storWrites = true → s.isl.warned = false →
    s.ftl.bufs.find? (fun b => s.bufDue b) = some b →
    exec .ledgerUnitFlush s = .next { s with ftl := { s.ftl with
      bufs := s.ftl.bufs.map (fun c => if c.lsn = b.lsn then { c with busy := true } else c)
      progs := s.ftl.progs ++ [{ what := .ledger b.lsn, lun := b.lun, region := 4, data := ledgerImage b.lsn b.ents }] } }) ∧
  (∀ s : State, s.up = true → exec (.fenceIssue none) s = .next s.issueFence) ∧
  (∀ (s : State) (p : Path), fieldPassed s p R.FTL_FENCE_ISSUE 1 →
    exec (.fenceIssue (some p)) s = .next (s.fieldWaiting p R.FTL_FENCE_ISSUE 1)) ∧
  (∀ (s : State) (p : Path), s.up = true → s.fieldCommitted p R.FTL_FENCE_ISSUE 1 = s.fenceBy p) ∧
  (∀ (s : State) (f : Nat × Nat) (rest : List (Nat × Nat)), s.up = true → s.ftl.fences = f :: rest → s.isl.warned = false →
    s.storWrites = true → s.durableTo f.2 = true →
    exec .fenceComplete s = .next { s.set R.FTL_FDONE_NUM f.1 with ftl := { s.ftl with fences := rest } }) ∧
  (∀ (s : State) (f : Nat × Nat) (rest : List (Nat × Nat)), s.up = true → s.ftl.fences = f :: rest → s.isl.warned = false →
    s.storWrites = false →
    exec .fenceComplete s = .next s.failFences) ∧
  (∀ s : State, s.up = true → s.ftl.mounted = true → s.storWrites = true → s.on R.FTL_STAT_HOLD = false →
    s.ledFree ≤ s.get R.FTL_HOLD_HOLDU → exec .ledgerHold s = .next (s.set R.FTL_STAT_HOLD 1).clearLedgerLanes) ∧
  (∀ s : State, s.up = true → s.on R.FTL_STAT_HOLD = true → s.storWrites = true → 2 * s.get R.FTL_HOLD_HOLDU ≤ s.ledFree →
    exec .ledgerHoldEnd s = .next (s.set R.FTL_STAT_HOLD 0).restoreLanes) ∧
  (∀ (s : State) (u : LUnit) (rest : List LUnit), s.up = true → s.ftl.units = u :: rest → s.storWrites = true →
    s.ftl.await.any (fun l => decide (l < u.lsn + u.used)) = false → ∃ t, t = s.readLuns [u.lun] ∧
    (t.mustRewrite u (((t.unitEntries u.lun).map Prod.snd).getD []) = [] →
      exec .ledgerUnitRelease s = .next { t.moveMap u.lun 0xFFFFFFFF with ftl := { (t.moveMap u.lun 0xFFFFFFFF).ftl with
        units := rest, again := (t.moveMap u.lun 0xFFFFFFFF).ftl.again.filter (fun l => decide (u.lsn + u.used ≤ l)) } }) ∧
    (∀ m, t.mustRewrite u (((t.unitEntries u.lun).map Prod.snd).getD []) = m → m ≠ [] →
      exec .ledgerUnitRelease s = .next (m.foldl (State.rewriteEntry u) t))) ∧
  (∀ (s : State) (tries : List (Nat × Bool)), s.up = true → s.storWrites = true → s.on R.FTL_STAT_RESTORED = true →
    s.on R.RPL_STAT_ZEROING = false → s.isl.warned = false → s.bufferFree = true →
    (s.ftl.copy = none → s.ckptDue = true → exec (.checkpoint tries) s = .next (s.ckptStart.ckptWindow tries)) ∧
    (s.ftl.copy.isSome = true → exec (.checkpoint tries) s = .next (s.ckptWindow tries))) ∧
  (∀ (s : State) (tries : List (Nat × Bool)), s.up = true → s.dryReady = true → s.isl.dry.stage = 1 →
    exec (.drydown tries) s = .next (tries.foldl State.dryOne s.dryBegin)) ∧
  (∀ (s : State) (tries : List (Nat × Bool)), s.up = true → s.dryReady = true → s.isl.dry.stage = 1 → s.isl.warnAt + 1 < s.now →
    exec (.drydownTakeover tries) s = .next (tries.foldl State.dryOne ({ s with ftl := { s.ftl with
      progs := [], fences := [], victims := [], erasing := [], rdLost := false, rdData := [], copy := none } }).dryBegin)) ∧
  (∀ (s : State) (us : Nat), s.up = true → s.isl.dry.stage = 2 → s.isl.dry.items = [] → s.ftl.dirty = [] →
    ∃ t, exec (.drydownDone us) s = .next t ∧ t.isl.halted = true ∧ t.phase = .held ∧ t.mem = []) ∧
  (∀ s : State, s.up = true → s.isl.dry.stage = 2 → ∃ t, exec .drydownShort s = .next t ∧ t.isl.halted = true ∧ t.phase = .held ∧
    t.mem = []) ∧
  (∀ (s : State) (p : Path), fieldPassed s p R.FTL_CMD_OP 1 → exec (.format p) s = .next (s.fieldWaiting p R.FTL_CMD_OP 1)) ∧
  (∀ (s : State) (p : Path), s.up = true → s.fieldStands p R.FTL_CMD_OP 1 → s.fieldCommitted p R.FTL_CMD_OP 1 = s.formatRun)

/-- R447-R460: the event recorder. -/
def Obligations.RecorderCommandsComplete : Prop :=
  (∀ (s : State) (k : Nat) (e : Ev), s.up = true → s.nextRaised k false = some e →
    exec (.eventRecord k) s = .next ((s.dropRaised k).evTake e)) ∧
  (∀ (s : State) (k : Nat) (e : Ev), s.phase = .commit → s.nextRaised k true = some e → e.tick ≤ s.now →
    s.raised.all (fun x => decide (x.code = 0x1103 ∨ e.tick < x.tick)) = true →
    exec (.barrier none k) s = .next ((s.dropRaised k).evTake e)) ∧
  (∀ (s : State) (n : Fin 22) (k : Nat), s.up = true → n.val ≠ 0 →
    exec (.barrier (some n) k) s = .next (s.raise 0x1103 n 0 [(0, 4, s.evTick)])) ∧
  (∀ (s : State) (p : Path), fieldPassed s p R.EVR_CMD_OP 2 → exec (.flush p) s = .next (s.fieldWaiting p R.EVR_CMD_OP 2)) ∧
  (∀ (s : State) (p : Path), fieldPassed s p R.EVR_CMD_OP 3 → exec (.read p) s = .next (s.fieldWaiting p R.EVR_CMD_OP 3)) ∧
  (∀ (s : State) (p : Path), fieldPassed s p R.EVR_CMD_OP 4 → exec (.clear p) s = .next (s.fieldWaiting p R.EVR_CMD_OP 4)) ∧
  (∀ (s : State) (p : Path), s.up = true → s.on R.EVR_CMD_BUSY = false →
    (s.fieldStands p R.EVR_CMD_OP 2 → s.evMode = 1 → s.evOpenUnit.isSome = true →
      s.fieldCommitted p R.EVR_CMD_OP 2 = { s with evr := { s.evr with flush := true } }) ∧
    (s.fieldStands p R.EVR_CMD_OP 2 → s.evMode ≠ 1 ∨ s.evOpenUnit = none → s.fieldCommitted p R.EVR_CMD_OP 2 = s) ∧
    (s.fieldStands p R.EVR_CMD_OP 3 → s.fieldCommitted p R.EVR_CMD_OP 3 =
      { s.setAll [(R.EVR_CMD_BUSY, 1), (R.EVR_RDSTAT_DONE, 0)] with evr := { s.evr with cmd := some (p, 3, 0) } }) ∧
    (s.fieldStands p R.EVR_CMD_OP 4 → s.fieldCommitted p R.EVR_CMD_OP 4 = { s.set R.EVR_CMD_BUSY 1 with evr := { s.evr with cmd := some (p, 4, 0) } })) ∧
  (∀ (s : State) (p : Path) (seq : Nat), s.evr.cmd = some (p, 3, seq) →
    s.evCommit = ({ s.set R.EVR_CMD_BUSY 0 with evr := { s.evr with cmd := none } }).evRead seq) ∧
  (∀ (s : State) (p : Path) (seq : Nat), s.evr.cmd = some (p, 4, seq) →
    s.evCommit = ({ s.set R.EVR_CMD_BUSY 0 with evr := { s.evr with cmd := none } }).evClear p seq) ∧
  (∀ (s : State) (u : Nat), s.up = true → s.ftl.mounted = true → s.regionOpen 1 = true → s.isl.warned = false → s.bufferFree = true →
    s.evTurns.find? (fun u => s.evDue u) = some u → exec .eventUnitProgram s = .next (s.evProgram u))

/-- R472, R481, R495, R511: updates, the fixative and the SVC port. -/
def Obligations.UpdateCommandsComplete : Prop :=
  (∀ (s : State) (p : Path), fieldPassed s p R.UPD_CONFIRM_CONFIRM 1 →
    exec (.confirm p) s = .next (s.fieldWaiting p R.UPD_CONFIRM_CONFIRM 1)) ∧
  (∀ (s : State) (p : Path), s.up = true → s.fieldCommitted p R.UPD_CONFIRM_CONFIRM 1 = s.confirm) ∧
  (∀ s : State, s.phase = .commit → s.on R.ISL_TRIAL_RUN = true → s.get R.ISL_TRIAL_LEFT = 0 → exec .trialTimerExpiry s = .next s.wdExpire) ∧
  (∀ s : State, s.up = true → s.locked = true → s.nor.record.trial = false → s.nor.fixative = none →
    exec .fixativeWrite s = .next s.writeFixative) ∧
  (∀ (s : State) (bytes : List Byte), s.listening → s.svc.vbus = true → 8 ≤ bytes.length → leAt bytes 1 1 = 0 →
    leAt bytes 6 2 = bytes.length - 8 → bytes.length ≤ 1240 → exec (.svcMessage bytes) s = .next (s.svcTake bytes)) ∧
  (∀ (s : State) (up : Bool),
    (s.phase = .capture → exec (.svcVbusChange up) s = .next
      (({ s with svc := { s.svc with vbus := up } }).drive (.pin "SVC_DP_PULLUP") [if up then 1#8 else 0#8])) ∧
    (s.phase = .held → exec (.svcVbusChange up) s = .next
      (({ s with svc := { s.svc with vbus := up } }).send (.pin "SVC_DP_PULLUP") [if up then 1#8 else 0#8])))

/-- R499-R511: the always-on island. -/
def Obligations.IslandCommandsComplete : Prop :=
  (∀ s : State, s.isl.dead = false → s.isl.battery = false → s.isl.warned = false → s.up = true →
    exec .powerFailWarning s = .next
      ({ s.set R.ISL_STAT_PFW 1 with isl := { s.isl with warned := true, warnAt := s.now } }).warnRunning) ∧
  (∀ s : State, s.isl.dead = false → s.isl.battery = false → s.isl.warned = false → s.phase = .held →
    exec .powerFailWarning s = .next
      { s.set R.ISL_STAT_PFW 1 with isl := { s.isl with warned := true, warnAt := s.now, halted := true } }) ∧
  (∀ s : State, s.isl.dead = false → s.isl.battery = false → ∃ t, exec .mainSuppliesLost s = .next t ∧ t.phase = .held ∧ t.mem = [] ∧
    t.isl.battery = true ∧ t.isl.halted = false) ∧
  (∀ s : State, s.isl.dead = false → s.isl.halted = true → s.isl.battery = false →
    exec .warningRecovery s = .next { s.set R.ISL_LOSS_KIND 3 with isl := { s.isl with halted := false, cause := 0 } }) ∧
  (∀ (s : State) (mv : Fin 4096), s.isl.dead = false → mv.val < 2450 →
    exec (.vbatMeasurement mv) s = .next ((s.set R.BAT_STAT_VBAT mv).set R.BAT_STAT_ABSENT 1)) ∧
  (∀ (s : State) (mv : Fin 4096), s.isl.dead = false → 2450 ≤ mv.val →
    exec (.vbatMeasurement mv) s = .next (((s.set R.BAT_STAT_VBAT mv).set R.BAT_STAT_ABSENT 0).set R.BAT_STAT_LOW
      (b2n (decide (mv.val < 2900))))) ∧
  (∀ (s : State) (p : Path) (sec : BitVec 32), fieldPassed s p R.RTC_SETLO_SEC sec.toNat →
    exec (.rtcSet p sec) s = .next (s.fieldWaiting p R.RTC_SETLO_SEC sec.toNat)) ∧
  (∀ (s : State) (p : Path) (sec : BitVec 32), s.up = true → s.fieldCommitted p R.RTC_SETLO_SEC sec.toNat =
    { s with isl := { s.isl with rtcDue := some (s.get R.RTC_SETHI_SEC * 2 ^ 32 + sec.toNat) } }) ∧
  (∀ s : State, s.isl.dead = false → exec .crystalStop s = .next
    { s.setAll [(R.RTC_STAT_VALID, 0), (R.RTC_STAT_XSTOP, 1)] with isl := { s.isl with stopped := true } }) ∧
  (∀ (s : State) (p : Path) (key : Fin 256), fieldPassed s p R.ISL_WDKICK_KEY key →
    exec (.watchdogKick p key) s = .next (s.fieldWaiting p R.ISL_WDKICK_KEY key)) ∧
  (∀ (s : State) (p : Path) (key : Fin 256), s.up = true → s.fieldCommitted p R.ISL_WDKICK_KEY key = s.wdKick key) ∧
  (∀ s : State, s.phase = .commit → s.isl.wdAt + s.wdTicks ≤ s.now → exec .watchdogExpiry s = .next s.wdExpire) ∧
  (∀ s : State, s.isl.dead = false → s.isl.battery = true →
    exec .islandSupplyLost s = .next { s.set R.BAT_STAT_ABSENT 1 with isl := { s.isl with dead := true } }) ∧
  (∀ s : State, s.isl.dead = false → s.isl.battery = false → exec .islandSupplyLost s = .next (s.set R.BAT_STAT_ABSENT 1))

/-- The value of PRT_SKEW that SKEW_START writes. -/
def skewWord (amount : BitVec 16) (step : Fin 16) : Word := BitVec.ofNat 32 (amount.toNat + step.val * 65536)

/-- The value of PRT_NAND that NAND_FAILURE_ARM writes. -/
def nandWord (kind : Fin 4) : Word := BitVec.ofNat 32 (1 + 2 * kind.val)

/-- The value of PRT_TAG that TAG_FAILURE_ARM writes. -/
def tagWord (tgt : Bool) (page : Fin 256) (q : Fin 32) : Word := BitVec.ofNat 32 (1 + 2 * b2n tgt + 256 * page.val + 65536 * q.val)

/-- The value of PRT_LOOP that LOOPBACK_SET writes. -/
def loopWord (plc : Fin 4) (eth : Fin 8) (ser : Fin 256) : Word := BitVec.ofNat 32 (plc.val + 16 * eth.val + 256 * ser.val)

/-- R517-R527: the test interface. -/
def Obligations.TestCommandsComplete : Prop :=
  (∀ (s : State) (p : Path) (amount : BitVec 16) (step : Fin 16),
    writePassed s p (agentOf p 0) R.PRT_SKEW 0xFFFFF#32 (skewWord amount step) 0xFFFFF#32 →
    exec (.skewStart p amount step) s = .next (s.waiting p (agentOf p 0) R.PRT_SKEW 0xFFFFF#32 (skewWord amount step))) ∧
  (∀ (s : State) (p : Path) (v : Word), s.up = true → s.stands p (agentOf p 0) R.PRT_SKEW 0xFFFFF#32 v →
    s.committed p (agentOf p 0) R.PRT_SKEW 0xFFFFF#32 v = s.writeSkew v 0xFFFFF#32) ∧
  (∀ (s : State) (p : Path) (kind : Fin 4), writePassed s p (agentOf p 0) R.PRT_NAND 7#32 (nandWord kind) 7#32 →
    exec (.nandFailureArm p kind) s = .next (s.waiting p (agentOf p 0) R.PRT_NAND 7#32 (nandWord kind))) ∧
  (∀ (s : State) (p : Path) (v : Word), s.up = true → s.stands p (agentOf p 0) R.PRT_NAND 7#32 v →
    s.committed p (agentOf p 0) R.PRT_NAND 7#32 v = s.writeNand v 7#32) ∧
  (∀ (s : State) (p : Path) (tgt : Bool) (page : Fin 256) (q : Fin 32),
    writePassed s p (agentOf p 0) R.PRT_TAG 0x1FFF03#32 (tagWord tgt page q) 0x1FFF03#32 →
    exec (.tagFailureArm p tgt page q) s = .next (s.waiting p (agentOf p 0) R.PRT_TAG 0x1FFF03#32 (tagWord tgt page q))) ∧
  (∀ (s : State) (p : Path) (v : Word), s.up = true → s.stands p (agentOf p 0) R.PRT_TAG 0x1FFF03#32 v →
    s.committed p (agentOf p 0) R.PRT_TAG 0x1FFF03#32 v = s.writeTag v 0x1FFF03#32) ∧
  (∀ (s : State) (p : Path) (ns : BitVec 31), fieldPassed s p R.PRT_STEPNS_NS ns.toNat →
    exec (.testStepRequest p ns) s = .next (s.requestStep 3 (sgn 31 ns.toNat))) ∧
  (∀ (s : State) (p : Path) (plc : Fin 4) (eth : Fin 8) (ser : Fin 256),
    writePassed s p (agentOf p 0) R.PRT_LOOP 0xFF73#32 (loopWord plc eth ser) 0xFF73#32 →
    exec (.loopbackSet p plc eth ser) s = .next (s.waiting p (agentOf p 0) R.PRT_LOOP 0xFF73#32 (loopWord plc eth ser))) ∧
  (∀ (s : State) (p : Path) (v : Word), s.up = true → s.stands p (agentOf p 0) R.PRT_LOOP 0xFF73#32 v →
    s.committed p (agentOf p 0) R.PRT_LOOP 0xFF73#32 v = s.applyLoop v 0xFF73#32) ∧
  (∀ (s : State) (p : Path) (v : Bool), fieldPassed s p R.PRT_CTL_DIRHOLD (b2n v) →
    exec (.dirhold p v) s = .next (s.fieldWaiting p R.PRT_CTL_DIRHOLD (b2n v))) ∧
  (∀ (s : State) (p : Path) (v : Bool), s.up = true → s.fieldCommitted p R.PRT_CTL_DIRHOLD (b2n v) =
    s.set R.PRT_CTL_DIRHOLD (b2n v)) ∧
  (∀ (s : State) (bit : Bool), s.isl.dead = false → s.isl.battery = false → exec (.bypass bit) s = .next
    (({ s with jtag := { s.jtag with ir := 0, dr := b2n bit } }).send (.pin "TDO") [0#8])) ∧
  (∀ s : State, s.isl.dead = false → s.isl.battery = false → exec .idcode s = .next
    (({ s with jtag := { s.jtag with ir := 1, dr := 0x196401D5 } }).send (.pin "TDO") [0xD5#8, 0x01#8, 0x64#8, 0x19#8])) ∧
  (∀ (s : State) (cells : List Byte), s.isl.dead = false → s.isl.battery = false →
    ∃ t, exec (.samplePreload cells) s = .next t ∧ t.jtag.ir = 2 ∧ t.jtag.cells = cells ∧ t.regs = s.regs ∧ t.mem = s.mem) ∧
  (∀ (s : State) (cells : List Byte), s.isl.dead = false → s.isl.battery = false → s.lc = lcTest →
    ∃ t, exec (.extest cells) s = .next t ∧ t.jtag.ir = 3 ∧ t.jtag.cells = cells ∧ t.regs = s.regs ∧ t.mem = s.mem) ∧
  (∀ (s : State) (a : Nat) (v : Word), s.isl.dead = false → s.isl.battery = false → s.listening → s.pathOpen .t = true →
    exec (.testacc a (some v)) s = .next { s.testWrite a v with jtag := { (s.testWrite a v).jtag with ir := 4 } }) ∧
  (∀ (s : State) (a : Nat), s.isl.dead = false → s.isl.battery = false → s.listening → s.pathOpen .t = true →
    exec (.testacc a none) s = .next (({ (s.testRead a).2 with
      jtag := { (s.testRead a).2.jtag with ir := 4, rd := (s.testRead a).1 } }).send (.pin "TDO") (leBytes 4 (s.testRead a).1.toNat)))

/-! ### What a step is, and what the device is after reset -/

/-- A step carries out the command at the front of the queue with the rest of the queue behind it; with no command waiting the device
idles, which is the model's choice (assumption 2). -/
def Obligations.StepRunsFrontCommand : Prop :=
  (∀ (s : State) (c : Instr) (rest : List Instr), step { s with pending := c :: rest } = exec c { s with pending := rest }) ∧
  (∀ s : State, s.pending = [] → step s = .next s)

/-- R10, R23, R24, R39: after an island power-on reset die reset is asserted, every register holds its Reset value (0 where the manual
gives none, assumption 7), SRAM is zero-filled, each
bank is ON with the owner of R24 and no command waits. -/
def Obligations.ResetState : Prop :=
  State.reset.phase = .held ∧ State.reset.pending = [] ∧ State.reset.now = 0 ∧
  (∀ a, State.reset.word a = resetWord a) ∧ (∀ a, State.reset.shownWord a = resetWord a) ∧ (∀ a, State.reset.byte a = 0#8) ∧
  (∀ b : Fin 48, State.reset.get (R.BNK_CTL_PWR b) = 0 ∧ State.reset.owner b =
    (if b.val < 8 then b.val / 2 + 1 else if b.val < 32 then 5 else if b.val < 40 then 6 else if b.val < 44 then 8
     else if b.val < 45 then 9 else 10))

/-- R1: ISL_ID reads 9640_0A01h after reset and no operation that writes a register changes it. -/
def Obligations.DeviceId : Prop :=
  State.reset.word R.ISL_ID = 0x96400A01#32 ∧
  (∀ (s : State) (w : Word), s.setWord R.ISL_ID w = s) ∧
  (∀ (s : State) (a : Nat) (w : Word), Regs.wf s.regs = true → (s.setWord a w).word R.ISL_ID = s.word R.ISL_ID) ∧
  (∀ (s : State) (p : Path) (cpu : Fin 4) (mask value : Word) (narrow : Bool), Regs.wf s.regs = true → ∃ t,
    exec (.registerWrite p cpu R.ISL_ID mask value narrow) s = .next t ∧ t.word R.ISL_ID = s.word R.ISL_ID)

/-! ### Banks, owners and lines -/

/-- What one access on port 0 leaves: everything but the data returned. -/
def returns (s : State) (bs : List Byte) : State := { s with bnk := { s.bnk with rd0 := bs, rd1 := [] } }

/-- R27: an access by an agent that does not own the bank reads zeros and writes nothing; it counts in BNK_FAULT, is captured when it is the
first since VALID was cleared, and raises an isolation fault event.  Owner 00h refuses every agent. -/
def Obligations.IsolationFault : Prop :=
  ∀ (s : State) (x : Access), s.up = true → Sys2Proof.Machine.Access.inSram x = true → s.bankReady (bankOf x.addr) = true →
    (s.owner (bankOf x.addr) ≠ x.agent ∨ s.owner (bankOf x.addr) = 0) → Regs.wf s.regs = true → ∃ t, exec (.bankAccess x none) s = .next t ∧
      t.mem = s.mem ∧ t.bnk.damage = s.bnk.damage ∧
      t.bnk.rd0 = (if x.wr = none then List.replicate x.len 0#8 else []) ∧
      (t.get R.BNK_FAULT_COUNT = satAdd R.BNK_FAULT_COUNT.w (s.get R.BNK_FAULT_COUNT) 1 ∧
        t.get R.BNK_FAULT_VALID = 1 ∧
        (s.get R.BNK_FAULT_VALID = 0 → t.get R.BNK_FAULT_BANK = bankOf x.addr ∧ t.get R.BNK_FAULT_AGENT = x.agent % 32) ∧
        (s.get R.BNK_FAULT_VALID ≠ 0 → t.get R.BNK_FAULT_BANK = s.get R.BNK_FAULT_BANK ∧
          t.get R.BNK_FAULT_AGENT = s.get R.BNK_FAULT_AGENT) ∧
        (∀ a, a ≠ R.BNK_FAULT → t.word a = s.word a)) ∧
      t.raised = s.raised ++ [⟨0x0301, 3, 1, evData [(0, 1, bankOf x.addr), (1, 1, x.agent)], s.get R.ISL_OPSEC_SEC, s.get R.ISL_PCYC_PCYC,
        s.evTick⟩]

/-- R29: a bank that is not ON and awake reads zeros and writes nothing, and the access is no isolation fault: nothing else changes. -/
def Obligations.SleepingBankAccess : Prop :=
  ∀ (s : State) (x : Access), s.up = true → Sys2Proof.Machine.Access.inSram x = true → s.bankReady (bankOf x.addr) = false →
    exec (.bankAccess x none) s = .next (returns s (if x.wr = none then List.replicate x.len 0#8 else []))

/-- A write of one field that would pass but for the bars of its register (R533). -/
def fieldJudged (s : State) (p : Path) (f : Fld) (v : Nat) : Prop :=
  s.listening ∧ s.pathOpen p = true ∧
    ∃ r, rowAt f.addr = some r ∧ s.pageRefused p (agentOf p 0) f.addr r = false ∧
      s.judgeRow p f.addr f.mask (f.write 0 v) r = ⟨f.mask, false, false⟩

/-- R27, R29, R35: a bank that leaves ON is not READY; OFF loses the content of the bank and of no other; a bank that R29 keeps ON in FIELD
does not leave it and the write counts as an RWL violation (the model's reading of R29 against R533, assumption 12). -/
def Obligations.BankPowerChange : Prop :=
  (∀ (s : State) (p : Path) (b : Fin 48) (pwr : Fin 3), fieldJudged s p (R.BNK_CTL_PWR b) pwr → alwaysOn b = true →
    s.get R.KEY_LC_STATE = lcField → pwr.val ≠ 0 →
    exec (.bankPowerChange p b ⟨pwr, by omega⟩) s = .next (s.refuse .lock p (R.BNK_CTL b))) ∧
  (∀ (s : State) (p : Path) (b : Fin 48) (pwr : Fin 3), s.up = true → Regs.wf s.regs = true → Memory.wf s.mem = true →
    s.fieldStands p (R.BNK_CTL_PWR b) pwr → s.get (R.BNK_CTL_PWR b) ≠ pwr → ¬ (alwaysOn b = true ∧ s.get R.KEY_LC_STATE = lcField) →
    ∃ t, s.fieldCommitted p (R.BNK_CTL_PWR b) pwr = t ∧
      t.get (R.BNK_CTL_PWR b) = pwr ∧ t.get (R.BNK_STAT_READY b) = 0 ∧ t.owner b = s.owner b ∧
      (∀ a, bankOf a ≠ b ∨ pwr.val ≠ 2 → t.byte a = s.byte a) ∧ (∀ a, bankOf a = b → pwr.val = 2 → t.byte a = 0#8) ∧
      (∀ a, a ≠ R.BNK_CTL b → a ≠ R.BNK_STAT b → t.word a = s.word a))

/-- R28: from the commit of the handover on the old owner is refused, the new owner's accesses stall until the drain ends, and are served from
then on; the content of the bank is not touched. -/
def Obligations.HandoverFence : Prop :=
  ∀ (s : State) (p : Path) (b : Fin 48) (owner : Fin 32), s.up = true → Regs.wf s.regs = true → SMap.wf (fun _ => 0) s.bnk.drain = true →
    s.fieldStands p (R.BNK_CTL_OWNER b) owner → s.ownerOpen p b = true → s.owner b ≠ owner → owner.val ≠ 0 → s.bankReady b = true →
    ∃ t u, s.fieldCommitted p (R.BNK_CTL_OWNER b) owner = t ∧ exec (.handoverDrainEnd b) t = .next u ∧
      t.owner b = owner ∧ t.mem = s.mem ∧ u.mem = s.mem ∧ (∀ a, a ≠ R.BNK_CTL b → t.word a = s.word a) ∧ u.regs = t.regs ∧
      (s.owner b ≠ 0 → t.grants b (s.owner b) = .refused ∧ u.grants b (s.owner b) = .refused) ∧
      t.grants b owner = .stall ∧ u.grants b owner = .ok

/-- R26: outside TEST, or by another path than T, a write of OWNER of BANK08 to BANK44 has no effect and counts as a path refusal. -/
def Obligations.FixedOwners : Prop :=
  ∀ (s : State) (p : Path) (b : Fin 48) (owner : Fin 32), s.listening → 8 ≤ b.val → b.val ≤ 44 →
    s.pathOpen p = true → ¬ (p = .t ∧ s.get R.KEY_LC_STATE = lcTest) →
    exec (.bankOwnerHandover p b owner) s = .next (s.refuse .path p (R.BNK_CTL b))

/-- R31: a read that finds a line uncorrectable returns zeros for the whole line and counts in BNK_STATn.UNCORR; the first such line since
BNK_ERRADDR was cleared is recorded there, and the event is raised.  A line of the replay table is captured in RPL_ERR too (R120). -/
def Obligations.UncorrectableLine : Prop :=
  ∀ (s : State) (x : Access), s.up = true → Sys2Proof.Machine.Access.inSram x = true → x.wr = none → 0 < x.len →
    x.addr % 32 + x.len ≤ 32 → s.grants (bankOf x.addr) x.agent = .ok → 3 ≤ s.dmg (x.addr / 32) → Regs.wf s.regs = true → SMap.wf (fun _ => 0) s.bnk.damage = true →
    ∃ t, exec (.bankAccess x none) s = .next t ∧ t.bnk.rd0 = List.replicate x.len 0#8 ∧ t.mem = s.mem ∧
      t.get (R.BNK_STAT_UNCORR (bankOf x.addr)) = satAdd (R.BNK_STAT_UNCORR 0).w (s.get (R.BNK_STAT_UNCORR (bankOf x.addr))) 1 ∧
      t.get R.BNK_ERRADDR_VALID = 1 ∧
      (s.get R.BNK_ERRADDR_VALID = 0 → t.get R.BNK_ERRADDR_LINE = x.addr / 32) ∧
      (s.get R.BNK_ERRADDR_VALID ≠ 0 → t.get R.BNK_ERRADDR_LINE = s.get R.BNK_ERRADDR_LINE) ∧
      (rplLine0 ≤ x.addr / 32 → x.addr / 32 < rplLineEnd → t.get R.RPL_ERR_VALID = 1 ∧
        (s.get R.RPL_ERR_VALID = 0 → t.get R.RPL_ERR_SLOT = 8 * (x.addr / 32 - rplLine0))) ∧
      (∀ a, a ≠ R.BNK_ERRADDR → a ≠ R.BNK_STAT (bankOf x.addr) →
        (a = R.RPL_ERR → ¬ (rplLine0 ≤ x.addr / 32 ∧ x.addr / 32 < rplLineEnd)) → t.word a = s.word a) ∧
      t.raised = s.raised ++ [⟨0x0302, 3, 1, evData [(0, 4, x.addr / 32 * 32)], s.get R.ISL_OPSEC_SEC, s.get R.ISL_PCYC_PCYC, s.evTick⟩]

/-- R34: two writes that meet in a word both land in port order, so that port 1's data remain, and BNK_STATn.WCOLL counts; a read beside a
write returns the data held before it; every byte outside the two accesses keeps its value.  A word is 32 bits, the model's reading
(assumption 15). -/
def Obligations.PortOrder : Prop :=
  (∀ (s : State) (x y : Access) (u v : List Byte), s.up = true → x.wr = some u → y.wr = some v → Memory.wf s.mem = true →
    Sys2Proof.Machine.Access.inSram x = true → Sys2Proof.Machine.Access.inSram y = true → wordsMeet x y = true → Regs.wf s.regs = true →
    s.grants (bankOf x.addr) x.agent = .ok → s.grants (bankOf y.addr) y.agent = .ok → s.bnk.damage = [] →
    ∃ t, exec (.bankAccess x (some y)) s = .next t ∧
      (∀ i, i < v.length → t.byte (y.addr + i) = v.getD i 0#8) ∧
      (∀ a, a < y.addr ∨ y.addr + v.length ≤ a → (a < x.addr ∨ x.addr + u.length ≤ a) → t.byte a = s.byte a) ∧
      (∀ i, i < u.length → (x.addr + i < y.addr ∨ y.addr + v.length ≤ x.addr + i) → t.byte (x.addr + i) = u.getD i 0#8) ∧
      t.get (R.BNK_STAT_WCOLL (bankOf x.addr)) = satAdd (R.BNK_STAT_WCOLL 0).w (s.get (R.BNK_STAT_WCOLL (bankOf x.addr))) 1 ∧
      (∀ a, a ≠ R.BNK_STAT (bankOf x.addr) → t.word a = s.word a)) ∧
  (∀ (s : State) (x y : Access) (v : List Byte), s.up = true → x.wr = none → y.wr = some v → Memory.wf s.mem = true →
    Sys2Proof.Machine.Access.inSram x = true → Sys2Proof.Machine.Access.inSram y = true → x.err = 0 →
    s.grants (bankOf x.addr) x.agent = .ok → s.grants (bankOf y.addr) y.agent = .ok → s.bnk.damage = [] →
    ∃ t, exec (.bankAccess x (some y)) s = .next t ∧ t.bnk.rd0 = (List.range x.len).map (fun i => s.byte (x.addr + i)) ∧
      (∀ i, i < v.length → t.byte (y.addr + i) = v.getD i 0#8) ∧
      (∀ a, a < y.addr ∨ y.addr + v.length ≤ a → t.byte a = s.byte a) ∧ (∀ a, t.word a = s.word a)) ∧
  (∀ (s : State) (x y : Access) (u : List Byte), s.up = true → x.wr = some u → y.wr = none → Memory.wf s.mem = true →
    Sys2Proof.Machine.Access.inSram x = true → Sys2Proof.Machine.Access.inSram y = true → y.err = 0 →
    s.grants (bankOf x.addr) x.agent = .ok → s.grants (bankOf y.addr) y.agent = .ok → s.bnk.damage = [] →
    ∃ t, exec (.bankAccess x (some y)) s = .next t ∧ t.bnk.rd1 = (List.range y.len).map (fun i => s.byte (y.addr + i)) ∧
      (∀ i, i < u.length → t.byte (x.addr + i) = u.getD i 0#8) ∧
      (∀ a, a < x.addr ∨ x.addr + u.length ≤ a → t.byte a = s.byte a) ∧ (∀ a, t.word a = s.word a))

/-! ### Register writes -/

/-- What a counted access to an unmapped address leaves: the count, the capture of the first, and nothing else. -/
def unmappedCounted (s t : State) (p : Path) (a : Nat) : Prop :=
  t.mem = s.mem ∧ t.staged = s.staged ∧ t.late = s.late ∧
    t.get R.PROC_UNMAP_COUNT = satAdd R.PROC_UNMAP_COUNT.w (s.get R.PROC_UNMAP_COUNT) 1 ∧ t.get R.PROC_UNMAP_VALID = 1 ∧
    (s.get R.PROC_UNMAP_VALID = 0 → t.get R.PROC_UNMAP_AGENT = pathCode p ∧ t.get R.PROC_UNMAPA_ADDR = a % 2 ^ 32) ∧
    (s.get R.PROC_UNMAP_VALID ≠ 0 → t.get R.PROC_UNMAP_AGENT = s.get R.PROC_UNMAP_AGENT ∧ t.word R.PROC_UNMAPA = s.word R.PROC_UNMAPA) ∧
    (∀ b, b ≠ R.PROC_UNMAP → b ≠ R.PROC_UNMAPA → t.word b = s.word b)

/-- R22: an access to an address outside SRAM and outside every block reads 0, writes nothing and counts in PROC_UNMAP. -/
def Obligations.UnmappedAccess : Prop :=
  ∀ (s : State) (p : Path) (cpu : Fin 4) (a : Nat) (mask value : Word), s.listening → s.pathOpen p = true → sramEnd ≤ a →
    rowAt (a / 4 * 4) = none → Regs.wf s.regs = true →
    (a % 4 = 0 → ∃ t, exec (.registerWrite p cpu a mask value false) s = .next t ∧ unmappedCounted s t p a) ∧
    (∃ t, exec (.registerWrite p cpu a mask value true) s = .next t ∧ unmappedCounted s t p a) ∧
    (∃ t, exec (.unmappedAccess p a) s = .next t ∧ unmappedCounted s t p a) ∧
    (s.isl.dead = false → s.isl.battery = false → s.pathOpen .t = true →
      ∃ t, exec (.testacc a none) s = .next t ∧ t.jtag.rd = 0#32 ∧ unmappedCounted s t .t a) ∧
    s.pathRead p (a / 4 * 4) = 0#32

/-- R11, R533: a write that reaches only RWL fields, after the Accord image has been applied, is ignored and counted as a lock violation. -/
def Obligations.LockedWrite : Prop :=
  ∀ (s : State) (p : Path) (cpu : Fin 4) (a : Nat) (mask value : Word) (r : RegRow), s.listening → s.pathOpen p = true →
    sramEnd ≤ a → rowAt a = some r → s.locked = true → inPages a = false →
    (∀ f ∈ r.flds, bitsOf mask.toNat f.lo f.w ≠ 0 → f.acc = .rwl ∧ s.fieldOpen p a f = true) →
    (∃ f ∈ r.flds, bitsOf mask.toNat f.lo f.w ≠ 0) →
    exec (.registerWrite p cpu a mask value false) s = .next (s.refuse .lock p a)

/-- R13, R533: a write that reaches only fields closed to its path is ignored and counted as a path refusal. -/
def Obligations.ClosedPathWrite : Prop :=
  ∀ (s : State) (p : Path) (cpu : Fin 4) (a : Nat) (mask value : Word) (r : RegRow), s.listening → s.pathOpen p = true →
    sramEnd ≤ a → rowAt a = some r → inPages a = false →
    (∀ f ∈ r.flds, bitsOf mask.toNat f.lo f.w ≠ 0 → s.fieldOpen p a f = false) →
    (∃ f ∈ r.flds, bitsOf mask.toNat f.lo f.w ≠ 0) →
    exec (.registerWrite p cpu a mask value false) s = .next (s.refuse .path p a)

/-- R535: what a refused write leaves: its count, its capture when it is the first, and nothing else. -/
def Obligations.RefusedWriteFrame : Prop :=
  ∀ (s : State) (p : Path) (a : Nat), Regs.wf s.regs = true →
    ((s.refuse .lock p a).get R.PROC_LOCKV_COUNT = satAdd R.PROC_LOCKV_COUNT.w (s.get R.PROC_LOCKV_COUNT) 1 ∧
      (s.refuse .lock p a).get R.PROC_LOCKV_VALID = 1 ∧
      (s.get R.PROC_LOCKV_VALID = 0 → (s.refuse .lock p a).get R.PROC_LOCKV_AGENT = pathCode p ∧
        (s.refuse .lock p a).get R.PROC_LOCKA_ADDR = a % 2 ^ 32) ∧
      (s.get R.PROC_LOCKV_VALID ≠ 0 → (s.refuse .lock p a).word R.PROC_LOCKA = s.word R.PROC_LOCKA) ∧
      (∀ b, b ≠ R.PROC_LOCKV → b ≠ R.PROC_LOCKA → (s.refuse .lock p a).word b = s.word b)) ∧
    ((s.refuse .path p a).get R.PROC_PATHREF_COUNT = satAdd R.PROC_PATHREF_COUNT.w (s.get R.PROC_PATHREF_COUNT) 1 ∧
      (s.refuse .path p a).get R.PROC_PATHREF_VALID = 1 ∧
      (s.get R.PROC_PATHREF_VALID = 0 → (s.refuse .path p a).get R.PROC_PATHREF_AGENT = pathCode p ∧
        (s.refuse .path p a).get R.PROC_PATHA_ADDR = a % 2 ^ 32) ∧
      (s.get R.PROC_PATHREF_VALID ≠ 0 → (s.refuse .path p a).word R.PROC_PATHA = s.word R.PROC_PATHA) ∧
      (∀ b, b ≠ R.PROC_PATHREF → b ≠ R.PROC_PATHA → (s.refuse .path p a).word b = s.word b)) ∧
    (∀ k, (s.refuse k p a).mem = s.mem ∧ (s.refuse k p a).staged = s.staged ∧ (s.refuse k p a).late = s.late ∧
      (s.refuse k p a).raised = s.raised)

/-- R14: of two writes that reach one RW field in one tick by paths H and S the value of path S remains, whichever came first; until the commit a
read returns the value committed before either. -/
def Obligations.CommitOrder : Prop :=
  ∀ (s : State) (v w : Word) (w0 w1 : Staged), Regs.wf s.regs = true → s.up = true →
    w0 = ⟨.h, 0, R.CHG_AARG 0, 0xFFFFFFFF#32, v⟩ → w1 = ⟨.s, 0, R.CHG_AARG 0, 0xFFFFFFFF#32, w⟩ → s.occ = [] →
    (({ s with staged := [w0, w1] }).commitWrites).word (R.CHG_AARG 0) = w ∧
    (({ s with staged := [w1, w0] }).commitWrites).word (R.CHG_AARG 0) = w ∧
    (∀ a, a ≠ R.CHG_AARG 0 → (({ s with staged := [w1, w0] }).commitWrites).word a = s.word a) ∧
    (∀ (p : Path) (a : Nat), ({ s with staged := [w1, w0] }).pathRead p a = s.pathRead p a)

/-! ### Queues -/

/-- R80, R81, R82: a frame is refused whole, and counted, when the queue is not enabled or FCNT is 0, 63 or more than the free space; else
its reservation counts at once while none of its words is committed, and a rewind gives the reservation back and is counted. -/
def Obligations.FrameReservation : Prop :=
  ∀ (s : State) (q : Fin 32) (fcnt : Fin 64) (job : Bool), s.listening → Regs.wf s.regs = true → SMap.wf queueDefault s.queues = true →
    (s.queue q).frame = none →
    (s.frameFits q fcnt = false ↔ s.on (R.QUE_CTL_EN q) = false ∨ fcnt.val = 0 ∨ fcnt.val = 63 ∨ s.qCap q - s.qOcc q < fcnt) ∧
    (s.frameFits q fcnt = false → exec (.frameOpen q fcnt job) s = .next (s.bump (R.QUE_CNT_REJECT q))) ∧
    (s.frameFits q fcnt = true → ∃ t u, exec (.frameOpen q fcnt job) s = .next t ∧ exec (.frameErrorRewind q) t = .next u ∧
      t.qOcc q = s.qOcc q + fcnt ∧ t.qCommitted q = s.qCommitted q ∧ t.qFront q = s.qFront q ∧ u.qOcc q = s.qOcc q ∧
      u.get (R.QUE_CNT_REWIND q) = satAdd (R.QUE_CNT_REWIND q).w (s.get (R.QUE_CNT_REWIND q)) 1 ∧
      t.mem = s.mem ∧ u.mem = s.mem ∧ (∀ k, k ≠ q.val → u.queue k = s.queue k) ∧
      (∀ a, a ≠ R.QUE_STAT q → t.word a = s.word a) ∧ (∀ a, a ≠ R.QUE_STAT q → a ≠ R.QUE_CNT q → u.word a = s.word a))

/-- R86: a write that would move RPTR past WPTR is ignored and counted; any other sets RPTR, and the occupancy follows. -/
def Obligations.RingAdvance : Prop :=
  ∀ (s : State) (p : Path) (q : Fin 32) (rptr : Fin 2048), s.up = true → Regs.wf s.regs = true →
    (s.ringOcc q < (s.get (R.QUE_RING_WPTR q) + 2048 - rptr) % 2048 →
      s.fieldCommitted p (R.QUE_RING_RPTR q) rptr = s.bump (R.QUE_CNT_PTRERR q)) ∧
    ((s.get (R.QUE_RING_WPTR q) + 2048 - rptr) % 2048 ≤ s.ringOcc q → ∃ t, s.fieldCommitted p (R.QUE_RING_RPTR q) rptr = t ∧
      t.get (R.QUE_RING_RPTR q) = rptr ∧ t.ringOcc q = (s.get (R.QUE_RING_WPTR q) + 2048 - rptr) % 2048 ∧ t.mem = s.mem ∧
      (∀ a, a ≠ R.QUE_RING q → a ≠ R.QUE_STAT q → t.word a = s.word a))

/-- R87: MODE changes only while EN is 0, no record is committed and no frame is open; it then sets both ring pointers to 0 and empties the
queue; else MODE keeps its value and PTRERR counts; a write of the present value does nothing. -/
def Obligations.ModeChange : Prop :=
  ∀ (s : State) (p : Path) (q : Fin 32) (mode : Bool), s.up = true → Regs.wf s.regs = true → SMap.wf queueDefault s.queues = true →
    (s.on (R.QUE_CTL_MODE q) = mode → s.fieldCommitted p (R.QUE_CTL_MODE q) (b2n mode) = s) ∧
    (s.on (R.QUE_CTL_MODE q) ≠ mode → ¬ (s.on (R.QUE_CTL_EN q) = false ∧ s.qCommitted q = 0 ∧ (s.queue q).frame = none) →
      s.fieldCommitted p (R.QUE_CTL_MODE q) (b2n mode) = s.bump (R.QUE_CNT_PTRERR q)) ∧
    (s.on (R.QUE_CTL_MODE q) ≠ mode → s.on (R.QUE_CTL_EN q) = false → s.qCommitted q = 0 → (s.queue q).frame = none →
      ∃ t, s.fieldCommitted p (R.QUE_CTL_MODE q) (b2n mode) = t ∧ t.on (R.QUE_CTL_MODE q) = mode ∧ t.isRing q = mode ∧
        t.get (R.QUE_RING_RPTR q) = 0 ∧ t.get (R.QUE_RING_WPTR q) = 0 ∧ t.queue q = {} ∧ t.qCommitted q = 0 ∧
        (∀ k, k ≠ q.val → t.queue k = s.queue k) ∧ t.mem = s.mem ∧
        (∀ a, a ≠ R.QUE_CTL q → a ≠ R.QUE_STAT q → a ≠ R.QUE_RING q → t.word a = s.word a))

/-- R89: with no queue forced by PRT_BP0, the above flag of a queue sets at HIGH, clears at LOW, and keeps its value between the marks; the
comparison touches no other register than the queue's OCC and STAT. -/
def Obligations.Hysteresis : Prop :=
  ∀ (s : State) (q : Fin 32), Regs.wf s.regs = true → s.get R.PRT_BP0_QUEUES = 0 →
    (s.get (R.QUE_WMH_HIGH q) ≤ s.qOcc q → (s.compareMarks q).on (R.QUE_STAT_ABOVE q) = true) ∧
    (s.qOcc q < s.get (R.QUE_WMH_HIGH q) → s.qOcc q ≤ s.get (R.QUE_WML_LOW q) → (s.compareMarks q).on (R.QUE_STAT_ABOVE q) = false) ∧
    (s.qOcc q < s.get (R.QUE_WMH_HIGH q) → s.get (R.QUE_WML_LOW q) < s.qOcc q →
      (s.compareMarks q).on (R.QUE_STAT_ABOVE q) = s.on (R.QUE_STAT_ABOVE q)) ∧
    (∀ a, a ≠ R.QUE_STAT q → a ≠ R.QUE_OCC q → (s.compareMarks q).word a = s.word a)

/-! ### Validation, balance and metering -/

/-- R113: the verdict that the replay entry E and the counter C give a record whose tag is right and whose line reads; an ACCEPT leaves C in
the entry and touches no other byte (a bank that is being handed over is waited for, R28), an ACCEPT with the final counter carries reason bit 1, counts in RPL_FINAL and raises its event, and every
other verdict leaves the entry as it was. -/
def Obligations.ReplayComparison : Prop :=
  (∀ e c : Nat, e < 2 ^ 32 → c < 2 ^ 32 →
    (e = 0xFFFFFFFF → c = 0xFFFFFFFF → replayVerdict e c = 2) ∧ (e = 0xFFFFFFFF → c < 0xFFFFFFFF → replayVerdict e c = 6) ∧
    (e ≠ 0xFFFFFFFF → c = e → replayVerdict e c = 2) ∧ (e ≠ 0xFFFFFFFF → c < e → replayVerdict e c = 1) ∧
    (e < c → replayVerdict e c = 0)) ∧
  (∀ (s : State) (q : Nat) (r : Rec) (f : Found) (epoch : Nat) (h : Heart) (note : List Byte), s.bnk.damage = [] →
    s.served (bankOf (rplAddr f.slot)) = true →
    s.heartOf (domainOf (recMeter r)) epoch = some h → h.note = some note →
    tagOf (meterKey note (recMeter r) epoch) r = recTag r → s.on R.PRT_TAG_ARMED = false →
    (s.judgeFound q r f 0 epoch).2 = s.waitDrain (bankOf (rplAddr f.slot)) ∧ (s.judgeFound q r f 0 epoch).1.v = replayVerdict (s.rpl f.slot) (recCtr r) ∧
    (replayVerdict (s.rpl f.slot) (recCtr r) = 0 →
      (s.judgeFound q r f 0 epoch).1.r = b2n (s.on R.VAL_CTL_FRESH) + 2 * b2n (decide (recCtr r = 0xFFFFFFFF)))) ∧
  (∀ (s : State) (f : Found) (epoch : Nat) (r : Rec), f.slot < 2 ^ 20 → s.bnk.damage = [] → s.served (bankOf (rplAddr f.slot)) = true →
    Memory.wf s.mem = true → Regs.wf s.regs = true →
    (f.v ≠ 0 → s.replayUpdate f epoch r = s) ∧
    (f.v = 0 → (s.replayUpdate f epoch r).rpl f.slot = recCtr r ∧
      (∀ a, a < rplAddr f.slot ∨ rplAddr f.slot + 4 ≤ a → (s.replayUpdate f epoch r).byte a = s.byte a) ∧
      (∀ a, a ≠ R.RPL_FINAL → (s.replayUpdate f epoch r).word a = s.word a) ∧
      (recCtr r ≠ 0xFFFFFFFF → (s.replayUpdate f epoch r).regs = s.regs ∧ (s.replayUpdate f epoch r).raised = s.raised) ∧
      (recCtr r = 0xFFFFFFFF → (s.replayUpdate f epoch r).get R.RPL_FINAL_COUNT = (s.get R.RPL_FINAL_COUNT + 1) % 2 ^ 32 ∧
        ∃ e, (s.replayUpdate f epoch r).raised = s.raised ++ [e] ∧ e.code = 0x0503)))

/-- R121: a fault sets VAL_STAT.LANEFLT of its lane and no other, and every slot of the lane in that tick and in the next idles,
which IDLE counts (the model's reading, assumption 39). -/
def Obligations.LaneFaultHolds : Prop :=
  ∀ (s : State) (l : Fin 4), s.up = true → Regs.wf s.regs = true → SMap.wf lane0 s.val.lanes = true → ∃ t,
    exec (.laneFault l none) s = .next t ∧ (t.get R.VAL_STAT_LANEFLT).testBit l = true ∧
      (∀ k : Fin 4, k ≠ l → (t.get R.VAL_STAT_LANEFLT).testBit k = (s.get R.VAL_STAT_LANEFLT).testBit k) ∧
      t.queues = s.queues ∧ t.mem = s.mem ∧ (∀ a, a ≠ R.VAL_STAT → t.word a = s.word a) ∧
      (∀ (u : State) (j : Fin 125) (lat : Fin 461), u.phase = .compute → u.lane l = t.lane l → SMap.wf lane0 u.val.lanes = true →
        u.now ≤ s.now + 1 → (u.lane l).next ≤ j → ∃ v, exec (.admissionSlot l j lat) u = .next v ∧ v.regs = u.regs ∧
          v.queues = u.queues ∧ v.mem = u.mem ∧ v.ftl = u.ftl ∧ v.raised = u.raised ∧ (v.lane l).idle = (u.lane l).idle + 1)

/-- R154: a report that finds 16 waiting is discarded and counted in LOST; else it waits behind them. -/
def Obligations.ReportQueue : Prop :=
  ∀ (s : State) (r : List Byte), Regs.wf s.regs = true →
    (16 ≤ s.bal.reports.length → s.enterReport r = s.bump R.BAL_RPTSTAT_LOST ∧
      (s.enterReport r).get R.BAL_RPTSTAT_LOST = satAdd R.BAL_RPTSTAT_LOST.w (s.get R.BAL_RPTSTAT_LOST) 1) ∧
    (s.bal.reports.length < 16 → (s.enterReport r).bal.reports = s.bal.reports ++ [r] ∧
      (s.enterReport r).get R.BAL_RPTSTAT_LOST = s.get R.BAL_RPTSTAT_LOST ∧ (s.enterReport r).mem = s.mem)

/-- R178: a write of ADD while BASED is 1 is ignored and counted as an RWL violation, when it arrives or, after another write of the same
tick, when it is committed; the first one sets BASED. -/
def Obligations.EnergyBaseOnce : Prop :=
  (∀ (s : State) (p : Path), fieldJudged s p R.NRG_CTL_ADD 1 → s.on R.NRG_STAT_BASED = true →
    exec (.energyBaseAdd p) s = .next (s.refuse .lock p R.NRG_CTL)) ∧
  (∀ (s : State) (p : Path), s.up = true → Regs.wf s.regs = true →
    (s.on R.NRG_STAT_BASED = true → s.fieldCommitted p R.NRG_CTL_ADD 1 = s.refuse .lock p R.NRG_CTL) ∧
    (s.on R.NRG_STAT_BASED = false → ∃ t, s.fieldCommitted p R.NRG_CTL_ADD 1 = t ∧ t.on R.NRG_STAT_BASED = true ∧
      t.mem = s.mem ∧ t.isl = s.isl ∧ ∀ a, a / 65536 ≠ 0x2201 → t.word a = s.word a))

/-! ### Keys and cipher pages -/

/-- R340: while a page is BUSY every write of its owner to its registers but ZERO is ignored and counted in CIP_CNT.BUSYERR, when it arrives
and, after a START of the same tick, when it is committed. -/
def Obligations.BusyPage : Prop :=
  (∀ (s : State) (p : Path) (cpu : Fin 4) (a : Nat) (mask value : Word) (r : RegRow), s.listening → s.pathOpen p = true → sramEnd ≤ a →
    rowAt a = some r → s.ownPage (agentOf p cpu) a = true → (s.page (a / 256 % 256)).busy = true →
    ¬ (a = R.CIP_CMD (a / 256 % 256) ∧ s.newVal (R.CIP_CMD_OP (a / 256 % 256)) mask value = 2) →
    exec (.registerWrite p cpu a mask value false) s = .next (s.bump R.CIP_CNT_BUSYERR)) ∧
  (∀ (s : State) (w : Staged) (m : Word), inPages w.addr = true → (s.page (w.addr / 256 % 256)).busy = true →
    ¬ (w.addr = R.CIP_CMD (w.addr / 256 % 256) ∧ s.newVal (R.CIP_CMD_OP (w.addr / 256 % 256)) m w.value = 2) →
    s.hook w m = s.bump R.CIP_CNT_BUSYERR)

/-! ### Resets and the island -/

/-- R10, R20, R23, R374: a die reset holds the main clusters, zero-fills every bank and returns every register to its Reset value (0 where the
manual gives none, assumption 7) but those of the island and KEY_STAT.ERASED; the island with its key store, the fuses, the NAND array and the NOR keep what they
hold (a programming of fuses under way runs to its end, the model's choice), and the commands that wait go on waiting. -/
def Obligations.DieResetReach : Prop :=
  ∀ (s : State) (cause : Nat), Regs.wf s.regs = true →
    (s.dieReset cause).phase = .held ∧ (s.dieReset cause).mem = [] ∧ (s.dieReset cause).queues = [] ∧ (s.dieReset cause).sup.sess = [] ∧
    (s.dieReset cause).locked = false ∧
    (∀ a, islandReg a = true → (s.dieReset cause).word a = s.word a) ∧
    (∀ a, islandReg a = false → a ≠ R.KEY_STAT → (s.dieReset cause).word a = resetWord a) ∧
    (s.dieReset cause).get R.KEY_STAT_ERASED = s.get R.KEY_STAT_ERASED ∧
    (s.dieReset cause).isl.keys = s.isl.keys ∧ (s.dieReset cause).otp = s.fused ∧
    (s.sec.kup.fusing = none → (s.dieReset cause).otp = s.otp) ∧ (s.dieReset cause).nand = s.nand ∧
    (s.dieReset cause).nor = s.nor ∧ (s.dieReset cause).pending = s.pending

/-- R510: a write of 4Bh followed by B4h restarts the watchdog and changes no register; B4h without it, or any other value, counts in
ISL_WDSTAT and resets the die with cause 2, unless a power-fail warning has stopped the watchdog; of the other island registers only
ISL_EVLOST may change, which counts the events that the reset loses (R456).
That a 4Bh after a 4Bh begins a kick again is the model's reading (assumption 98). -/
def Obligations.WatchdogKick : Prop :=
  ∀ (s : State) (p : Path) (key : Fin 256), s.up = true →
    (key.val = 0x4B → s.fieldCommitted p R.ISL_WDKICK_KEY key = { s with isl := { s.isl with wd4B := true } }) ∧
    (key.val = 0xB4 → s.isl.wd4B = true →
      s.fieldCommitted p R.ISL_WDKICK_KEY key = { s with isl := { s.isl with wd4B := false, wdAt := s.now } }) ∧
    (key.val ≠ 0x4B → ¬ (key.val = 0xB4 ∧ s.isl.wd4B = true) → s.isl.warned = false → Regs.wf s.regs = true → ∃ t,
      s.fieldCommitted p R.ISL_WDKICK_KEY key = t ∧ t.phase = .held ∧ t.isl.cause = 2 ∧ t.mem = [] ∧
      t.get R.ISL_WDSTAT_COUNT = satAdd 16 (s.get R.ISL_WDSTAT_COUNT) 1 ∧
      (∀ a, islandReg a = true → a ≠ R.ISL_WDSTAT → a ≠ R.ISL_EVLOST → t.word a = s.word a))

/-- R508: a write of RTC_SETLO leaves the clock running until cycle 0 of the next tick, when it takes the written seconds with fraction 0, sets
VALID and clears XSTOP (unless the crystal has stopped in that tick, the model's reading, assumption 71). -/
def Obligations.RtcSet : Prop :=
  ∀ (s : State) (p : Path) (sec : BitVec 32), s.up = true → Regs.wf s.regs = true → ∃ t,
    s.fieldCommitted p R.RTC_SETLO_SEC sec.toNat = t ∧ t.regs = s.regs ∧
    t.isl.rtcDue = some (s.get R.RTC_SETHI_SEC * 2 ^ 32 + sec.toNat) ∧
    ∀ v, v < 2 ^ 48 → s.isl.stopped = false → (s.rtcSet v).get R.RTC_SECLO_SEC = v % 2 ^ 32 ∧ (s.rtcSet v).get R.RTC_SECHI_SEC = v / 2 ^ 32 ∧
      (s.rtcSet v).get R.RTC_FRAC_FRAC = 0 ∧ (s.rtcSet v).get R.RTC_STAT_VALID = 1 ∧ (s.rtcSet v).get R.RTC_STAT_XSTOP = 0

/-! ### Events and test -/

/-- R449, R457: an event that is kept takes the next SEQ, 1 after FFFF_FFFFh; a full log keeps its records and issues no SEQ. -/
def Obligations.EventSequence : Prop :=
  ∀ (s : State) (e : Ev), Regs.wf s.regs = true → s.isl.warned = false →
    (s.on R.EVR_STAT_FULL = true → (s.evTake e).evr = s.evr ∧ (s.evTake e).get R.EVR_SEQ_SEQ = s.get R.EVR_SEQ_SEQ ∧
      (s.evTake e).get R.EVR_DISCARD_COUNT = satAdd R.EVR_DISCARD_COUNT.w (s.get R.EVR_DISCARD_COUNT) 1) ∧
    (s.on R.EVR_STAT_FULL = false → s.evMerges e = false → s.evRoom = true → s.evLeft ≠ 1 →
      (s.evTake e).get R.EVR_SEQ_SEQ = s.nextSeq ∧ ∃ r, (s.evTake e).evr.log = s.evr.log ++ [r] ∧ r.ev = e ∧ r.seq = s.nextSeq ∧ r.rep = 0) ∧
    (s.on R.EVR_STAT_FULL = false → s.evMerges e = true → (s.evTake e).get R.EVR_SEQ_SEQ = s.get R.EVR_SEQ_SEQ ∧
      (s.evTake e).evr.log.length = s.evr.log.length)

/-- R517, R518: IDCODE reads 1964_01D5h in every state in which the port works; EXTEST and TESTACC act as BYPASS where R517 says so, and then no
register, no byte and no count changes. -/
def Obligations.JtagInstructions : Prop :=
  (∀ s : State, s.isl.dead = false → s.isl.battery = false → exec .idcode s = .next
    (({ s with jtag := { s.jtag with ir := 1, dr := 0x196401D5 } }).send (.pin "TDO") [0xD5#8, 0x01#8, 0x64#8, 0x19#8])) ∧
  (∀ (s : State) (cells : List Byte), s.isl.dead = false → s.isl.battery = false → s.get R.KEY_LC_STATE ≠ 1 →
    exec (.extest cells) s = exec (.bypass false) s) ∧
  (∀ (s : State) (a : Nat) (wr : Option Word), s.isl.dead = false → s.isl.battery = false → s.get R.KEY_LC_STATE ≠ 1 →
    ¬ (s.get R.KEY_LC_STATE = 2 ∧ s.on R.PRT_CTL_OPEN = true) → exec (.testacc a wr) s = exec (.bypass false) s) ∧
  (∀ (s : State) (bit : Bool), s.isl.dead = false → s.isl.battery = false → ∃ t, exec (.bypass bit) s = .next t ∧
    t.regs = s.regs ∧ t.mem = s.mem ∧ t.raised = s.raised ∧ t.staged = s.staged ∧ t.occ = s.occ ∧ t.isl = s.isl ∧ t.chg = s.chg)

/-! ### Invariants of every step -/

/-- The main clusters are held in die reset: SRAM holds zeros, the queues are empty, no session stands, and no release waits. -/
def held (s : State) : Prop :=
  s.phase = .held ∧ s.mem = [] ∧ s.queues = [] ∧ s.sup.sess = [] ∧ ∀ x, Instr.resetRelease x ∉ s.pending

/-- R23, R477, R478: while die reset is asserted no command but RESET_RELEASE lets the main clusters run, and nothing of what the reset took
from them comes back. -/
def Obligations.HeldUntilRelease : Prop := ∀ s t : State, held s → step s = .next t → held t

/-- The state after reset is held, and its tables are in their canonical forms. -/
def Obligations.InvariantsAtReset : Prop := held State.reset ∧ State.reset.canonical

/-- The commands of the memory fabric: every access, write-back, handover, change of power and scrub. -/
def fabricCommand (c : Instr) : Prop :=
  (∃ x y, c = .bankAccess x y) ∨ (∃ l, c = .correctedLineWriteback l) ∨ (∃ p b o, c = .bankOwnerHandover p b o) ∨
    (∃ b, c = .handoverDrainEnd b) ∨ (∃ p b w, c = .bankPowerChange p b w) ∨ (∃ b, c = .bankReady b) ∨ (∃ l m, c = .scrub l m)

/-- From every state whose SRAM is in its canonical form, a step of a command of the memory fabric gives such a state again, and so does the
commit of a write of a bank's owner or power: what a byte reads as never depends on how it came to hold its value. -/
def Obligations.FabricKeepsForm : Prop :=
  (∀ (s t : State) (c : Instr) (rest : List Instr), s.pending = c :: rest → fabricCommand c → Memory.wf s.mem = true →
    step s = .next t → Memory.wf t.mem = true) ∧
  (∀ (s : State) (p : Path) (b : Fin 48) (owner : Fin 32) (pwr : Fin 3), s.up = true → Memory.wf s.mem = true →
    Memory.wf (s.fieldCommitted p (R.BNK_CTL_OWNER b) owner).mem = true ∧ Memory.wf (s.fieldCommitted p (R.BNK_CTL_PWR b) pwr).mem = true)
end

