-- ==== Sys2Proof/Laws/Fabric.lean ====
section
/-!
SUPPORT. What counts, captures and refusals leave in the register file, and what stores of the bank fabric leave in SRAM.
-/
namespace Sys2Proof.Machine

/-- Two fields that share no bit. -/
def Fld.apart (f g : Fld) : Bool :=
  decide (g.addr ≠ f.addr) || decide (f.lo + f.w ≤ g.lo) || decide (g.lo + g.w ≤ f.lo)

theorem Fld.apart_of_addr {f g : Fld} (h : g.addr ≠ f.addr) : f.apart g = true := by simp [Fld.apart, h]
theorem Fld.apart_of_bits {f g : Fld} (h : f.lo + f.w ≤ g.lo ∨ g.lo + g.w ≤ f.lo) : f.apart g = true := by
  rcases h with h | h <;> simp [Fld.apart, h]

/-- A field keeps its value when another one is written. -/
theorem State.get_set_apart (s : State) (f g : Fld) (v : Nat) (h : f.apart g = true) (hs : Regs.wf s.regs = true) :
    (s.set f v).get g = s.get g := by
  simp only [Fld.apart, Bool.or_eq_true, decide_eq_true_eq] at h
  rcases h with (h | h) | h
  · exact s.get_set_addr f g v h hs
  · exact s.get_set_bits f g v (.inl h) hs
  · exact s.get_set_bits f g v (.inr h) hs

theorem State.get_setAll_apart (l : List (Fld × Nat)) (s : State) (g : Fld) (h : ∀ e ∈ l, e.1.apart g = true)
    (hs : Regs.wf s.regs = true) : (s.setAll l).get g = s.get g := by
  induction l generalizing s with
  | nil => rfl
  | cons e l ih =>
    show ((s.set e.1 e.2).setAll l).get g = s.get g
    rw [ih _ (fun e he => h e (List.mem_cons_of_mem _ he)) (s.set_wf _ _ hs),
      s.get_set_apart _ _ _ (h e List.mem_cons_self) hs]

theorem State.word_set_ne (s : State) (f : Fld) (v a : Nat) (h : a ≠ f.addr) (hs : Regs.wf s.regs = true) :
    (s.set f v).word a = s.word a := s.word_setWord_ne _ h hs

theorem State.word_setAll_ne (l : List (Fld × Nat)) (s : State) (a : Nat) (h : ∀ e ∈ l, a ≠ e.1.addr) (hs : Regs.wf s.regs = true) :
    (s.setAll l).word a = s.word a := by
  induction l generalizing s with
  | nil => rfl
  | cons e l ih =>
    show ((s.set e.1 e.2).setAll l).word a = s.word a
    rw [ih _ (fun e he => h e (List.mem_cons_of_mem _ he)) (s.set_wf _ _ hs), s.word_set_ne _ _ _ (h e List.mem_cons_self) hs]

/-! ### Counts and captures -/

theorem State.bumpBy_wf (s : State) (f : Fld) (n : Nat) (hs : Regs.wf s.regs = true) : Regs.wf (s.bumpBy f n).regs = true :=
  s.set_wf f _ hs

theorem State.capture_regs (s : State) (valid : Fld) (vals : List (Fld × Nat)) :
    (s.capture valid vals).regs = (if s.on valid then s else (s.setAll vals).set valid 1).regs := rfl

theorem State.capture_wf (s : State) (valid : Fld) (vals : List (Fld × Nat)) (hs : Regs.wf s.regs = true) :
    Regs.wf (s.capture valid vals).regs = true := by
  rw [State.capture_regs]
  split
  · exact hs
  · exact State.set_wf _ _ _ (s.setAll_wf _ hs |> fun h => h)

/-- A register read through equal register files is the same. -/
theorem State.word_congr {s t : State} (h : s.regs = t.regs) (a : Nat) : s.word a = t.word a := by simp only [State.word, h]
theorem State.get_congr {s t : State} (h : s.regs = t.regs) (f : Fld) : s.get f = t.get f := by simp only [State.get, State.word_congr h]

/-- A saturating count by one (R11). -/
theorem State.get_bumpBy (s : State) (f : Fld) (n : Nat) (hw : writable f.addr = true) (hf : f.lo + f.w ≤ 32) (hs : Regs.wf s.regs = true) :
    (s.bumpBy f n).get f = satAdd f.w (s.get f) n := by
  rw [State.get_congr (show (s.bumpBy f n).regs = (s.set f (satAdd f.w (s.get f) n)).regs from rfl), s.get_set_same f _ hw hf hs]
  apply Nat.mod_eq_of_lt
  have := Nat.two_pow_pos f.w
  unfold satAdd
  omega

theorem State.get_bumpBy_apart (s : State) (f g : Fld) (n : Nat) (h : f.apart g = true) (hs : Regs.wf s.regs = true) :
    (s.bumpBy f n).get g = s.get g := s.get_set_apart f g _ h hs

theorem State.word_bumpBy_ne (s : State) (f : Fld) (n a : Nat) (h : a ≠ f.addr) (hs : Regs.wf s.regs = true) :
    (s.bumpBy f n).word a = s.word a := s.word_set_ne f _ a h hs

/-- A capture changes the registers of its VALID flag and of its values only (R533). -/
theorem State.word_capture_ne (s : State) (valid : Fld) (vals : List (Fld × Nat)) (a : Nat) (hv : a ≠ valid.addr)
    (hl : ∀ e ∈ vals, a ≠ e.1.addr) (hs : Regs.wf s.regs = true) : (s.capture valid vals).word a = s.word a := by
  rw [State.word_congr (s.capture_regs valid vals)]
  split
  · rfl
  · rw [State.word_set_ne _ _ _ _ hv (s.setAll_wf _ hs), s.word_setAll_ne _ _ hl hs]

theorem State.get_capture_apart (s : State) (valid : Fld) (vals : List (Fld × Nat)) (g : Fld) (hv : valid.apart g = true)
    (hl : ∀ e ∈ vals, e.1.apart g = true) (hs : Regs.wf s.regs = true) : (s.capture valid vals).get g = s.get g := by
  rw [State.get_congr (s.capture_regs valid vals)]
  split
  · rfl
  · rw [State.get_set_apart _ _ _ _ hv (s.setAll_wf _ hs), State.get_setAll_apart _ _ _ hl hs]

/-- A capture leaves VALID set. -/
theorem State.get_capture_valid (s : State) (valid : Fld) (vals : List (Fld × Nat)) (hw : writable valid.addr = true)
    (hf : valid.lo + 1 ≤ 32) (h1 : valid.w = 1) (hs : Regs.wf s.regs = true) : (s.capture valid vals).get valid = 1 := by
  rw [State.get_congr (s.capture_regs valid vals)]
  split
  · rename_i h
    have := s.get_lt valid
    rw [h1] at this
    simp only [State.on, decide_eq_true_eq] at h
    omega
  · rw [State.get_set_same _ _ _ hw (by omega) (s.setAll_wf _ hs), h1]
    rfl

/-- While VALID is set a capture leaves every register as it was (R27, R31, R535). -/
theorem State.word_capture_held (s : State) (valid : Fld) (vals : List (Fld × Nat)) (a : Nat) (h : s.get valid ≠ 0) :
    (s.capture valid vals).word a = s.word a := by
  rw [State.word_congr (s.capture_regs valid vals), if_pos (by simp [State.on, h])]

/-- The first capture since VALID was cleared takes each of its values. -/
theorem State.get_capture_first (s : State) (valid : Fld) (vals : List (Fld × Nat)) (g : Fld) (h : s.get valid = 0)
    (hv : valid.apart g = true) (hs : Regs.wf s.regs = true) : (s.capture valid vals).get g = (s.setAll vals).get g := by
  rw [State.get_congr (s.capture_regs valid vals), if_neg (by simp [State.on, h]), State.get_set_apart _ _ _ _ hv (s.setAll_wf _ hs)]

/-! ### Sound memory -/

theorem State.setDmg_sound (s : State) (l : Nat) (h : s.bnk.damage = []) : s.setDmg l 0 = s := by
  have : SMap.put (fun _ => 0) s.bnk.damage l 0 = s.bnk.damage := by rw [h]; rfl
  unfold State.setDmg
  rw [this]

theorem memStore_append : ∀ (xs ys : List Byte) (m : List Host.Cell) (a : Nat),
    memStore m a (xs ++ ys) = memStore (memStore m a xs) (a + xs.length) ys
  | [], _, _, _ => rfl
  | x :: xs, ys, m, a => by
    show memStore (SMap.put memDefault m a x) (a + 1) (xs ++ ys) = _
    rw [memStore_append xs ys]
    simp only [memStore, List.length_cons]
    congr 1
    omega

theorem State.mstore_append (s : State) (a : Nat) (xs ys : List Byte) :
    s.mstore a (xs ++ ys) = (s.mstore a xs).mstore (a + xs.length) ys := by
  unfold State.mstore
  rw [memStore_append]

theorem State.dmg_sound (s : State) (l : Nat) (h : s.bnk.damage = []) : s.dmg l = 0 := by simp [State.dmg, h]

theorem State.checkLine_sound (s : State) (l : Nat) (h : s.bnk.damage = []) : s.checkLine l 0 = (.clean, s) := by
  simp [State.checkLine, s.dmg_sound l h]

theorem State.writeLine_sound (s : State) (a : Nat) (bs : List Byte) (h : s.bnk.damage = []) : s.writeLine a bs = s.mstore a bs := by
  have hm : (s.mstore a bs).setDmg (a / 32) 0 = s.mstore a bs := State.setDmg_sound _ _ h
  unfold State.writeLine
  split
  · exact hm
  · dsimp only; rw [s.checkLine_sound _ h]; exact hm

theorem State.writeSpan_sound : ∀ (f : Nat) (s : State) (a : Nat) (bs : List Byte), s.bnk.damage = [] → a % 32 + bs.length ≤ 32 * f →
    s.writeSpan f a bs = s.mstore a bs
  | 0, s, a, bs, _, hf => by
    have : bs = [] := List.eq_nil_of_length_eq_zero (by omega)
    subst this; rfl
  | f + 1, s, a, bs, h, hf => by
    unfold State.writeSpan
    split
    · rename_i he
      rw [List.isEmpty_iff.1 he]; rfl
    · rename_i he
      dsimp only
      rw [State.writeLine_sound _ _ _ h]
      by_cases hl : bs.length ≤ 32 - a % 32
      · rw [List.take_of_length_le hl, List.drop_eq_nil_of_le hl]
        cases f <;> simp [State.writeSpan]
      · rw [State.writeSpan_sound f (s.mstore a _) (a + (32 - a % 32)) (bs.drop (32 - a % 32)) h (by rw [List.length_drop]; omega)]
        conv_rhs => rw [← List.take_append_drop (32 - a % 32) bs, State.mstore_append]
        rw [List.length_take, Nat.min_eq_left (by omega)]

/-- A write to lines that are sound stores its bytes and nothing else (R32). -/
theorem State.portPut_sound (s : State) (a : Nat) (bs : List Byte) (h : s.bnk.damage = []) : s.portPut a bs = s.mstore a bs :=
  State.writeSpan_sound _ _ _ _ h (by omega)

/-- An engine that is served by its bank writes its bytes to sound lines and nothing else (R27, R29, R32). -/
theorem State.memWrite_sound (s : State) (a : Nat) (bs : List Byte) (h : s.bnk.damage = []) (hv : s.served (bankOf a) = true) :
    s.memWrite a bs = (s.waitDrain (bankOf a)).mstore a bs := by
  unfold State.memWrite
  dsimp only
  rw [if_pos hv, State.portPut_sound (s.waitDrain (bankOf a)) a bs h]

/-- An engine whose bank is not ON and awake writes nothing (R29). -/
theorem State.memWrite_asleep (s : State) (a : Nat) (bs : List Byte) (h : s.bankReady (bankOf a) = false) : s.memWrite a bs = s := by
  simp [State.memWrite, State.served, h]

/-- An engine that does not own its bank writes nothing, and faults (R27). -/
theorem State.memWrite_refused (s : State) (a : Nat) (bs : List Byte) (h : s.bankReady (bankOf a) = true)
    (hv : s.served (bankOf a) = false) : s.memWrite a bs = s.isolationFault (bankOf a) (engineOf (bankOf a)) := by
  simp [State.memWrite, h, hv]

/-- A line that is sound is read without a change (R30). -/
theorem State.touchLine_sound (s : State) (l : Nat) (h : s.bnk.damage = []) (hv : s.served (l / 16384) = true) :
    s.touchLine l = s.waitDrain (l / 16384) := by
  unfold State.touchLine
  dsimp only
  rw [if_pos hv, State.checkLine_sound (s.waitDrain (l / 16384)) l h]

theorem foldl_check_sound (s : State) (a : Nat) (h : s.bnk.damage = []) : ∀ l : List Nat,
    l.foldl (fun t l => (t.checkLine l (if l = a / 32 then 0 else 0)).2) s = s
  | [] => rfl
  | l :: ls => by
    have : (if l = a / 32 then 0 else 0) = 0 := by split <;> rfl
    rw [List.foldl_cons, this, s.checkLine_sound l h]
    exact foldl_check_sound s a h ls

/-- A read of lines that are sound returns the bytes stored and changes nothing (R30). -/
theorem State.readSpan_sound (s : State) (a n : Nat) (h : s.bnk.damage = []) :
    s.readSpan a n 0 = ((List.range n).map (fun i => s.byte (a + i)), s) := by
  unfold State.readSpan
  rw [foldl_check_sound s a h]
  simp [State.portBytes, State.lineBad, State.dmg_sound s _ h]

/-- What is left of a memory reads as before, and the rest reads 0. -/
theorem keep_get (m : List Host.Cell) (p : Nat → Bool) (a : Nat) (h : Memory.wf m = true) :
    SMap.get memDefault (SMap.keep p m) a = if p a then SMap.get memDefault m a else 0#8 := by
  induction m with
  | nil => simp [SMap.keep, memDefault]
  | cons e t ih =>
    obtain ⟨c, b⟩ := e
    have h' := SMap.wf_cons.1 h
    have ih := ih h'.2.2
    have hk : SMap.keep p ((c, b) :: t) = if p c then (c, b) :: SMap.keep p t else SMap.keep p t := by
      unfold SMap.keep; rw [List.filter_cons]
    rw [hk]
    rcases Nat.lt_trichotomy a c with hlt | heq | hgt
    · have : SMap.get memDefault (SMap.keep p t) a = 0#8 := SMap.get_above (SMap.above_keep h'.1) (by omega)
      split
      · simp [SMap.get, hlt, memDefault]
      · rw [this]; simp [SMap.get, hlt, memDefault]
    · subst heq
      split
      · rename_i hp; simp [SMap.get]
      · exact SMap.get_above (SMap.above_keep h'.1) (by omega)
    · have e1 : SMap.get memDefault ((c, b) :: t) a = SMap.get memDefault t a := by
        rw [SMap.get, if_neg (by omega), if_neg (by omega)]
      rw [e1]
      split
      · rw [SMap.get, if_neg (by omega), if_neg (by omega)]; exact ih
      · exact ih

/-- Zero-filling a bank (R23, R29) leaves every other bank alone. -/
theorem State.zeroBank_byte (s : State) (b a : Nat) (h : Memory.wf s.mem = true) :
    (s.zeroBank b).byte a = if bankOf a ≠ b then s.byte a else 0#8 := by
  unfold State.byte State.zeroBank
  rw [keep_get _ _ _ h]
  by_cases e : bankOf a = b <;> simp [e]

/-- The registers of the bank fabric exist. -/
theorem bank_writable : ∀ b : Fin 48, writable (R.BNK_CTL b) = true ∧ writable (R.BNK_STAT b) = true ∧ R.BNK_CTL b ≠ R.BNK_STAT b := by
  decide

/-! ### What accesses leave unchanged -/

/-- The registers that count and capture what accesses to SRAM meet: those of the bank fabric, and RPL_ERR (R31, R120). -/
def bankWord (a : Nat) : Bool := decide (a / 65536 = 0x2001) || decide (a = R.RPL_ERR)

/-- What an access to SRAM may change besides the bytes: counts, captures and events of its bank (R27, R31), and the draws of open values. -/
structure State.BankFrame (s t : State) : Prop where
  rest : ∃ regs mem bnk raised occ fresh, t = { s with regs := regs, mem := mem, bnk := bnk, raised := raised, occ := occ, fresh := fresh }
  words : Regs.wf s.regs = true → Regs.wf t.regs = true ∧ ∀ a, bankWord a = false → t.word a = s.word a

theorem State.bankFrame_refl (s : State) : s.BankFrame s :=
  ⟨⟨s.regs, s.mem, s.bnk, s.raised, s.occ, s.fresh, rfl⟩, fun h => ⟨h, fun _ _ => rfl⟩⟩

theorem State.BankFrame.andThen {s t u : State} (h : s.BankFrame t) (k : t.BankFrame u) : s.BankFrame u := by
  obtain ⟨⟨_, _, _, _, _, _, rfl⟩, h2⟩ := h
  obtain ⟨⟨_, _, _, _, _, _, rfl⟩, k2⟩ := k
  refine ⟨⟨_, _, _, _, _, _, rfl⟩, fun hs => ?_⟩
  have a := h2 hs
  have b := k2 a.1
  exact ⟨b.1, fun x hx => (b.2 x hx).trans (a.2 x hx)⟩

theorem State.bankFrame_mstore (s : State) (a : Nat) (bs : List Byte) : s.BankFrame (s.mstore a bs) :=
  ⟨⟨_, _, _, _, _, _, rfl⟩, fun h => ⟨h, fun _ _ => rfl⟩⟩

theorem State.bankFrame_setDmg (s : State) (l n : Nat) : s.BankFrame (s.setDmg l n) :=
  ⟨⟨_, _, _, _, _, _, rfl⟩, fun h => ⟨h, fun _ _ => rfl⟩⟩

theorem State.bankFrame_draw (s : State) : s.BankFrame s.draw.2 := ⟨⟨_, _, _, _, _, _, rfl⟩, fun h => ⟨h, fun _ _ => rfl⟩⟩

theorem State.bankFrame_raise (s : State) (c f v : Nat) (d : List (Nat × Nat × Nat)) : s.BankFrame (s.raise c f v d) :=
  ⟨⟨_, _, _, _, _, _, rfl⟩, fun h => ⟨h, fun _ _ => rfl⟩⟩

theorem State.bankFrame_capture (s : State) (valid : Fld) (vals : List (Fld × Nat)) (hv : bankWord valid.addr = true)
    (hl : ∀ e ∈ vals, bankWord e.1.addr = true) : s.BankFrame (s.capture valid vals) := by
  refine ⟨?_, fun hs => ⟨s.capture_wf valid vals hs, fun a ha => s.word_capture_ne valid vals a ?_ ?_ hs⟩⟩
  · refine ⟨(s.capture valid vals).regs, (s.capture valid vals).mem, (s.capture valid vals).bnk, (s.capture valid vals).raised,
      (s.capture valid vals).occ, (s.capture valid vals).fresh, ?_⟩
    have e : (s.capture valid vals) = { s with regs := (s.capture valid vals).regs, occ := (s.capture valid vals).occ } := by
      unfold State.capture
      dsimp only
      split
      · rfl
      · have : ∀ (l : List (Fld × Nat)) (t : State), t.setAll l = { t with regs := (t.setAll l).regs } := by
          intro l
          induction l with
          | nil => intro t; rfl
          | cons x l ih =>
            intro t
            rw [State.setAll_cons, ih]
            rfl
        rw [this]
        rfl
    rw [e]
  · rintro rfl; rw [hv] at ha; cases ha
  · rintro e he rfl; rw [hl e he] at ha; cases ha

theorem State.bankFrame_bump (s : State) (f : Fld) (hf : bankWord f.addr = true) : s.BankFrame (s.bump f) := by
  refine ⟨⟨_, _, _, _, _, _, rfl⟩, fun hs => ⟨s.bumpBy_wf f 1 hs, fun a ha => s.word_bumpBy_ne f 1 a ?_ hs⟩⟩
  rintro rfl; rw [hf] at ha; cases ha

theorem State.bankFrame_isolationFault (s : State) (b g : Nat) : s.BankFrame (s.isolationFault b g) := by
  unfold State.isolationFault
  refine State.BankFrame.andThen ?_ (State.bankFrame_raise _ _ _ _ _)
  refine (s.bankFrame_bump R.BNK_FAULT_COUNT (by decide)).andThen (State.bankFrame_capture _ _ _ (by decide) ?_)
  intro e he
  simp only [List.mem_cons, List.not_mem_nil, or_false] at he
  rcases he with rfl | rfl
  · show bankWord R.BNK_FAULT = true
    decide
  · show bankWord R.BNK_FAULT = true
    decide

theorem State.bankFrame_waitDrain (s : State) (b : Nat) : s.BankFrame (s.waitDrain b) :=
  ⟨⟨_, _, _, _, _, _, rfl⟩, fun h => ⟨h, fun _ _ => rfl⟩⟩

theorem State.bankFrame_uncorrectable (s : State) (l : Nat) (h : l < 2 ^ 24) : s.BankFrame (s.uncorrectable l) := by
  have one : ∀ (t : State) (v f : Fld) (n : Nat), bankWord v.addr = true → bankWord f.addr = true → t.BankFrame (t.capture v [(f, n)]) := by
    intro t v f n hv hf
    refine State.bankFrame_capture _ _ _ hv ?_
    intro e he
    simp only [List.mem_cons, List.not_mem_nil, or_false] at he
    rw [he]
    exact hf
  unfold State.uncorrectable
  dsimp only
  refine State.BankFrame.andThen ?_ (State.bankFrame_raise _ _ _ _ _)
  have a : s.BankFrame ((s.bump (R.BNK_STAT_UNCORR (l / 16384))).capture R.BNK_ERRADDR_VALID [(R.BNK_ERRADDR_LINE, l)]) := by
    refine (s.bankFrame_bump (R.BNK_STAT_UNCORR (l / 16384)) ?_).andThen (one _ _ _ _ (by decide) (by decide))
    show (decide ((0x20010100 + 4 * (l / 16384)) / 65536 = 0x2001) || _) = true
    rw [decide_eq_true (by omega)]
    rfl
  split
  · exact a.andThen (one _ _ _ _ (by decide) (by decide))
  · exact a

theorem State.bankFrame_checkLine (s : State) (l err : Nat) (h : l < 2 ^ 24) : s.BankFrame (s.checkLine l err).2 := by
  unfold State.checkLine
  dsimp only
  split
  · exact s.bankFrame_refl
  · split
    · exact ⟨⟨_, _, _, _, _, _, rfl⟩, fun h => ⟨h, fun _ _ => rfl⟩⟩
    · split
      · exact ((s.bankFrame_draw.andThen (State.bankFrame_draw _)).andThen (State.bankFrame_mstore _ _ _)).andThen
          (State.bankFrame_setDmg _ _ _)
      · exact (s.bankFrame_draw.andThen (State.bankFrame_setDmg _ _ _)).andThen (State.bankFrame_uncorrectable _ _ h)

theorem State.bankFrame_writeLine (s : State) (a : Nat) (bs : List Byte) (h : a < 2 ^ 29) : s.BankFrame (s.writeLine a bs) := by
  unfold State.writeLine
  dsimp only
  split
  · exact (s.bankFrame_mstore a bs).andThen (State.bankFrame_setDmg _ _ _)
  · have := s.bankFrame_checkLine (a / 32) 0 (by omega)
    generalize s.checkLine (a / 32) 0 = c at this ⊢
    obtain ⟨k, t⟩ := c
    cases k with
    | uncorrectable => exact this
    | _ => exact (this.andThen (State.bankFrame_mstore _ _ _)).andThen (State.bankFrame_setDmg _ _ _)

/-- A write through a port changes SRAM, and of the rest only what its lines' errors count, capture and raise (R31, R32). -/
theorem State.bankFrame_portPut (s : State) (a : Nat) (bs : List Byte) (h : a + bs.length ≤ 2 ^ 29) : s.BankFrame (s.portPut a bs) := by
  unfold State.portPut
  generalize bs.length / 32 + 2 = f
  induction f generalizing s a bs with
  | zero => exact s.bankFrame_refl
  | succ f ih =>
    unfold State.writeSpan
    split
    · exact s.bankFrame_refl
    · rename_i he
      have : 0 < bs.length := List.length_pos_iff.2 (by simpa using he)
      refine (s.bankFrame_writeLine a (bs.take (32 - a % 32)) (by omega)).andThen ?_
      dsimp only
      by_cases hd : bs.drop (32 - a % 32) = []
      · rw [hd]
        cases f <;> simp [State.writeSpan, State.bankFrame_refl]
      · have hl : 32 - a % 32 < bs.length := by
          by_contra hc; exact hd (List.drop_eq_nil_of_le (by omega))
        exact ih _ _ _ (by rw [List.length_drop]; omega)

/-- A write of an engine changes SRAM, and of the rest only what its bank counts, captures and raises (R27, R31). -/
theorem State.bankFrame_memWrite (s : State) (a : Nat) (bs : List Byte) (h : a + bs.length ≤ 2 ^ 29) : s.BankFrame (s.memWrite a bs) := by
  unfold State.memWrite
  dsimp only
  split
  · exact (s.bankFrame_waitDrain _).andThen (State.bankFrame_portPut _ a bs h)
  · split
    · exact s.bankFrame_isolationFault _ _
    · exact s.bankFrame_refl

/-- A line that an engine reads changes only what its bank counts, captures and raises (R27, R31). -/
theorem State.bankFrame_touchLine (s : State) (l : Nat) (h : l < 2 ^ 24) : s.BankFrame (s.touchLine l) := by
  unfold State.touchLine
  dsimp only
  split
  · exact (s.bankFrame_waitDrain _).andThen (State.bankFrame_checkLine _ l 0 h)
  · split
    · exact s.bankFrame_isolationFault _ _
    · exact s.bankFrame_refl

end Sys2Proof.Machine
end

