-- ==== Sys2Proof/Laws/Memory.lean ====
section
/-!
SUPPORT. Every operation of the memory fabric keeps the canonical form of SRAM: a line checked, a span read or written, a bank
zero-filled, the two halves of an access.
-/
namespace Sys2Proof.Machine

/-- An uncorrectable line leaves SRAM as it is. -/
@[simp] theorem State.uncorrectable_mem (s : State) (l : Nat) : (s.uncorrectable l).mem = s.mem := by
  simp only [State.uncorrectable]
  split <;> simp

/-- An isolation fault leaves SRAM as it is. -/
@[simp] theorem State.isolationFault_mem (s : State) (b agent : Nat) : (s.isolationFault b agent).mem = s.mem := by
  simp [State.isolationFault]

@[simp] theorem State.drawChunks_mem : ∀ (k : Nat) (s : State), (State.drawChunks k s).2.mem = s.mem
  | 0, _ => rfl
  | k + 1, s => by simp only [State.drawChunks]; rw [State.drawChunks_mem k]; rfl

@[simp] theorem State.drawBytes_mem (s : State) (n : Nat) : (s.drawBytes n).2.mem = s.mem := by simp [State.drawBytes]

/-- A line checked keeps the canonical form. -/
theorem State.checkLine_wf (s : State) (l err : Nat) (h : Memory.wf s.mem = true) : Memory.wf (s.checkLine l err).2.mem = true := by
  simp only [State.checkLine]
  split
  · exact h
  · split
    · exact h
    · split
      · rw [State.setDmg_mem]
        exact State.mstore_wf _ _ _ (by simpa using h)
      · simpa using h

/-- A span read keeps the canonical form. -/
theorem State.readSpan_wf (s : State) (a n err : Nat) (h : Memory.wf s.mem = true) : Memory.wf (s.readSpan a n err).2.mem = true := by
  simp only [State.readSpan]
  generalize linesOf a n = ls
  induction ls generalizing s with
  | nil => exact h
  | cons l t ih => exact ih _ (s.checkLine_wf l _ h)

/-- The part of a write in one line keeps the canonical form. -/
theorem State.writeLine_wf (s : State) (a : Nat) (bs : List Byte) (h : Memory.wf s.mem = true) :
    Memory.wf (s.writeLine a bs).mem = true := by
  simp only [State.writeLine]
  split
  · rw [State.setDmg_mem]
    exact State.mstore_wf _ _ _ h
  · have k := s.checkLine_wf (a / 32) 0 h
    split
    · rename_i e; rw [e] at k; exact k
    · rename_i e; rw [e] at k; rw [State.setDmg_mem]; exact State.mstore_wf _ _ _ k

/-- A write of many lines keeps the canonical form. -/
theorem State.writeSpan_wf : ∀ (f : Nat) (s : State) (a : Nat) (bs : List Byte), Memory.wf s.mem = true →
    Memory.wf (s.writeSpan f a bs).mem = true
  | 0, _, _, _, h => h
  | f + 1, s, a, bs, h => by
    simp only [State.writeSpan]
    split
    · exact h
    · exact State.writeSpan_wf f _ _ _ (s.writeLine_wf a _ h)

/-- A write of bytes through a port keeps the canonical form. -/
theorem State.portPut_wf (s : State) (a : Nat) (bs : List Byte) (h : Memory.wf s.mem = true) : Memory.wf (s.portPut a bs).mem = true :=
  State.writeSpan_wf _ s a bs h

/-- A write of bytes by the engine of a bank keeps the canonical form. -/
theorem State.memWrite_wf (s : State) (a : Nat) (bs : List Byte) (h : Memory.wf s.mem = true) : Memory.wf (s.memWrite a bs).mem = true := by
  simp only [State.memWrite]
  split
  · exact State.portPut_wf (s.waitDrain (bankOf a)) a bs h
  · split
    · simpa using h
    · exact h

/-- A line read by the engine of its bank keeps the canonical form. -/
theorem State.touchLine_wf (s : State) (l : Nat) (h : Memory.wf s.mem = true) : Memory.wf (s.touchLine l).mem = true := by
  simp only [State.touchLine]
  split
  · exact State.checkLine_wf (s.waitDrain (l / 16384)) l 0 h
  · split
    · simpa using h
    · exact h

/-- A span read by the engine of its bank keeps the canonical form. -/
theorem State.touch_wf (s : State) (a n : Nat) (h : Memory.wf s.mem = true) : Memory.wf (s.touch a n).mem = true := by
  unfold State.touch
  generalize linesOf a n = ls
  induction ls generalizing s with
  | nil => exact h
  | cons l t ih => exact ih _ (s.touchLine_wf l h)

/-- A bank filled with zeros keeps the canonical form. -/
theorem State.zeroBank_wf (s : State) (b : Nat) (h : Memory.wf s.mem = true) : Memory.wf (s.zeroBank b).mem = true := by
  simp only [State.zeroBank]
  exact zeroFill_wf _ h

/-- The read half of an access keeps the canonical form. -/
theorem State.portRead_wf (s : State) (reader : Bool) (x : Access) (h : Memory.wf s.mem = true) :
    Memory.wf (s.portRead reader x).2.mem = true := by
  simp only [State.portRead]
  split
  · exact h
  · split
    · exact s.readSpan_wf _ _ _ h
    · simpa using h
    · exact h

/-- The write half of an access keeps the canonical form. -/
theorem State.portWrite_wf (s : State) (x : Access) (h : Memory.wf s.mem = true) : Memory.wf (s.portWrite x).mem = true := by
  simp only [State.portWrite]
  split
  · exact h
  · split
    · exact s.portPut_wf _ _ h
    · simpa using h
    · exact h

/-- A change of a bank's power state keeps the canonical form. -/
theorem State.power_wf (s : State) (p : Path) (b pwr : Nat) (h : Memory.wf s.mem = true) : Memory.wf (s.power p b pwr).mem = true := by
  simp only [State.power]
  split
  · exact h
  · split
    · simpa using h
    · split
      · exact State.zeroBank_wf _ b (by simpa using h)
      · simpa using h

end Sys2Proof.Machine
end

