-- ==== Sys2Proof/Tests/Slice0.lean ====
section
/-!
SUPPORT. Tests.  Ill-formed operands that the check refuses; for every statement with hypotheses a named theorem that shows states
and operands that meet them, clause by clause; worked examples of the manual on single operations.
-/
namespace Sys2Proof.Tests
open Sys2Proof Sys2Proof.Machine

-- One theorem at a time: each evaluation in the kernel holds much memory.
set_option Elab.async false

/-! ### Ill-formed operands -/

/-- A sample set of a tick. -/
def quiet : TickIn := ⟨List.replicate 24 0, [0, 0, 0, 0], List.replicate 2 ⟨true, false, false, 0, 0, true⟩, 4, 4⟩

theorem wf_tick : (Instr.tickCapture quiet).wellFormed = true ∧
    (Instr.tickCapture { quiet with samples := [0] }).wellFormed = false ∧
    (Instr.tickCapture { quiet with exc := [] }).wellFormed = false ∧
    (Instr.tickCapture { quiet with samples := 8388608 :: List.replicate 23 0 }).wellFormed = false ∧
    (Instr.tickCapture { quiet with chg := [] }).wellFormed = false ∧
    (Instr.tickCapture { quiet with chg := List.replicate 2 ⟨true, false, false, 40000, 0, true⟩ }).wellFormed = false := by decide +kernel

theorem wf_access : (Instr.bankAccess ⟨1, 0, none, 32, 0⟩ none).wellFormed = true ∧
    (Instr.bankAccess ⟨15, 0, none, 32, 0⟩ none).wellFormed = false ∧ (Instr.bankAccess ⟨1, 16, none, 32, 0⟩ none).wellFormed = false ∧
    (Instr.bankAccess ⟨1, 0, none, 32, 37⟩ none).wellFormed = false ∧
    (Instr.bankAccess ⟨1, 16, some (List.replicate 17 0#8), 0, 0⟩ none).wellFormed = false ∧
    (Instr.bankAccess ⟨1, 0, none, 1, 0⟩ (some ⟨1, 2 ^ 32, none, 1, 0⟩)).wellFormed = false := by decide +kernel

theorem wf_release : (Instr.resetRelease ⟨true, true, 0, 0, 0, 0, [1, 2, 3, 4, 5, 6, 7], none⟩).wellFormed = true ∧
    (Instr.resetRelease ⟨true, true, 0, 0, 0, 0, [1], none⟩).wellFormed = false ∧
    (Instr.resetRelease ⟨true, true, 0, 0, 0, 0, [7, 6, 5, 4, 3, 2, 1], none⟩).wellFormed = false ∧
    (Instr.resetRelease ⟨true, true, 0, 0, 0, 0, [1, 2, 3, 4, 5, 6, 7], some ⟨0, 1, some 64, none, true⟩⟩).wellFormed = false := by decide +kernel

theorem wf_arguments : (Instr.insert ⟨2 ^ 32, 0, 0, 0⟩).wellFormed = false ∧ (Instr.hfree ⟨0, 0, 0, 2 ^ 32⟩).wellFormed = false ∧
    (Instr.registerWrite .h 0 2 0 0 false).wellFormed = false ∧ (Instr.registerWrite .h 0 2 0 0 true).wellFormed = true ∧
    (Instr.unmappedAccess .h (2 ^ 32)).wellFormed = false ∧ (Instr.testacc (2 ^ 32) none).wellFormed = false ∧
    (Instr.correctedLineWriteback 786432).wellFormed = false ∧ (Instr.scrub [(0, 37)] []).wellFormed = false ∧
    (Instr.windowZeroing 131073).wellFormed = false ∧ (Instr.temperatureFactorUpdate 32768 none).wellFormed = false ∧
    (Instr.sillageWindow []).wellFormed = false ∧ (Instr.slaveDownReceived (some (2 ^ 32))).wellFormed = false := by decide +kernel

theorem wf_messages : (Instr.ack (some ⟨3, [1#8, 2#8, 3#8, 4#8], 5, []⟩)).wellFormed = true ∧
    (Instr.ack (some ⟨4, [1#8, 2#8, 3#8, 4#8], 5, []⟩)).wellFormed = false ∧ (Instr.ack (some ⟨3, [], 5, []⟩)).wellFormed = false ∧
    (Instr.syncReceived ⟨3, 0, 0, 0, 0, 0, true, 0, 0, 0, none, 0⟩).wellFormed = false ∧
    (Instr.syncReceived ⟨0, 0, 0, 0, 0, 0, true, 0, 1000000000, 0, none, 0⟩).wellFormed = false ∧
    (Instr.syncReceived ⟨0, 0, 0, 0, 0, 0, true, 0, 0, 0, some 40000, 0⟩).wellFormed = false ∧
    (Instr.plcTransmitRequest 0 0 []).wellFormed = false ∧ (Instr.cipStart 5 0 [(2, 0#32)]).wellFormed = false ∧
    (Instr.block 0 0 1 1 (List.replicate 192 0#8)).wellFormed = false ∧ (Instr.serialReply 0 0 0 []).wellFormed = false ∧
    (Instr.block 0 0 0 0 []).wellFormed = true ∧ (Instr.pauseReceived 0 1 [2 ^ 17]).wellFormed = false ∧
    (Instr.ethFrameReceived 0 true []).wellFormed = false ∧ (Instr.tripIslandTimer 0 ⟨true, false, false, 0, 2 ^ 32, true⟩).wellFormed = false ∧
    (Instr.tripIslandTimer 0 ⟨true, false, false, 3, 8, true⟩).wellFormed = false ∧
    (Instr.syncSend (2 ^ 17)).wellFormed = false ∧
    (Instr.mount (List.replicate 5 ⟨true, 1, 16384, 1024, 64, 1, 1, 0, 0, 1⟩) []).wellFormed = false ∧
    (Instr.mount [⟨true, 256, 16384, 1024, 64, 1, 1, 0, 0, 1⟩] []).wellFormed = false ∧
    (Instr.mapSegmentWrite (2 ^ 32) true).wellFormed = false ∧ (Instr.temperatureHistogram [40000]).wellFormed = false := by decide +kernel

/-! ### Small states -/

/-- A device that runs, in the compute and in the commit phase of tick 0, with every register at reset. -/
def dev : State := { State.reset with phase := .compute }
def devC : State := { State.reset with phase := .commit }

/-- The same in a late tick. -/
def old : State := { dev with tsq := { dev.tsq with tick := 1000000000 } }
def oldC : State := { devC with tsq := { devC.tsq with tick := 1000000000 } }

/-- In TEST and in FIELD. -/
def devTest : State := dev.set R.KEY_LC_STATE 1
def devField : State := dev.set R.KEY_LC_STATE 2

/-- With a session of the head end. -/
def devUp : State := dev.set R.SUP_STAT_UPSTATE 2

/-- `fieldPassed` and `writePassed` as computations. -/
def wpasses (s : State) (p : Path) (g a : Nat) (mask value bits : Word) : Bool :=
  decide (s.phase = .capture ∨ s.phase = .compute) && s.pathOpen p && decide (bits ≠ 0) &&
    !(decide (p = .fw ∧ a = R.DIR_CMD) && s.on R.PRT_CTL_DIRHOLD) &&
    !(s.ownPage g a && (s.page (a / 256 % 256)).busy && !s.zeroOp a mask value) && (match rowAt a with
    | none => false
    | some r => !s.pageRefused p g a r && decide (s.bars p a mask value (s.judgeRow p a mask value r) = ⟨bits, false, false⟩))

def passes (s : State) (p : Path) (f : Fld) (v : Nat) : Bool := wpasses s p (agentOf p 0) f.addr f.mask (f.write 0 v) f.mask

theorem wpasses_sound {s : State} {p : Path} {g a : Nat} {mask value bits : Word} (h : wpasses s p g a mask value bits = true) :
    writePassed s p g a mask value bits := by
  simp only [wpasses, Bool.and_eq_true, decide_eq_true_eq] at h
  obtain ⟨⟨⟨⟨⟨h1, h2⟩, h3⟩, h4⟩, h5⟩, h6⟩ := h
  refine ⟨h1, h2, h3, fun h => ?_, fun h => ?_, ?_⟩
  · simp [h.1, h.2.1, h.2.2] at h4
  · simp [h.1, h.2.1, h.2.2] at h5
  · split at h6
    · exact absurd h6 (by simp)
    · rename_i r hr
      rw [Bool.and_eq_true, decide_eq_true_eq] at h6
      exact ⟨r, hr, by simpa using h6.1, h6.2⟩

theorem passes_sound {s : State} {p : Path} {f : Fld} {v : Nat} (h : passes s p f v = true) : fieldPassed s p f v := wpasses_sound h

/-- `stands` as a computation. -/
def standing (s : State) (p : Path) (g a : Nat) (bits value : Word) : Bool :=
  match rowAt a with
  | none => true
  | some r => decide (s.stillLegal ⟨p, g, a, bits, value⟩ r bits = { mask := bits })

theorem stands_sound {s : State} {p : Path} {g a : Nat} {bits value : Word} (h : standing s p g a bits value = true) :
    s.stands p g a bits value := by
  intro r hr
  rw [standing, hr] at h
  exact of_decide_eq_true h

theorem fieldStands_sound {s : State} {p : Path} {f : Fld} {v : Nat} (h : standing s p (agentOf p 0) f.addr f.mask (f.write 0 v) = true) :
    s.fieldStands p f v := stands_sound h

/-- The phases in which inputs are taken, as a computation. -/
def hears (s : State) : Bool := decide (s.phase = .capture ∨ s.phase = .compute)

theorem hears_sound {s : State} (h : hears s = true) : s.listening :=
  show s.phase = .capture ∨ s.phase = .compute from of_decide_eq_true h

/-! ### States and operands that meet the hypotheses of the completion statements, clause by clause -/

/-- A plan of one engine slot. -/
def plan1 : State := { dev with tsq := { dev.tsq with plan := [⟨0x10, 0, 0, 0, 1000⟩] } }

theorem meets_TickCommandsComplete :
    (devC.up = true ∧ devC.phase = .commit) ∧ dev.phase = .compute ∧
    (plan1.phase = .compute ∧ plan1.tsq.plan[0]? = some ⟨0x10, 0, 0, 0, 1000⟩ ∧ Slot.activeIn ⟨0x10, 0, 0, 0, 1000⟩ plan1.now = true ∧
      plan1.ranNow 0 = false ∧ plan1.slotTurn 0 ⟨0x10, 0, 0, 0, 1000⟩ = true ∧ plan1.execRuns ⟨0x10, 0, 0, 0, 1000⟩ = true) ∧
    ((plan1.putRun 0 { overrun := some 5 }).up = true ∧ (plan1.putRun 0 { overrun := some 5 }).tsq.plan[0]? = some ⟨0x10, 0, 0, 0, 1000⟩ ∧
      ((plan1.putRun 0 { overrun := some 5 }).slotRun 0).overrun = some 5) ∧
    (({ old with tsq := { old.tsq with newPlan := some [] } } : State).up = true ∧
      ({ old with tsq := { old.tsq with newPlan := some [] } } : State).tsq.proven < old.now) := by decide +kernel

/-- A device with a staged firmware image of identifier 7 and no companion, whose ACTIVATE fence has ended. -/
def staged : State :=
  let s := dev.set R.UPD_STAT_FSTG 2
  { s with
    nor := s.nor.setSlot 1 (1 - s.nor.record.slotOf 1) (List.replicate 8 0#8 ++ [7#8] ++ List.replicate 247 0#8)
    sup := { s.sup with activate := some (none, 7, 1) } }

/-- A device whose registers are locked, and the same after three recovery restarts within the hour. -/
def locked : State := { dev with locked := true }
def locked3 : State := { locked with isl := { locked.isl with recov := [0, 0, 0] } }

theorem meets_ResetCommandsComplete :
    ({ State.reset with isl := { State.reset.isl with dead := true } } : State).isl.dead = true ∧
    (dev.up = true ∧ dev.isl.warned = false) ∧
    (State.reset.phase = .held ∧ State.reset.isl.dead = false ∧ State.reset.isl.halted = false) ∧
    (staged.up = true ∧ staged.sup.activate = some (none, 7, 1) ∧ staged.fenceEnded 1 = true ∧ staged.isl.warned = false ∧
      staged.activation 7 = some [1]) ∧
    (locked.up = true ∧ locked.on R.CFG_STAT_SAFE = false ∧ locked.locked = true ∧ locked.isl.warned = false ∧
      (locked.isl.recov.filter (fun r => decide (locked.get R.ISL_OPSEC_SEC < r + 3600))).length < 3) ∧
    (locked3.up = true ∧ locked3.on R.CFG_STAT_SAFE = false ∧ locked3.locked = true ∧ locked3.isl.warned = false ∧
      3 ≤ (locked3.isl.recov.filter (fun r => decide (locked3.get R.ISL_OPSEC_SEC < r + 3600))).length) := by decide +kernel

/-- A device whose banks are READY. -/
def ready : State := dev.readyBanks

/-- A line that waits for its write-back, a bank that wakes from OFF. -/
def wback1 : State := { dev with bnk := { dev.bnk with wback := [5], damage := [(5, 1)] } }
def waking : State := { old with bnk := { old.bnk with wake := [(3, (9, true))] } }

theorem meets_BankCommandsComplete :
    ((ready.up = true ∧ (⟨1, 0, none, 32, 0⟩ : Access).wr = none ∧ Access.inSram ⟨1, 0, none, 32, 0⟩ = true ∧ ready.grants (bankOf 0) 1 = .ok) ∧
    ((⟨1, 0, some [1#8], 0, 0⟩ : Access).wr = some [1#8] ∧ Access.inSram ⟨1, 0, some [1#8], 0, 0⟩ = true) ∧
    (wback1.up = true ∧ 5 ∈ wback1.bnk.wback ∧ wback1.dmg 5 ≤ 2) ∧
    (dev.up = true ∧ dev.ownerOpen .fw 0 = true ∧ dev.owner 0 ≠ 2) ∧
    (waking.up = true ∧ SMap.get (fun _ => (0, false)) waking.bnk.wake 3 = (9, true) ∧ 9 ≤ waking.now ∧
      waking.get (R.BNK_CTL_PWR 3) = 0)) ∧
    (fieldPassed dev .fw (R.BNK_CTL_OWNER 0) 2 ∧ fieldPassed dev .fw (R.BNK_CTL_PWR 0) 1) ∧
    (dev.fieldStands .fw (R.BNK_CTL_OWNER 0) 2 ∧ dev.fieldStands .fw (R.BNK_CTL_PWR 0) 1) :=
  ⟨by decide +kernel, ⟨passes_sound (by decide +kernel), passes_sound (by decide +kernel)⟩,
    fieldStands_sound (by decide +kernel), fieldStands_sound (by decide +kernel)⟩

theorem meets_BusCommandsComplete :
    (writePassed dev .fw (agentOf .fw 0) (R.CHG_AARG 0) 0xFFFFFFFF#32 5#32 0xFFFFFFFF#32 ∧ ¬ actsAtOnce (R.CHG_AARG 0)) ∧ dev.listening ∧
    (sramEnd ≤ R.CHG_AARG 0 ∧ dev.pathOpen .fw = true ∧ 0 < sramEnd ∧ devC.phase = .commit ∧ sramEnd ≤ 0x30000000 ∧
      rowAt (0x30000000 / 4 * 4) = none) :=
  ⟨⟨wpasses_sound (by decide +kernel), by unfold actsAtOnce; decide +kernel⟩, hears_sound (by decide +kernel), by decide +kernel⟩

/-- A queue with an open frame past its deadline, one with a record in its spill area, and one with a record behind it. -/
def framed : State := oldC.putQueue 6 { frame := some { fcnt := 1, words := [], deadline := 4 } }
def spilled : State := dev.putQueue 6 { spill := [0] }
def trailed : State := dev.putQueue 6 { tail := [⟨0, 0⟩] }

theorem meets_QueueCommandsComplete :
    ((framed.phase = .commit ∧ (framed.queue 6).frame = some { fcnt := 1, words := [], deadline := 4 } ∧ 4 ≤ framed.now) ∧
    (spilled.up = true ∧ (spilled.queue 6).head.length < 16 ∧ (spilled.queue 6).spill = 0 :: []) ∧
    (trailed.up = true ∧ (trailed.queue 6).head.length < 16 ∧ (trailed.queue 6).spill = [] ∧ (trailed.queue 6).tail = ⟨0, 0⟩ :: []) ∧
    dev.up = true ∧ Regs.wf dev.regs = true) ∧ dev.listening ∧
    fieldPassed dev .fw (R.QUE_CTL_MODE 6) (b2n true) ∧ fieldPassed dev .fw (R.QUE_RING_RPTR 6) 0 ∧
    fieldPassed dev .fw (R.QUE_CTL_FENCE 6) (b2n true) :=
  ⟨by decide +kernel, hears_sound (by decide +kernel), passes_sound (by decide +kernel), passes_sound (by decide +kernel),
    passes_sound (by decide +kernel)⟩

theorem meets_AdmissionCommandsComplete :
    (dev.phase = .compute ∧ (dev.lane 0).next ≤ 3) ∧ (dev.up = true ∧ dev.unsent 6 = 0) ∧ (dev.lane 2).resume ≤ dev.now := by decide +kernel

theorem meets_DirectoryCommandsComplete : dev.up = true ∧ dev.val.dirCmd = none ∧ dev.on R.PRT_CTL_DIRHOLD = false ∧
    DirArgs.wf ⟨0x00A00001, 0, 0, 0⟩ = true := by decide +kernel

/-- A window being zeroed; a fill under way with a Base note; a re-derivation. -/
def zeroing : State := dev.setAll [(R.RPL_STAT_ZEROING, 1), (R.RPL_STAT_LEFT, 3)]
def filling : State := { devTest with
  val := { devTest.val with fill := some 0, rederive := true }
  isl := { devTest.isl with keys := { devTest.isl.keys with rootT := some (List.replicate 32 0#8) } } }

theorem meets_WindowCommandsComplete :
    (zeroing.up = true ∧ zeroing.on R.RPL_STAT_ZEROING = true) ∧
    (filling.up = true ∧ filling.val.fill = some 0 ∧ filling.baseNote ≠ none ∧ filling.val.scanFrom ≤ filling.now) ∧
    (filling.val.rederive = true ∧ filling.val.deriveFrom ≤ filling.now) := by decide +kernel

/-- Balance runs and a boundary has passed; the oldest interval has settled; balance waits for its start. -/
def balOpen : State :=
  let s := dev.setAll [(R.BAL_STAT_RUN, 1), (R.BAL_CUR_CUR, 9)]
  { s with bal := { s.bal with last := some 8 }, tim := { s.tim with start := 9 * 900 * secUnits } }
def balClose : State := { balOpen with phase := .commit, bal := { balOpen.bal with last := some balOpen.curInt, ivs := [{ n := 2, t0 := 0 }] } }
def balWait : State := dev.set R.TIM_STAT_VALID 1

theorem meets_BalanceCommandsComplete :
    ((balOpen.up = true ∧ balOpen.on R.BAL_STAT_RUN = true ∧ balOpen.bal.last = some 8 ∧ 8 < balOpen.curInt) ∧
    (balClose.phase = .commit ∧ balClose.bal.ivs = { n := 2, t0 := 0 } :: [] ∧ balClose.bal.last = some balClose.curInt ∧
      2 + 1 + balClose.get R.BAL_CTL_SETTLE ≤ balClose.curInt) ∧
    (balWait.up = true ∧ balWait.on R.BAL_STAT_RUN = false ∧ balWait.on R.TIM_STAT_VALID = true ∧
      balWait.afterOrigin balWait.tim.start = true)) ∧
    fieldPassed dev .fw R.BAL_RPTPOP_POP 1 :=
  ⟨by decide +kernel, passes_sound (by decide +kernel)⟩

/-- Metering states: four ticks of samples; a second's sums; a lock; groups on with long cycles; mounted storage; pulses; battery. -/
def metered : State := { dev with mtr := { dev.mtr with started := true, seen := 4, done := some { n := 8000 }, inst := [10 ^ 15, 10 ^ 15, 10 ^ 15, 10 ^ 15] } }
def tracked : State := { metered.set R.MTR_CTL_VEN 4 with mtr := { metered.mtr with zc := SMap.put zc0 [] 2 { zc0 2 with lock := some (0, true, 655360000000) } } }
def cycled : State :=
  let s := metered.setAll [(R.MTR_CTL_GEN, 15), (R.MTR_STAT_VALID, 1)]
  { s with mtr := { s.mtr with cycles := [(4, { ticks := 200 }), (5, { ticks := 200 })] } }
def saving : State :=
  let s := old.setAll [(R.FTL_STAT_STATE, 1), (R.NRG_CTL_SAVEP, 60)]
  { s with ftl := { s.ftl with mounted := true }, tim := { s.tim with start := 100 * secUnits } }
def pulsing : State := { oldC with mtr := { oldC.mtr with pulses := [(0, { ready := true }), (1, { start := some 1, active := true })] } }
def onBattery : State :=
  let s := State.reset.set R.SIL_CTL_EN 1
  { s with isl := { s.isl with battery := true, sil := { s.isl.sil with window := 16 } } }

theorem meets_MeteringCommandsComplete :
    ((metered.up = true ∧ metered.mtr.started = true ∧ 4 ≤ metered.mtr.seen ∧ metered.on R.MTR_STAT_VALID = false) ∧
    (metered.mtr.done = some { n := 8000 } ∧ (8000 : Nat) ≠ 0) ∧
    (tracked.up = true ∧ (tracked.zcx 2).lock = some (0, true, 655360000000) ∧ tracked.mtr.inst[3]? = some (10 ^ 15) ∧
      0 + 875000 * nsU ≤ (10 : Int) ^ 15 ∧ (tracked.get R.MTR_CTL_VEN).testBit (2 : Fin 7) = true) ∧
    (cycled.up = true ∧ cycled.groupOn 1 = true ∧ cycled.on R.MTR_STAT_VALID = true ∧
      200 ≤ (SMap.get cycle0 cycled.mtr.cycles (4 * 1 + 1)).ticks ∧ 200 ≤ (SMap.get cycle0 cycled.mtr.cycles (4 * 1 + 0)).ticks) ∧
    (saving.up = true ∧ saving.ftl.mounted = true ∧ saving.regionOpen 2 = true ∧ saving.isl.warned = false ∧ saving.bufferFree = true ∧
      saving.get R.NRG_CTL_SAVEP ≠ 0 ∧ saving.mtr.saveAt + saving.get R.NRG_CTL_SAVEP ≤ secOf saving.tim.start) ∧
    (pulsing.phase = .commit ∧ (SMap.get pulse0 pulsing.mtr.pulses 0).start = none ∧ (SMap.get pulse0 pulsing.mtr.pulses 0).active = false ∧
      (SMap.get pulse0 pulsing.mtr.pulses 0).hold ≤ pulsing.now + 1 ∧ (SMap.get pulse0 pulsing.mtr.pulses 0).ready = true) ∧
    ((SMap.get pulse0 pulsing.mtr.pulses 1).start = some 1 ∧ (SMap.get pulse0 pulsing.mtr.pulses 1).active = true ∧
      1 + pulsing.get (R.NRG_PCFG_WIDTH 1) ≤ pulsing.now + 1) ∧
    (onBattery.sillageOn = true ∧ onBattery.get R.BAT_STAT_VBAT < 2900 ∧ 2900 ≤ (onBattery.set R.BAT_STAT_VBAT 3000).get R.BAT_STAT_VBAT ∧
      (onBattery.set R.BAT_STAT_VBAT 3000).sillageOn = true) ∧
    (onBattery.isl.sil.window = 16 ∧ Regs.wf dev.regs = true)) ∧
    (fieldPassed dev .fw R.NRG_CTL_ADD 1 ∧ fieldPassed devUp .h R.SIL_CLR_CLR 1) ∧
    (dev.fieldStands .fw R.NRG_CTL_ADD 1 ∧ devUp.fieldStands .h R.SIL_CLR_CLR 1) :=
  ⟨by decide +kernel, ⟨passes_sound (by decide +kernel), passes_sound (by decide +kernel)⟩,
    fieldStands_sound (by decide +kernel), fieldStands_sound (by decide +kernel)⟩

/-! A power-line master on port 0, and PLC3 as a station: both ports READY at 50 Hz with half-cycle 50 predicted ahead. -/

/-- A tracker that predicts half-cycle 50 one second ahead. -/
def zcAhead : Zc := { lock := some (10 ^ 18 + 65536000000000, true, 655360000000), n := 50 }

def mains (p role : Nat) : State :=
  let s := old.setAll [(R.PLC_CTL_EN p, 1), (R.PLC_CTL_ZSRC p, 0), (R.PLC_STAT_READY p, 1), (R.ZCX_STAT_FCLASS 0, 1), (R.PLK_CTL_ROLE p, role)]
  { s with mtr := { s.mtr with inst := [10 ^ 18, 10 ^ 18, 10 ^ 18, 10 ^ 18], zc := SMap.put zc0 [] 0 zcAhead } }

def master : State := mains 0 1
def station : State := (mains 3 2).setAll [(R.PLK_STAT_JOINED 3, 1), (R.PLK_ADDR_ADDR 3, 5)]

/-- A reception on port 0 whose header has been decoded and whose last burst has passed. -/
def receiving : State :=
  let s := mains 0 0
  { s.putPlc 0 { done := [{ hc := 40, seen := 3, head := some (1, 5) }] } with mtr := s.mtr }

/-- The same frame without an error: five bytes under the Reed-Solomon code, before descrambling. -/
def clean : List Byte := bytesOfBits 21 (scramble 127 (bitsOfBytes (rsEncode [0x11#8, 0x22#8, 0x33#8, 0x44#8, 0x55#8])))

/-- A port without a link layer; a port about to send a burst; ports with a frame of the link layer that waits; a reception whose header
is awaited. -/
def bare : State := mains 0 0
def sending : State := { bare.putPlc 0 { tx := some { mod := 1, psdu := [1#8], bursts := [[[]]], hc := 50 } } with
  mtr := bare.mtr, tsq := { bare.tsq with len := 1000000000 } }
def queued (p role : Nat) : State := (mains p role).putLink p { sendq := [(1, 40, [1#8])] }
def synced : State := dev.putPlc 0 { rx := some { hc := 40, seen := 3 } }

/-- A burst on its mark whose preamble and noise are without faults. -/
def cleanBurst : BurstIn := ⟨0, 0, 0, []⟩

theorem meets_PlcCommandsComplete :
    ((bare.up = true ∧ bare.isMaster 0 = false ∧ bare.isSlave 0 = false ∧
      bare.plcFree 0 1 (bare.halfCycle 0) [1#8, 2#8].length = true) ∧
    (dev.up = true ∧ dev.isMaster 0 = false ∧ dev.isSlave 0 = false ∧ dev.plcFree 0 1 (dev.halfCycle 0) [1#8, 2#8].length = false) ∧
    ((queued 0 1).up = true ∧ ((queued 0 1).link 0).sendq = (1, 40, [1#8]) :: [] ∧ (queued 0 1).isMaster 0 = true) ∧
    (((queued 3 2).link 3).sendq = (1, 40, [1#8]) :: [] ∧ (queued 3 2).isMaster 3 = false ∧ (queued 3 2).isSlave 3 = true) ∧
    (sending.up = true ∧ (sending.plcPort 0).tx = some { mod := 1, psdu := [1#8], bursts := [[[]]], hc := 50 } ∧
      sending.on (R.PLC_STAT_READY 0) = true ∧ sending.halfCycle 0 = 50 ∧ sending.burstAt 0 < sending.instant + sending.tickSpan ∧
      sending.plcPeer 0 = none) ∧
    ((dev.plcPort 0).rx = none ∧ (synced.plcPort 0).rx = some { hc := 40, seen := 3 } ∧
      ({ hc := 40, seen := 3 } : PlcRx).head = none ∧ (dev.plcDecode 0 [] 0 []).1 = none ∧
      (receiving.plcDecode 0 [cleanBurst] 20 clean).1 = some ⟨[0x11#8, 0x22#8, 0x33#8, 0x44#8, 0x55#8], 1, 20, 0, 40, 3, 3⟩)) ∧
    dev.listening ∧ synced.listening ∧ receiving.listening :=
  ⟨by decide +kernel, hears_sound (by decide +kernel), hears_sound (by decide +kernel), hears_sound (by decide +kernel)⟩

/-- A meter of identifier `m` on serving port `port` with short address 5, as the entry `i` of the directory. -/
def withMeter (s : State) (i m port : Nat) : State :=
  s.readyBanks.mstore (dirAddr i) (leBytes 4 m ++ [0#8, 0#8, 0#8, BitVec.ofNat 8 port, 0#8, 0#8, 0#8, 0#8, 5#8, 0#8])

/-- The entry in which meter 00A0_0181h lies. -/
def home : Nat := 8 * bucket1 0x00A00181

/-- A frame of type `ty` from address 5 in half-cycle 40, and the poll it answers. -/
def reply (ty : Nat) (body : List Byte) : PlcFrame := ⟨[BitVec.ofNat 8 ty, 5#8, 0#8] ++ body, 1, 20, 0, 40, 4, 3⟩
def polled (k : SlotKind) : Await := { meter := 0x00A00181, addr := 5, start := 40, len := 6, kind := k, seen := true }

/-- The master with a frame in its inbox and the slot that awaits it. -/
def replied (ty : Nat) (body : List Byte) (k : SlotKind) : State :=
  (master.putPlc 0 { inbox := some (reply ty body) }).putLink 0 { slots := [polled k] }

/-- A master at a boundary tick, with the verdict on its one record, and with a downlink message for a meter it serves. -/
def bounded : State := { master with bal := { master.bal with bound := some master.now } }
def judged : State := { master with val := { master.val with waits := [⟨.plc 0 5 2, 0, [(0, some 0)]⟩] } }
def message : DlMsg := { slot := 3, meter := 0x00A00181, id := 9, cls := 1, frag := 0x11, body := [1#8] }
def downward : State :=
  let s := withMeter master home 0x00A00181 0
  { s.putLink 0 { s.link 0 with trains := 255 } with sup := { s.sup with dls := [message] } }

theorem meets_MasterCommandsComplete :
    (bounded.up = true ∧ bounded.isMaster 0 = true ∧ bounded.on (R.PLK_STAT_SWEEP 0) = false ∧ bounded.atBoundary = true) ∧
    (master.up = true ∧ master.masterIdle 0 = true ∧ (master.link 0).greeted = false) ∧
    ((replied 6 [] .poll).up = true ∧ ((replied 6 [] .poll).putPlc 0 {}).slotOver 0 (polled .poll) = true ∧
      (((replied 6 [] .poll).putPlc 0 {}).link 0).slots = polled .poll :: []) ∧
    ((replied 2 (List.replicate 64 0#8) .poll).isMaster 0 = true ∧
      (replied 2 (List.replicate 64 0#8) .poll).inboxOf 0 2 = some (reply 2 (List.replicate 64 0#8), polled .poll)) ∧
    (judged.up = true ∧ judged.takeDone (fun w => w.ofPlc 0) = (some ⟨.plc 0 5 2, 0, [(0, some 0)]⟩, master)) ∧
    ((replied 5 [0#8, 0#8, 0#8, 0#8, 0#8] .poll).up = true ∧ (replied 5 [0#8, 0#8, 0#8, 0#8, 0#8] .poll).isMaster 0 = true ∧
      (replied 5 [0#8, 0#8, 0#8, 0#8, 0#8] .poll).inboxOf 0 5 = some (reply 5 [0#8, 0#8, 0#8, 0#8, 0#8], polled .poll)) ∧
    ((replied 6 [9#8, 0#8, 0#8, 0#8, 2#8] (.down 3)).up = true ∧ (replied 6 [9#8, 0#8, 0#8, 0#8, 2#8] (.down 3)).isMaster 0 = true ∧
      (replied 6 [9#8, 0#8, 0#8, 0#8, 2#8] (.down 3)).inboxOf 0 6 = some (reply 6 [9#8, 0#8, 0#8, 0#8, 2#8], polled (.down 3)) ∧
      (polled (.down 3)).kind = .down 3) ∧
    (master.link 0).roundAt + master.get (R.PLK_SCH_RND 0) * ticksPerSec ≤ master.now ∧
    ((replied 8 [0x81#8, 1#8, 0xA0#8, 0#8, 3#8] .poll).up = true ∧
      ((replied 8 [0x81#8, 1#8, 0xA0#8, 0#8, 3#8] .poll).plcPort 0).inbox = some (reply 8 [0x81#8, 1#8, 0xA0#8, 0#8, 3#8]) ∧
      frameType (reply 8 [0x81#8, 1#8, 0xA0#8, 0#8, 3#8]).psdu = 8) ∧
    (downward.up = true ∧ downward.masterIdle 0 = true ∧ downward.get (R.PLK_SCH_DNGAP 0) ≤ (downward.link 0).trains ∧
      downward.nextDown 0 = some (message, home)) ∧
    (master.masterIdle 0 = true ∧ (1 : Nat) ≤ 4096 ∧ (0 : Nat) < 1 ∧ (master.campaign 0 7 1).next.head? = some 0) ∧
    ((master.putLink 0 { camp := some { img := 7, cnt := 1, next := [] } }).isMaster 0 = true ∧
      ((master.putLink 0 { camp := some { img := 7, cnt := 1, next := [] } }).link 0).camp = some { img := 7, cnt := 1, next := [] }) := by
  decide +kernel

/-- The station with a frame of the master above in its inbox; joined long ago with a beacon period of one second. -/
def heard (ty : Nat) (body : List Byte) : State :=
  station.putPlc 3 { inbox := some ⟨[BitVec.ofNat 8 ty, 0#8] ++ body, 0, 20, 0, 40, 4, 3⟩ }
def heardFrame (ty : Nat) (body : List Byte) : PlcFrame := ⟨[BitVec.ofNat 8 ty, 0#8] ++ body, 0, 20, 0, 40, 4, 3⟩
def silentUp : State := { station.putLink 3 { beacon := some ⟨0, 0, 0, 0, 0, 1, true⟩, upAt := 1000 } with phase := .commit }

theorem meets_SlaveCommandsComplete :
    ((heard 1 [0#8, 0#8]).up = true ∧ (heard 1 [0#8, 0#8]).slaveInbox 1 = some (heardFrame 1 [0#8, 0#8])) ∧
    (heard 3 (List.replicate 8 1#8)).slaveInbox 3 = some (heardFrame 3 (List.replicate 8 1#8)) ∧
    (heard 9 (List.replicate 33 0#8)).slaveInbox 9 = some (heardFrame 9 (List.replicate 33 0#8)) ∧
    (silentUp.phase = .commit ∧ (silentUp.link 3).beacon = some ⟨0, 0, 0, 0, 0, 1, true⟩ ∧ silentUp.isSlave 3 = true ∧
      silentUp.on (R.PLK_STAT_JOINED 3) = true ∧ (silentUp.link 3).upAt + 4 * 1 * ticksPerSec ≤ silentUp.now) ∧
    (heard 7 [4#8, 7#8]).slaveInbox 7 = some (heardFrame 7 [4#8, 7#8]) ∧
    (heard 5 [0#8, 0#8, 0#8, 0#8, 9#8, 0#8, 1#8]).slaveInbox 5 = some (heardFrame 5 [0#8, 0#8, 0#8, 0#8, 9#8, 0#8, 1#8]) := by
  decide +kernel

/-! Wired buses. -/

/-- Serial bus 0 and M-Bus 0 on, radio 0 on with its script loaded, UART roles 1 to 3; a request outstanding on a bus. -/
def wired : State :=
  (old.setAll [(R.SER_BCTL_EN 0, 1), (R.MBS_CTL_EN 0, 1), (R.RAD_CTL_EN 0, 1), (R.SER_UCTL_ROLE 0, 1), (R.SER_UCTL_ROLE 1, 2),
    (R.SER_UCTL_ROLE 2, 3), (R.CHG_CTL_EN 0, 1)]).putBus 14 { loaded := true }
def asked (c : Nat) (r : BusReq) : State := wired.putBus c { wired.busOf c with req := some r }
def request1 : BusReq := ⟨0x00A00181, 5, 1, 1000, false⟩
def request2 : BusReq := ⟨0x00A00181, 5, 1, 2000000000, false⟩

/-- An RSP_UD long frame from primary address 5, and a radio frame of one record with its CRC. -/
def telegram : List Byte := [0x68#8, 3#8, 3#8, 0x68#8, 8#8, 5#8, 0x72#8, 0x7F#8, 0x16#8]
def burst1 : List Byte := let b := [0x5A#8, 5#8, 0#8, 1#8] ++ List.replicate 64 0#8; b ++ leBytes 2 (pollCrc b)

/-- A meter that an M-Bus serves, before and behind its SND_NKE. -/
def metered12 : State := withMeter wired home 0x00A00181 12

/-- A request outstanding past its deadline in a commit phase, without and with a reply under way. -/
def overdue (c : Nat) (r : Option Reply) : State := { asked c request1 with phase := .commit }.putBus c { req := some request1, reply := r }
def half1 : Reply := ⟨[5#8], 10, 20⟩

/-- An M-Bus whose request is outstanding, with its meter in the directory. -/
def pending12 : State := withMeter (asked 12 request2) home 0x00A00181 12



/-- Buses in a capture phase, at which a jam and an overload are heard, and in the commit phase, in which a silence ends. -/
def wiredCap : State := { wired with phase := .capture }
def wiredCom : State := { wired with phase := .commit }

/-- A UART with its role, without it, and with bytes that wait for clear to send. -/
def modemed : State := wired.putUart 0 { wired.uartOf 0 with wait := [[1#8]] }

/-- A modem that has sent an echo request long ago. -/
def dialled : State := { wired.putUart 0 { ppp := { sent := some 0 } } with phase := .commit }

/-- A radio whose script waits to be loaded. -/
def unloaded : State := { wired.putBus 14 {} with scripts := [(0, [1#8])] }

/-- A bus that loops to its own receiver. -/
def looped : State := wired.setAll [(R.KEY_LC_STATE, 1), (R.PRT_LOOP_SER, 1)]

theorem meets_WiredSerial :
    ((wired.up = true ∧ wired.busUp (pollBus 0) = true ∧ (wired.busOf (pollBus 0)).req = none ∧
      (wired.busOf (pollBus 0)).drive = none) ∧
    (wired.busUp (4 + 0) = true ∧ wired.busLooped (4 + 0) = false ∧ looped.busLooped (4 + 0) = true ∧ wired.gapBroken 0 0 [5#8] = false ∧ wired.busGap 0 ≤ 4000 ∧ 0 < wired.busGap 0) ∧
    ((overdue 4 none).phase = .commit ∧ ((overdue 4 none).busOf (pollBus 0)).req = some request1 ∧
      ((overdue 4 none).busOf (pollBus 0)).reply = none ∧ request1.deadline ≤ (overdue 4 none).now) ∧
    ((overdue 4 (some half1)).phase = .commit ∧ ((overdue 4 (some half1)).busOf (4 + 0)).reply = some half1 ∧
      half1.last + (overdue 4 (some half1)).busGap 0 < (overdue 4 (some half1)).now)) ∧ wired.listening ∧ looped.listening :=
  ⟨by decide +kernel, hears_sound (by decide +kernel), hears_sound (by decide +kernel)⟩

theorem meets_WiredMbus :
    (((withMeter wired 0 0x00A00181 12).up = true ∧ (withMeter wired 0 0x00A00181 12).busUp 12 = true ∧
      ((withMeter wired 0 0x00A00181 12).busOf 12).req = none ∧ ((withMeter wired 0 0x00A00181 12).servedFrom 12 0).find?
        (fun i => !(((withMeter wired 0 0x00A00181 12).busOf 12).nke.contains ((withMeter wired 0 0x00A00181 12).dirMeter i))) = some 0) ∧
    (((pending12.bufferReply (12 + 0) 0 0 [0xE5#8]).busOf (12 + 0)).reply = some ⟨[0xE5#8], pending12.now + 1, pending12.now⟩ ∧
      mbusWhole [0xE5#8] = true) ∧
    ((pending12.busOf 12).req = some request2 ∧ pending12.now + 1 ≤ request2.deadline ∧ request2.nke = false ∧
      longFrameOk request2.addr telegram = true ∧ telegram ≠ [0xE5#8]) ∧
    ((overdue 12 none).phase = .commit ∧ ((overdue 12 none).busOf 12).req = some request1 ∧ ((overdue 12 none).busOf 12).reply = none ∧
      request1.deadline ≤ (overdue 12 none).now) ∧ wired.busUp 12 = true) ∧ pending12.listening :=
  ⟨by decide +kernel, hears_sound (by decide +kernel)⟩

theorem meets_WiredRadio :
    ((wired.busUp 14 = true ∧ (wired.busOf 14).req = none ∧ burst1 ≠ []) ∧
    (unloaded.up = true ∧ unloaded.on (R.RAD_CTL_EN 0) = true ∧ (unloaded.busOf 14).loaded = false ∧ (unloaded.busOf 14).script = none ∧
      SMap.at? unloaded.scripts 0 = some [1#8])) ∧ wired.listening :=
  ⟨by decide +kernel, hears_sound (by decide +kernel)⟩

theorem meets_WiredUarts :
    ((wired.get (R.SER_UCTL_ROLE 1) = 2 ∧ wired.task0A = true ∧ wired.isModem 0 = true) ∧
    (wired.get (R.SER_UCTL_ROLE 2) = 3 ∧ (wired.uartOf 2).shown ≠ some (secOf wired.tim.start)) ∧
    (dialled.phase = .commit ∧ dialled.isModem 0 = true ∧ (dialled.uartOf 0).ppp.sent.isSome = true ∧
      (dialled.uartOf 0).echoAt + 240000 ≤ dialled.now) ∧
    modemed.isModem 0 = true) ∧ wired.listening ∧ modemed.listening :=
  ⟨by decide +kernel, hears_sound (by decide +kernel), hears_sound (by decide +kernel)⟩

theorem meets_WiredSilence :
    (wiredCap.phase = .capture ∧ wiredCap.busUp (pollBus 0) = true ∧ wiredCap.busUp (12 + 0) = true) ∧ wiredCom.phase = .commit := by
  decide +kernel

/-! Ethernet and time. -/

/-- Port 0 linked at 1 Gb/s, slave of PTP master 7; port 2 enabled with a module; port 1 pausing. -/
def linked : State :=
  let s := old.setAll [(R.ETH_CTL_EN 0, 1), (R.ETH_STAT_LINK 0, 1), (R.ETH_STAT_SPD 0, 3), (R.ETH_CTL_PAUSE 0, 1), (R.TIM_CTL_SRC, 1),
    (R.TIM_CTL_PORT, 0), (R.ETH_CTL_EN 2, 1), (R.ETH_STAT_MODABS 2, 0), (R.ETH_STAT_LOS 2, 0), (R.ETH_CTL_VLAN 0, 0), (R.ETH_CTL_SPEED 0, 0)]
  { s.putEth 1 { pause := true } with tim := { s.tim with ptp := { master := some 7, annAt := 5 } } }
def grand : State := linked.setAll [(R.TIM_CTL_SRC, 0), (R.TIM_CTL_PTPM, 1)]

/-- A broadcast frame of 60 bytes. -/
def frame60 : List Byte := List.replicate 6 0xFF#8 ++ [2#8, 0#8, 0#8, 0#8, 0#8, 1#8, 0x08#8, 0x06#8] ++ List.replicate 46 0#8

theorem meets_EthCommandsComplete :
    ((linked.on (R.ETH_CTL_EN 0) = true ∧ linked.on (R.ETH_STAT_LINK 0) = true) ∧
    (60 ≤ frame60.length ∧ frame60.length ≤ 1518 ∧ beAt frame60 12 2 ≠ 0x8100 ∧ linked.on (R.ETH_CTL_VLAN 0) = false ∧
      linked.destTaken 0 (frame60.take 6) = true) ∧
    (linked.on (R.ETH_CTL_PAUSE 0) = true ∧ (1#16).toNat ≠ 0) ∧
    ((0 : Nat) ≠ 2 ∧ (1 : Nat) ≠ 0 ∧ linked.get (R.ETH_CTL_SPEED 0) = 0) ∧
    (linked.on (R.ETH_CTL_EN 2) = true ∧ linked.on (R.ETH_STAT_MODABS 2) = false ∧ linked.on (R.ETH_STAT_LOS 2) = false) ∧
    (linked.up = true ∧ (linked.ethPort 1).pause = true)) ∧ linked.listening :=
  ⟨by decide +kernel, hears_sound (by decide +kernel)⟩

/-- Messages of PTP master 7. -/
def syncMsg : PtpMsg := ⟨0, 0, 0, 7, 3, 0, true, 100, 0, 0, none, 8⟩

/-- The exchange of `linked` at later stages, and in a commit phase; outputs armed at the start of the tick; capture inputs with and without
a capture, whose edge came in the last tick. -/
def exchanged : State := { linked with tim := { linked.tim with ptp := { master := some 7, syncSeq := 3, t2 := some 5 } } }
def delayed : State := { linked with tim := { linked.tim with ptp := { master := some 7, reqSeq := 3, t1 := some 1, t2 := some 5, t3 := some 9 } } }
def alone : State := { linked with phase := .capture, tim := { linked.tim with ptp := {} } }
def linkedC : State := { linked with phase := .commit }
def armed : State :=
  let s := old.setAll [(R.TIM_TRGCTL_MODE 0, 1), (R.TIM_TRGCTL_MODE 1, 3), (R.TIM_TRGCTL_MODE 2, 3), (R.TIM_CAPST_CAPV 1, 1),
    (R.TIM_CTL_SRC, 2), (R.TIM_PPS_EN, 1), (R.TIM_STAT_VALID, 1)]
  { s with tim := { s.tim with trig := [(0, (100, 200))], pps := some 0 } }
def edged : State := { armed with phase := .capture, tim := { armed.tim with marks := [(5, 6, 7)] } }
def armedC : State := { armed with phase := .commit }
def crossing1 : State := { old with tim := { old.tim with start := secUnits - 1, rtcDue := true } }

theorem meets_TimeWrites :
    fieldPassed dev .fw R.TIM_STEPNS_NS (5#31).toNat ∧ fieldPassed dev .fw R.TIM_CTL_REARM 1 ∧
    fieldPassed dev .fw R.TIM_ADDHI_ADD (0x80000#32).toNat ∧
    writePassed dev .fw (agentOf .fw 0) R.TIM_TSQKEY 0x3FFFFF#32 5#32 0x3FFFFF#32 ∧
    fieldPassed dev .fw (R.TIM_TRGN_NS 0) (999999999#30).toNat ∧ dev.fieldStands .fw R.TIM_ADDHI_ADD (0x80000#32).toNat ∧
    dev.stands .fw (agentOf .fw 0) R.TIM_TSQKEY 0x3FFFFF#32 5#32 ∧ dev.fieldStands .fw (R.TIM_TRGN_NS 0) (999999999#30).toNat ∧
    (dev.up = true ∧ Regs.wf dev.regs = true) :=
  ⟨passes_sound (by decide +kernel), passes_sound (by decide +kernel), passes_sound (by decide +kernel), wpasses_sound (by decide +kernel),
    passes_sound (by decide +kernel), fieldStands_sound (by decide +kernel), stands_sound (by decide +kernel),
    fieldStands_sound (by decide +kernel), by decide +kernel⟩

theorem meets_TimePtp :
    ((linked.phase = .compute ∧ linked.fromMaster syncMsg = true ∧ syncMsg.two = true) ∧
    (exchanged.fromMaster syncMsg = true ∧ exchanged.tim.ptp.syncSeq = syncMsg.seq ∧ exchanged.tim.ptp.t1 = none ∧
      exchanged.tim.ptp.t2 = some 5) ∧
    (delayed.fromMaster { syncMsg with req := delayed.clockId 0 } = true ∧ delayed.tim.ptp.reqSeq = syncMsg.seq ∧
      delayed.tim.ptp.t1 = some 1 ∧ delayed.tim.ptp.t2 = some 5 ∧ delayed.tim.ptp.t3 = some 9 ∧
      delayed.tim.ptp.syncGen = delayed.tim.ptp.reqGen ∧ delayed.tim.ptp.reqGen = delayed.gen) ∧
    (alone.phase = .capture ∧ alone.get R.TIM_CTL_SRC = 1 ∧ alone.ptpTaken syncMsg = true ∧ alone.wantedMaster = 0 ∧ alone.tim.ptp.master = none ∧
      syncMsg.utc = none) ∧
    (grand.phase = .compute ∧ grand.ptpMaster = true ∧ grand.ptpTaken syncMsg = true ∧
      grand.intervalPast grand.tim.ptp.atSync (sgn 4 (grand.get R.TIM_PTPCFG_LSYNC)) = true ∧
      grand.intervalPast grand.tim.ptp.atAnn (grand.get R.TIM_PTPCFG_LANN) = true) ∧
    (linkedC.phase = .commit ∧ linkedC.get R.TIM_CTL_SRC = 1 ∧ linkedC.tim.ptp.master.isSome = true ∧
      linkedC.tim.ptp.annAt + 3 * 2 ^ linkedC.get R.TIM_PTPCFG_LANN * ticksPerSec ≤ linkedC.now) ∧
    (linked.up = true ∧ linked.get R.TIM_CTL_SRC = 1 ∧ linked.ptpOn (linked.get R.TIM_CTL_PORT) = true ∧
      linked.intervalPast linked.tim.ptp.atReq (sgn 4 (linked.get R.TIM_PTPCFG_LDREQ)) = true)) ∧
    exchanged.listening ∧ delayed.listening ∧ alone.listening :=
  ⟨by decide +kernel, hears_sound (by decide +kernel), hears_sound (by decide +kernel), hears_sound (by decide +kernel)⟩

theorem meets_TimeEdges :
    (armed.up = true ∧ SMap.at? armed.tim.trig 0 = some (100, 200) ∧ armed.tim.start / nsUnits ≤ 200 ∧ 200 < armed.tickEnd / nsUnits ∧
      armed.get (R.TIM_TRGCTL_MODE 0) = 1) ∧
    (armed.on R.TIM_PPS_EN = true ∧ armed.on R.TIM_STAT_VALID = true ∧ armed.tim.start % secUnits = 0) ∧
    (armed.phase = .compute ∧ edged.phase = .capture ∧ edged.tim.marks = (5, 6, 7) :: [] ∧ edged.get (R.TIM_TRGCTL_MODE 1) = 3 ∧
      edged.on (R.TIM_CAPST_CAPV 1) = true ∧ edged.get (R.TIM_TRGCTL_MODE 2) = 3 ∧ edged.on (R.TIM_CAPST_CAPV 2) = false) ∧
    (armedC.phase = .commit ∧ armedC.get R.TIM_CTL_SRC = 2 ∧ armedC.tim.ppsAt + 24000 ≤ armedC.now) ∧
    (crossing1.up = true ∧ crossing1.tim.start / secUnits < crossing1.tickEnd / secUnits ∧ crossing1.tim.rtcDue = true) := by
  decide +kernel

/-! Sessions.  Page 1 receives under an all-zero key and salt; the three sealed datagrams have SESSION 9 and SEQ 1. -/

def octets (l : List Nat) : List Byte := l.map (BitVec.ofNat 8)

/-- A session with a peer of the SERVER role or of the UPLINK. -/
def peer (up est : Bool) : Sess :=
  { num := 4, id := 9, up := up, est := est, addr := [1#8, 2#8, 3#8, 4#8], port := 5, iface := 0, serial := List.replicate 8 0#8,
    tx := 2, rx := 1, openAt := 0, rxAt := 0, txAt := 0 }

def talk (x : Sess) : State :=
  let s := old.setAll [(R.RNG_STAT_OK, 1), (R.SUP_CTL_UPEN, 1), (R.CFG_STAT_STEP, 11)]
  { s with
    sup := { s.sup with sess := [x] }
    sec := { s.sec with pages := [(1, { key := List.replicate 32 0#8, salt := List.replicate 4 0#8 })] } }

def dgram (b : List Nat) : Dgram := ⟨0, [1#8, 2#8, 3#8, 4#8], 5, octets b⟩

/-- A device in whose receive buffer `m` is next. -/
def offered (x : Sess) (m : Dgram) : State := { talk x with sup := { (talk x).sup with inbox := [(m, 0)] } }

def hello3 : Dgram := dgram [1, 1, 6, 0, 9, 0, 0, 0, 1, 0, 0, 0, 0, 0, 0, 0, 0, 0, 0, 0, 0, 0, 0, 0, 1, 192, 201, 94, 183, 11, 119, 122,
  251, 244, 145, 20, 66, 225, 248, 162]
def ack1 : Dgram := dgram [1, 3, 0, 0, 9, 0, 0, 0, 1, 0, 0, 0, 0, 0, 0, 0, 24, 0, 0, 0, 0, 0, 0, 0, 230, 212, 255, 11, 25, 86, 11, 87, 46,
  80, 7, 59, 156, 48, 164, 15, 136, 68, 103, 146, 151, 102, 211, 45, 171, 129, 61, 154, 237, 47, 91, 83, 38, 154, 82, 2, 149, 69, 65, 232]
def alarm1 : Dgram := dgram [1, 10, 0, 0, 9, 0, 0, 0, 1, 0, 0, 0, 0, 0, 0, 0, 12, 0, 0, 0, 0, 0, 0, 0, 230, 212, 255, 11, 25, 86, 11, 87,
  47, 80, 7, 59, 51, 212, 75, 66, 161, 98, 188, 226, 111, 175, 39, 184, 178, 237, 82, 248]

/-- Message `m` is next, and passes every check as from session `k` with body `b`; the session behind it is `y`. -/
def opens (x : Sess) (m : Dgram) (b : List Byte) (y : Sess) : Bool :=
  let u := (talk x).supCheck m
  decide (u.1 = some (4, b)) && decide (u.2.sessOf 4 = some y)

theorem open_hello3 : opens (peer false false) hello3 [] ((peer false false).mark 1 1000000000) = true := by decide +kernel
theorem open_ack1 : opens (peer true true) ack1 (List.replicate 24 0#8) ((peer true true).mark 1 1000000000) = true := by decide +kernel
theorem open_alarm1 : opens (peer false true) alarm1 (leBytes 8 0 ++ [1#8, 0#8, 0#8, 0#8]) ((peer false true).mark 1 1000000000) = true := by
  decide +kernel

theorem opens_fst {x : Sess} {m : Dgram} {b : List Byte} {y : Sess} (h : opens x m b y = true) :
    ((talk x).supCheck m).1 = some (4, b) ∧ ((talk x).supCheck m).2.sessOf 4 = some y := by
  simpa [opens] using h

/-- An UPLINK with a record to send, one sent and unacknowledged, and an event to upload; one whose session is to be opened; the same in a
commit phase. -/
def sender : State :=
  let s := talk (peer true true)
  { s with sup := { s.sup with fbuf := [⟨0, 1, 0⟩] }, evr := { s.evr with log := [{ ev := ⟨0x0101, 1, 0, 0, 0, 0, 1⟩, seq := 1 }] } }
def talkC (x : Sess) : State := { talk x with phase := .commit }
def unacked : State := talkC { peer true true with recs := [(.fwd 0, 0)] }
def greeting : State :=
  { talkC (peer true true) with sup := { (talk (peer true true)).sup with sess := [], hello := some ⟨[], [], [], 0⟩ } }
def silentSup : State := { greeting with phase := .compute, sup := { greeting.sup with hello := none } }
def owing1 : Sess := { peer false true with ackDue := some 7 }

theorem meets_SessionHello :
    ((silentSup.up = true ∧ silentSup.uplinkOn = true ∧ silentSup.uplink = none ∧ silentSup.sup.hello = none ∧
      silentSup.get R.CFG_STAT_STEP ≠ 10) ∧
    ((offered (peer false false) (dgram [1, 1, 2, 0])).supTake none (fun b => decide (supType b = 1 ∧ supPhase b = 1)) =
        (some (dgram [1, 1, 2, 0]), talk (peer false false)) ∧ (offered (peer false false) (dgram [1, 1, 2, 0])).on R.RNG_STAT_OK = true) ∧
    (offered (peer false false) (dgram [1, 1, 4, 0])).supTake none (fun b => decide (supType b = 1 ∧ supPhase b = 2)) =
      (some (dgram [1, 1, 4, 0]), talk (peer false false)) ∧
    ((offered (peer false false) (dgram [1, 1, 6, 0])).supTake none (fun b => decide (supType b = 1 ∧ supPhase b ≠ 1 ∧ supPhase b ≠ 2)) =
        (some (dgram [1, 1, 6, 0]), talk (peer false false)) ∧ ((talk (peer false false)).supCheck (dgram [1, 1, 6, 0])).1 = none) ∧
    ((offered (peer false false) hello3).supTake none (fun b => decide (supType b = 1 ∧ supPhase b ≠ 1 ∧ supPhase b ≠ 2)) =
        (some hello3, talk (peer false false)) ∧ ((peer false false).mark 1 1000000000).est = false ∧ supType hello3.bytes = 1 ∧
      ((talk (peer false false)).supCheck hello3).2.srvSess = [] ∧
      0 < (offered (peer false false) hello3).get R.SUP_SCFG_MAXSESS) ∧
    (greeting.phase = .commit ∧ greeting.sup.hello = some ⟨[], [], [], 0⟩ ∧ greeting.uplinkOn = true ∧ 0 + greeting.sup.wait ≤ greeting.now ∧
      greeting.seenMsg (fun b => decide (supType b = 1 ∧ supPhase b = 2)) = false) ∧
    ((talkC (peer false false)).phase = .commit ∧ (talkC (peer false false)).halfOpen.find? (fun x =>
      decide (x.openAt + 16000 ≤ (talkC (peer false false)).now) &&
        !((talkC (peer false false)).seenMsg (fun b => decide (supSess b = x.id)))) = some (peer false false))) ∧
    (∀ m, (offered (peer false false) m).listening) :=
  ⟨by decide +kernel, fun _ => Or.inr rfl⟩

theorem meets_SessionRecords :
    ((offered (peer false true) (dgram [1, 2])).supTake none (fun b => decide (supType b = 2)) =
      (some (dgram [1, 2]), talk (peer false true)) ∧
    (sender.up = true ∧ sender.uplink = some (peer true true) ∧
      sender.sendable.take ((peer true true).window - (peer true true).recs.length) ≠ []) ∧
    (unacked.phase = .commit ∧ unacked.uplink = some { peer true true with recs := [(.fwd 0, 0)] } ∧ 0 + 0 ≤ unacked.now ∧
      (peer true true).items = [] ∧ unacked.seenMsg (fun b => decide (supType b = 3 ∧ supSess b = 9)) = false) ∧
    ((offered (peer true true) ack1).supTake none (fun b => decide (supType b = 3)) = (some ack1, talk (peer true true)) ∧
      leAt (List.replicate 24 0#8) 16 4 ≤ 65535 ∧ leAt (List.replicate 24 0#8) 20 4 = 0 ∧ ((peer true true).mark 1 1000000000).up = true) ∧
    ((offered (peer true true) (dgram [1, 3])).supTake none (fun b => decide (supType b = 3)) = (some (dgram [1, 3]), talk (peer true true)) ∧
      ((talk (peer true true)).supCheck (dgram [1, 3])).1 = none) ∧
    ((talk owing1).up = true ∧ (talk owing1).sup.sess.find? (fun x => x.ackDue.isSome && (talk owing1).mayAck x) = some owing1)) ∧
    (∀ x m, (offered x m).listening) :=
  ⟨by decide +kernel, fun _ _ => Or.inr rfl⟩

theorem meets_SessionItems :
    ((sender.uplink = some (peer true true) ∧ itemsFit (min 32 (64 - (peer true true).items.length)) 1180
      (sender.evItems ++ sender.repItems (peer true true)) ≠ []) ∧
    ((offered (peer false true) alarm1).supTake none (fun b => decide (supType b = 10)) = (some alarm1, talk (peer false true)) ∧
      leAt (leBytes 8 0 ++ [1#8, 0#8, 0#8, 0#8]) 8 1 = 1 ∧ leAt (leBytes 8 0 ++ [1#8, 0#8, 0#8, 0#8]) 9 3 = 0 ∧
      leAt (leBytes 8 0 ++ [1#8, 0#8, 0#8, 0#8]) 0 8 = ((peer false true).mark 1 1000000000).racka ∧
      ((peer false true).mark 1 1000000000).est = true) ∧
    ((offered (peer false true) (dgram [1, 10])).supTake none (fun b => decide (supType b = 10)) =
      (some (dgram [1, 10]), talk (peer false true)) ∧ ((talk (peer false true)).supCheck (dgram [1, 10])).1 = none) ∧
    (talkC (peer false true)).sup.sess.find? (fun x =>
      x.est && decide (x.rxAt + (talkC (peer false true)).get R.SUP_TIM0_IDLE * ticksPerSec ≤ (talkC (peer false true)).now) &&
        !((talkC (peer false true)).seenMsg (fun b => decide (supSess b = x.id)))) = some (peer false true) ∧
    ((talkC (peer true true)).phase = .commit ∧ (talkC (peer true true)).uplink = some (peer true true) ∧
      (talkC (peer true true)).uplinkOn = true ∧ (talkC (peer true true)).sup.hello = none ∧
      0 + (talkC (peer true true)).get R.SUP_TIM1_LIFE * 60 * ticksPerSec ≤ (talkC (peer true true)).now) ∧
    (talkC (peer false true)).sup.sess.find? (fun x => (talkC (peer false true)).mayAck x &&
      decide (x.txAt + (talkC (peer false true)).get R.SUP_TIM0_IDLE * ticksPerSec / 3 ≤ (talkC (peer false true)).now)) =
      some (peer false true)) ∧
    (∀ x m, (offered x m).listening) :=
  ⟨by decide +kernel, fun _ _ => Or.inr rfl⟩

/-- A device whose oldest request is of type `ty`. -/
def requested (ty : Nat) (body : List Byte) : State :=
  { talk (peer true true) with sup := { (talk (peer true true)).sup with reqs := [{ sess := 4, ty := ty, reqid := 1, seq := 1, body := body }] } }

/-- A perturbation window whose time has run, in a commit phase. -/
def windowC : State := devC.setAll [(R.KEY_LC_STATE, 2), (R.PRT_CTL_OPEN, 1)]

theorem meets_RequestCommandsComplete :
    ((offered (peer true true) (dgram [1, 4])).supTake none (fun b => decide (supType b = 4)) = (some (dgram [1, 4]), talk (peer true true)) ∧
    ((requested 4 []).up = true ∧ (requested 4 []).sup.inbox = [] ∧ (requested 4 []).reqRuns = false) ∧
    ((requested 5 []).on R.PRT_CTL_DIRHOLD = false ∧ (requested 9 []).reqRuns = false ∧ (requested 9 []).on R.PRT_CTL_DIRHOLD = false) ∧
    ((requested 6 []).reqRuns = false ∧ (requested 7 []).reqRuns = false ∧ (requested 8 []).reqRuns = false) ∧
    ((requested 11 []).reqRuns = false ∧ leAt ([] : List Byte) 22 1 ≠ 2 ∧ leAt (List.replicate 22 0#8 ++ [2#8]) 22 1 = 2) ∧
    (windowC.phase = .commit ∧ windowC.get R.PRT_WIN_LEFT = 0 ∧ windowC.get R.KEY_LC_STATE = lcField ∧ windowC.on R.PRT_CTL_OPEN = true)) ∧
    (offered (peer true true) (dgram [1, 4])).listening ∧ (∀ ty body, (requested ty body).listening) :=
  ⟨by decide +kernel, Or.inr rfl, fun _ _ => Or.inr rfl⟩

/-! Cipher pages, keys and tamper. -/

/-- Page 1 owned by processor 3, and by an engine that has a command port. -/
def paged : State := dev.set (R.CIP_OWN_OWNER 1) 3
def engined : State := dev.set (R.CIP_OWN_OWNER 1) 5
def jobbing : State := { dev with sec := { dev.sec with pages := [(1, { busy := true })] } }
def slotted : State := { dev with isl := { dev.isl with keys := { dev.isl.keys with slots := [(2, { valid := true })] } } }

theorem meets_CipherCommandsComplete :
    ((engined.up = true ∧ busPath 5 = none ∧ (5 : Nat) ≠ 0 ∧ engined.pageOwner 1 = 5) ∧ busPath 3 = some .fw ∧ busPath 14 = some .t ∧
    devC.phase = .commit ∧ (dev.up = true ∧ (dev.page 1).busy = false) ∧ (jobbing.up = true ∧ (jobbing.page 1).busy = true) ∧
    (slotted.up = true ∧ (slotted.slot 2).valid = true ∧ (slotted.slot 2).mark < slotted.nextCtr 2 + 2 ^ 19)) ∧
    writePassed paged .fw 3 (R.CIP_CMD 1) 7#32 1#32 7#32 ∧ writePassed paged .fw 3 (R.CIP_CMD 1) 7#32 2#32 7#32 ∧
    writePassed paged .fw 3 (R.CIP_CMD 1) 7#32 3#32 7#32 ∧ writePassed paged .fw 3 (R.CIP_CMD 1) 7#32 4#32 7#32 :=
  ⟨by decide +kernel, wpasses_sound (by decide +kernel), wpasses_sound (by decide +kernel), wpasses_sound (by decide +kernel),
    wpasses_sound (by decide +kernel)⟩

/-- An accepted KEY_UPDATE of operation `op`, and a device whose TRANSITION fuses have verified. -/
def accepted (op : Nat) : State :=
  { devC with sec := { devC.sec with kup := { devC.sec.kup with accepted := some (.svc 1, octets [0, op, 2]), item := List.replicate 32 1#8 } } }
def fused : State := { oldC with sec := { oldC.sec with kup := { old.sec.kup with transAt := some 5 } } }
/-- A key load that waits for the next tick. -/
def loading : State := { dev with sec := { dev.sec with loads := [⟨1, 1, 2, 0⟩] } }
def wary : State := State.setAll { dev with phase := .capture } [(R.TMP_CFG_EN 0, 1), (R.TMP_CFG_POL 0, 1), (R.TMP_CFG_FILT 0, 1), (R.TMP_CFG_ERASE 0, 0),
  (R.TMP_CFG_EN 1, 1), (R.TMP_CFG_POL 1, 1), (R.TMP_CFG_FILT 1, 1), (R.TMP_CFG_ERASE 1, 1), (R.TMP_INT_EN, 1)]

/-- A start waits for the entropy source to make the identity. -/
def nameless : State := { dev with sec := { dev.sec with identWait := true } }

theorem meets_KeyCommandsComplete :
    (dev.up = true ∧ ((0 : Nat) = 0 ∨ (5 ≤ (0 : Nat) ∧ (0 : Nat) ≠ 14)) ∧ 5 ≤ (31 : Nat) ∧ (31 : Nat) ≠ 14) ∧
    writePassed dev .fw 1 R.KEY_LDCMD 0xFFF#32 (BitVec.ofNat 32 (1 + 256 * 2)) 0xFFF#32 ∧
    dev.stands .fw 1 R.KEY_LDCMD 0xFFF#32 (BitVec.ofNat 32 (1 + 256 * 2)) ∧
    loading.sec.loads = [⟨1, 1, 2, 0⟩] ∧
    ((accepted 1).phase = .commit ∧ (accepted 1).sec.kup.accepted = some (.svc 1, octets [0, 1, 2]) ∧ leAt (octets [0, 1, 2]) 1 1 = 1 ∧
      (((accepted 1).kupCommit (octets [0, 1, 2])).kupWrite (leAt (octets [0, 1, 2]) 2 1) (accepted 1).sec.kup.item).val.rederive = false) ∧
    ((accepted 2).sec.kup.accepted = some (.svc 1, octets [0, 2, 2]) ∧ leAt (octets [0, 2, 2]) 1 1 = 2) ∧
    ((accepted 3).sec.kup.accepted = some (.svc 1, octets [0, 3, 2]) ∧ leAt (octets [0, 3, 2]) 1 1 = 3) ∧
    (fused.phase = .commit ∧ fused.sec.kup.transAt = some 5 ∧ 5 + 800 ≤ fused.now) ∧
    (wary.isl.dead = false ∧ wary.phase = .capture ∧ wary.on (R.TMP_CFG_EN 0) = true ∧ wary.on (R.TMP_CFG_POL 0) = true ∧
      wary.get (R.TMP_CFG_FILT 0) ≤ SMap.get zN wary.isl.tampRun 0 + 1 ∧ wary.on (R.TMP_CFG_ERASE 0) = false) ∧
    (wary.on (R.TMP_CFG_EN 1) = true ∧ wary.on (R.TMP_CFG_POL 1) = true ∧
      wary.get (R.TMP_CFG_FILT 1) ≤ SMap.get zN wary.isl.tampRun 1 + 1 ∧ wary.on (R.TMP_CFG_ERASE 1) = true ∧
      SMap.get zB wary.isl.erasing 1 = false) ∧
    ((wary.get R.TMP_INT_EN).testBit 0 = true ∧ ¬ ((0 : Nat) = 1 ∧ wary.isl.battery = true) ∧ dev.sec.identWait = false ∧
      nameless.up = true ∧ nameless.sec.identWait = true) :=
  ⟨by decide +kernel, wpasses_sound (by decide +kernel), stands_sound (by decide +kernel), by decide +kernel⟩

/-! Charging outlets. -/

/-- Outlet 0 enabled with an open session in state AUTH, its self-test passed, tethered, and drawing state C; outlet 1 with a cable. -/
def plugged : State :=
  let s := oldC.setAll [(R.CHG_CTL_EN 0, 1), (R.CHG_CTL_EN 1, 1), (R.CHG_CTL_TETHER 0, 1), (R.CHG_CTL_CABLE 0, 4), (R.CHG_SID_SID 0, 1),
    (R.CHG_SACC_REASON 0, 0), (R.CHG_STAT_STATE 0, 3), (R.CHG_STAT_CP 0, 2), (R.CHG_OFFER_OFFER 0, 60), (R.CHG_STAT_SAFE 0, 0),
    (R.CHG_STAT_K 0, 0), (R.CHG_STAT_MIR 0, 1), (R.CHG_STAT_VP 0, 0), (R.CHG_CTL_TETHER 1, 0), (R.CHG_STAT_PP 1, 3)]
  s.onOutlet 0 (fun x => { x with passed := true })
def pluggedIn : State := { plugged with phase := .compute }
def welded : State := plugged.set (R.CHG_STAT_VP 0) 1
def atO (f : Outlet → Outlet) : State := plugged.onOutlet 0 f
def shorted : State := (atO (fun x => { x with kAt := some 1000000000 })).set (R.CHG_STAT_K 0) 1
/-- The contactor closed in an earlier tick. -/
def closedK : State := (atO (fun x => { x with kAt := some 999999990 })).set (R.CHG_STAT_K 0) 1
def paused : State := plugged.setAll [(R.CHG_STAT_STATE 0, 5), (R.CHG_STAT_CP 0, 1)]

/-- The same in a capture phase. -/
def sampled : State := { pluggedIn with phase := .capture }

/-- The second published in the tick before, with values and without. -/
def secondIn (v : Bool) : State := { pluggedIn with chgSecond := some (999999999, v) }

theorem meets_OutletInputs :
    ((sampled.phase = .capture ∧ sampled.on (R.CHG_CTL_EN 0) = true ∧
      agreed ([(6000, -12000), (6000, -12000), (6100, -12000)].map (fun x : Int × Int => pilotCode (sampled.pwmOn 0) x.1 x.2)) = some 2) ∧
    (pluggedIn.on (R.CHG_CTL_EN 1) = true ∧ pluggedIn.on (R.CHG_CTL_TETHER 1) = false ∧ agreed ([220, 164, 308].map proxCode) = some 3 ∧
      agreed ([4500, 5000, 9000].map proxCode) = some 0 ∧ pluggedIn.get (R.CHG_STAT_PP 1) ≠ 0) ∧
    (pluggedIn.up = true ∧ 999999999 + 1 = pluggedIn.now ∧ (secondIn true).chgSecond = some (999999999, true) ∧
      (secondIn false).chgSecond = some (999999999, false))) ∧ pluggedIn.listening :=
  ⟨by decide +kernel, Or.inr rfl⟩

theorem meets_OutletCommandsComplete :
    (plugged.phase = .commit ∧ plugged.inSession 0 = true ∧ (plugged.outlet 0).passed = true ∧ plugged.outState 0 = 3 ∧
      plugged.pilotReady 0 = true ∧ 60 ≤ plugged.get (R.CHG_OFFER_OFFER 0) ∧ plugged.get (R.CHG_OFFER_OFFER 0) ≤ plugged.cable 0 ∧
      plugged.on (R.CHG_STAT_SAFE 0) = false ∧ plugged.on (R.CHG_STAT_K 0) = false ∧ plugged.on (R.CHG_CTL_TETHER 0) = true ∧
      (plugged.outlet 0).check = none ∧ plugged.on (R.CHG_STAT_MIR 0) = true ∧ plugged.on (R.CHG_STAT_VP 0) = false) ∧
    (welded.phase = .commit ∧ welded.inSession 0 = true ∧ (welded.outlet 0).passed = true ∧ welded.outState 0 = 3 ∧
      welded.pilotReady 0 = true ∧ 60 ≤ welded.get (R.CHG_OFFER_OFFER 0) ∧ welded.get (R.CHG_OFFER_OFFER 0) ≤ welded.cable 0 ∧
      welded.on (R.CHG_STAT_SAFE 0) = false ∧ welded.on (R.CHG_STAT_K 0) = false ∧ welded.on (R.CHG_CTL_TETHER 0) = true ∧
      (welded.outlet 0).check = none ∧ welded.on (R.CHG_STAT_VP 0) = true) ∧
    (((atO (fun x => { x with check := some (true, 7) })).outlet 0).check = some (true, 7) ∧ 7 + 1600 ≤ plugged.now) ∧
    ((atO (fun x => { x with check := some (false, 7) })).outlet 0).check = some (false, 7) ∧
    (((atO (fun x => { x with lockAt := some 7 })).outlet 0).lockAt = some 7 ∧ 7 + 8000 ≤ plugged.now ∧
      (atO (fun x => { x with lockAt := some 7 })).on (R.CHG_STAT_LOCKED 0) = false) ∧
    ((atO (fun x => { x with passed := false })).on (R.CHG_CTL_EN 0) = true ∧
      (atO (fun x => { x with passed := false })).inSession 0 = true ∧ ((atO (fun x => { x with passed := false })).outlet 0).passed = false ∧
      ((atO (fun x => { x with passed := false })).outlet 0).test = none ∧ (atO (fun x => { x with passed := false })).on (R.CHG_STAT_K 0) = false) ∧
    (((atO (fun x => { x with test := some 3, inj := some 249 })).outlet 0).test = some 3 ∧
      ((atO (fun x => { x with test := some 3, inj := some 249 })).outlet 0).inj = some 249 ∧ ((249 : Int) < 250 ∨ 350 < (249 : Int))) ∧
    (((351 : Int) < 250 ∨ 350 < (351 : Int)) ∧ shorted.on (R.CHG_STAT_K 0) = true ∧ (shorted.outlet 0).kAt = some shorted.now) ∧
    (closedK.on (R.CHG_STAT_K 0) = true ∧ (closedK.outlet 0).kAt ≠ some closedK.now) ∧
    (paused.up = true ∧ paused.outState 0 = 5 ∧ paused.outState 0 ≠ 3 ∧ paused.outState 0 ≠ 4 ∧ paused.get (R.CHG_STAT_CP 0) = 1) := by decide +kernel

/-- The account of the session, an ended session with its charging meter, account commands, and a page that holds the receipt key. -/
def banked : State := { pluggedIn with chg := { pluggedIn.chg with
  accounts := [(0, { token := [], tariff := 0, blocked := false, bal := 0, xfer := 0 })], limSec := 9, restored := true } }
def ended1 : EndedSession := ⟨1, 2, 3, 4, 5⟩
def owing : State :=
  let s := (pluggedIn.setAll [(R.CHG_MTR_METER, 0x00A00181), (R.CHG_STAT_PEND 0, 1)]).readyBanks.mstore (dirAddr 0) (leBytes 4 0x00A00181)
  s.onOutlet 0 (fun x => { x with ended := some ended1 })
/-- The same behind its charge and the lines of the directory that SESSION_RECORD reads. -/
def owed : State := owing.payOwed.readCandidates (owing.get R.CHG_MTR_METER)
def cmdOf (op a0 a1 a2 a3 : Nat) (restored : Bool) (acc : SMap Acct) : State :=
  { old with chg := { old.chg with cmd := some (op, a0, a1, a2, a3, 5), restored := restored, accounts := acc } }
def acct1 : Acct := { token := [], tariff := 0, blocked := false, bal := 0, xfer := 0 }
def rebuilt : State :=
  let s := old.setAll [(R.CIP_OWN_OWNER 0, 1), (R.FTL_STAT_RESTORED, 1)]
  { s with
    ftl := { s.ftl with sys := some ⟨1, 0, 0, 0, 0, [], false⟩ }
    chg := { s.chg with rcpt := some (0, 1) }
    sec := { s.sec with pages := [(0, { key := [1#8] })] } }

/-- A write of CHG_AUTH by firmware. -/
def authPasses (o v op : Nat) : Bool :=
  wpasses dev .fw (agentOf .fw 0) (R.CHG_AUTH o) 0xFFFF (BitVec.ofNat 32 (v + 4096 * op)) 0xFFFF

theorem meets_AccountWrites : authPasses 0 4095 1 = true ∧ authPasses 0 0 2 = true ∧ authPasses 1 0 3 = true ∧ authPasses 0 0 4 = true ∧
    authPasses 0 0 5 = true := by decide +kernel

theorem meets_AccountCommandsComplete :
    ((plugged.phase = .commit ∧ plugged.outState 0 = 3 ∧ plugged.inSession 0 = true ∧
      (plugged.outlet 0).inAuth + plugged.get (R.CHG_LIM_AUTHTO 0) * ticksPerSec ≤ plugged.now) ∧
    (banked.task0A = true ∧ secOf banked.tim.start ≠ banked.chg.limSec ∧ banked.inSession 0 = true ∧ banked.inSession 1 = false ∧
      SMap.at? banked.chg.accounts (banked.get (R.CHG_SACC_ACCT 0)) = some acct1) ∧
    (owing.up = true ∧ owing.task0A = true ∧ (owed.outlet 0).ended = some ended1 ∧ owed.dirFind (owed.get R.CHG_MTR_METER) = some 0 ∧
      owed.on (R.CHG_STAT_PEND 0) = true ∧ ended1.tick ≠ owed.now) ∧
    (rebuilt.up = true ∧ rebuilt.chg.restored = false ∧ rebuilt.task0A = true ∧ rebuilt.on R.FTL_STAT_RESTORED = true)) ∧
    rebuilt.rcptLoad = (some 0, rebuilt) ∧ banked.listening :=
  ⟨by decide +kernel, by decide +kernel, Or.inr rfl⟩

theorem meets_AccountCommands :
    (∀ op a0 a1 a2 a3 r acc, (cmdOf op a0 a1 a2 a3 r acc).chg.cmd = some (op, a0, a1, a2, a3, 5)) ∧
    ((cmdOf 1 0 0 0 0 false []).up = true ∧ (cmdOf 1 0 0 0 0 false []).task0A = true ∧ 5 < (cmdOf 1 0 0 0 0 false []).now ∧
      (cmdOf 1 0 0 0 0 false []).chg.restored = false) ∧
    ((cmdOf 1 4095 0 0 0x40000 true []).chg.restored = true ∧ bitsOf 0x40000 16 4 = 4 ∧ bitsOf 0x40000 20 4 = 0 ∧ bitsOf 0x40000 28 4 = 0 ∧
      SMap.at? (cmdOf 1 4095 0 0 0x40000 true []).chg.accounts 4095 = none) ∧
    (∀ op a1 a2, SMap.at? (cmdOf op 7 a1 a2 0 true [(7, acct1)]).chg.accounts 7 = some acct1) ∧ acct1.xfer < 2 ∧
    (cmdOf 6 7 0 0 0 true [(7, acct1)]).acctOpen 7 = false ∧ bitsOf 0xFFFF000F 4 12 = 0 :=
  ⟨fun _ _ _ _ _ _ _ => rfl, by decide +kernel, by decide +kernel, fun _ _ _ => rfl, by decide +kernel, by decide +kernel, by decide +kernel⟩

/-! Storage, ledger and recorder. -/

/-- A mounted BUFFERED array. -/
def storing : State :=
  let s := old.setAll [(R.FTL_STAT_STATE, 1), (R.FTL_CTL_EN, 1)]
  { s with ftl := { s.ftl with mounted := true } }
/-- In a capture phase, in which the array answers. -/
def answering (s : State) : State := { s with phase := .capture }
def ftlIs (f : Ftl → Ftl) : State := { storing with ftl := f storing.ftl }

/-- An array that programs a unit, erases a block, and one that a FORMAT erases. -/
def programming : State := answering (ftlIs (fun x => { x with progs := [{ what := .snap, lun := 1024, region := 2, data := [] }] }))
def erasing5 : State := answering (ftlIs (fun x => { x with erasing := [5] }))
def formatting : State := answering (ftlIs (fun x => { x with erasing := [5], format := some 1 }))
/-- A physical unit that holds nothing valid, in a victim block; eight dirty segments; the hold-up check. -/
def stale5 : State := { ftlIs (fun x => { x with victims := [5] }) with
  nand := { storing.nand with units := [(5, { lun := 3, wseq := 1, ctr := 1, tag := [], region := 3, kind := 1, seg := 0, data := [] })] } }
def dirty8 : State := ftlIs (fun x => { x with dirty := (List.range 8).map (fun k => (k, 1, 1)) })
def charging : State := { old with ftl := { old.ftl with hold := { start := some 0 } } }
def chargedLate : State := { oldC with ftl := { oldC.ftl with hold := { start := some 0 } } }
def blank : State :=
  let s := dev.set R.FTL_CTL_EN 1
  { s with ftl := { s.ftl with hold := { decided := some 0 } } }
/-- The parameter pages read before and behind the hold-up decision. -/
def unread : State := { blank with ftl := { blank.ftl with hold := {} } }
def known : State := { blank with ftl := { blank.ftl with array := true } }
def page1 : ParamPage := ⟨true, 1, 16384, 1024, 64, 1, 1, 0, 0, 1⟩
def buf1 : LBuf := ⟨2576, 0, [freeEntry], 0, false⟩

theorem meets_StorageCommandsComplete :
    (programming.phase = .capture ∧
      programming.ftl.progs[0]? = some { what := .snap, lun := 1024, region := 2, data := [] } ∧
      programming.regionOpen 2 = true) ∧
    (erasing5.phase = .capture ∧ erasing5.ftl.erasing.contains 5 = true ∧ erasing5.ftl.format = none ∧ erasing5.eraseWaits 5 = false) ∧
    (formatting.phase = .capture ∧ formatting.ftl.erasing.contains 5 = true ∧ formatting.ftl.format = some 1) ∧
    ((answering storing).phase = .capture ∧ storing.ftl.mounted = true ∧ (storing.mapped 2576).isSome = true) ∧
    (stale5.up = true ∧ stale5.ftl.mounted = true ∧ stale5.isl.warned = false ∧ stale5.readMap.mayCollect 5 = true ∧
      (stale5.readMap.moveUnits 5 (stale5.readMap.validIn 5) []).1 = true) ∧
    ((ftlIs (fun x => { x with bufs := [buf1] })).canFree = false ∧
      ((ftlIs (fun x => { x with bufs := [buf1] })).ftl.sys.map SysRec.spare).getD 0 = 0 ∧
      (ftlIs (fun x => { x with bufs := [buf1] })).ftl.bufs ≠ []) ∧
    (dirty8.up = true ∧ 8 ≤ dirty8.ftl.dirty.length ∧ dirty8.ftl.mounted = true) ∧
    (charging.up = true ∧ charging.ftl.hold.start = some 0 ∧ charging.isl.warned = false ∧ charging.ftl.hold.meas = none ∧
      8000 ≤ charging.get R.DRY_CFG_CHGTO * ticksPerSec ∧ 0 + 8000 + 80 + 20000 / 125 ≤ charging.now) ∧
    (chargedLate.phase = .commit ∧ chargedLate.ftl.hold.start = some 0 ∧ chargedLate.ftl.hold.meas = none ∧
      0 + chargedLate.get R.DRY_CFG_CHGTO * ticksPerSec ≤ chargedLate.now) ∧
    ({ dev with ftl := { dev.ftl with hold := { meas := some (1000, 20) } } } : State).ftl.hold.meas = some (1000, 20) ∧
    dev.on R.FTL_CTL_EN = false ∧
    (blank.up = true ∧ blank.on R.FTL_CTL_EN = true ∧ blank.ftl.hold.decided ≠ none ∧ blank.stor = 0 ∧ blank.ftl.mounted = false ∧
      blank.ftl.format = none ∧ blank.isl.warned = false ∧ Regs.wf blank.regs = true ∧ blank.ftl.array = false ∧
      arrayAccept (blank.get R.NND_CTL_CEMASK) [] = none ∧ (arrayAccept 1 [page1]).isSome = true ∧ blank.get R.NND_CTL_CEMASK = 1) ∧
    (unread.ftl.array = false ∧ unread.ftl.hold.decided = none ∧ known.ftl.array = true ∧ known.ftl.hold.decided ≠ none) ∧
    (old.up = true ∧ old.ftl.histAt + 3600 * ticksPerSec ≤ old.now) := by decide +kernel

def warnedC : State := { oldC with isl := { oldC.isl with warned := true, warnAt := 5, dry := { stage := 1 } } }
def held1 : State := storing.setAll [(R.FTL_STAT_HOLD, 1), (R.FTL_HOLD_HOLDU, 0)]
def unit1 : LUnit := ⟨2576, 0, 1⟩
def dried : State := { dev with isl := { dev.isl with dry := { stage := 2 } } }

theorem meets_LedgerCommandsComplete :
    (((dev.set R.CFG_STAT_STEP 9).up = true ∧ (dev.set R.CFG_STAT_STEP 9).get R.CFG_STAT_STEP = 9 ∧
      (dev.set R.CFG_STAT_STEP 9).storReady = true ∧ (dev.set R.CFG_STAT_STEP 9).isl.warned = false ∧
      (dev.set R.CFG_STAT_STEP 9).upd.lanes = false) ∧
    ((ftlIs (fun x => { x with bufs := [buf1] })).storWrites = true ∧
      (ftlIs (fun x => { x with bufs := [buf1] })).ftl.bufs.find? (fun b => (ftlIs (fun x => { x with bufs := [buf1] })).bufDue b) = some buf1) ∧
    ((ftlIs (fun x => { x with fences := [(1, 0)] })).ftl.fences = (1, 0) :: [] ∧ (ftlIs (fun x => { x with fences := [(1, 0)] })).durableTo 0 = true) ∧
    (({ dev with ftl := { dev.ftl with fences := [(1, 0)] } } : State).ftl.fences = (1, 0) :: [] ∧
      storing.isl.warned = false ∧ dev.isl.warned = false ∧ ({ dev with ftl := { dev.ftl with fences := [(1, 0)] } } : State).storWrites = false) ∧
    (storing.ftl.mounted = true ∧ storing.storWrites = true ∧ storing.on R.FTL_STAT_HOLD = false ∧
      storing.ledFree ≤ storing.get R.FTL_HOLD_HOLDU) ∧
    (held1.on R.FTL_STAT_HOLD = true ∧ held1.storWrites = true ∧ 2 * held1.get R.FTL_HOLD_HOLDU ≤ held1.ledFree) ∧
    ((ftlIs (fun x => { x with units := [unit1] })).ftl.units = unit1 :: [] ∧
      (ftlIs (fun x => { x with units := [unit1] })).ftl.await.any (fun l => decide (l < unit1.lsn + unit1.used)) = false ∧
      ((ftlIs (fun x => { x with units := [unit1] })).readLuns [unit1.lun]).mustRewrite unit1
        (((((ftlIs (fun x => { x with units := [unit1] })).readLuns [unit1.lun]).unitEntries unit1.lun).map Prod.snd).getD []) = []) ∧
    ((storing.set R.FTL_STAT_RESTORED 1).storWrites = true ∧ (storing.set R.FTL_STAT_RESTORED 1).on R.FTL_STAT_RESTORED = true ∧
      (storing.set R.FTL_STAT_RESTORED 1).ftl.copy = none ∧ (storing.set R.FTL_STAT_RESTORED 1).ckptDue = true ∧
      (ftlIs (fun x => { x with copy := some (0, 0, 0) })).ftl.copy.isSome = true ∧
      (storing.set R.FTL_STAT_RESTORED 1).on R.RPL_STAT_ZEROING = false ∧
      (storing.set R.FTL_STAT_RESTORED 1).isl.warned = false ∧ (storing.set R.FTL_STAT_RESTORED 1).bufferFree = true) ∧
    (warnedC.up = true ∧ warnedC.dryReady = true ∧ warnedC.isl.dry.stage = 1 ∧ warnedC.isl.warnAt + 1 < warnedC.now) ∧
    (dried.up = true ∧ dried.isl.dry.stage = 2 ∧ dried.isl.dry.items = [] ∧ dried.ftl.dirty = [])) ∧
    fieldPassed dev .fw R.FTL_FENCE_ISSUE 1 ∧
    fieldPassed devTest .s R.FTL_CMD_OP 1 ∧ devTest.fieldStands .s R.FTL_CMD_OP 1 :=
  ⟨by decide +kernel, passes_sound (by decide +kernel), passes_sound (by decide +kernel), fieldStands_sound (by decide +kernel)⟩

def ev1 : Ev := ⟨0x0101, 1, 2, 0, 0, 0, 0⟩
def raised1 : State := { dev with raised := [ev1] }
def barrier1 : State := { devC with raised := [{ ev1 with code := 0x1103 }, ev1] }
def loggedEv : State := { storing with evr := { storing.evr with log := [{ ev := ev1, seq := 1 }], place := 1 } }

theorem meets_RecorderCommandsComplete :
    (raised1.up = true ∧ raised1.nextRaised 0 false = some ev1) ∧
    (barrier1.phase = .commit ∧ barrier1.nextRaised 0 true = some { ev1 with code := 0x1103 } ∧
      ({ devC with raised := [{ ev1 with code := 0x1103 }] } : State).raised.all
        (fun x => decide (x.code = 0x1103 ∨ 0 < x.tick)) = true ∧
      ({ devC with raised := [{ ev1 with code := 0x1103 }] } : State).nextRaised 0 true = some { ev1 with code := 0x1103 }) ∧
    (1 : Fin 22).val ≠ 0 ∧ (dev.up = true ∧ dev.on R.EVR_CMD_BUSY = false ∧
      ({ dev with evr := { dev.evr with cmd := some (.fw, 3, 9) } } : State).evr.cmd = some (.fw, 3, 9)) ∧ fieldPassed dev .fw R.EVR_CMD_OP 2 ∧ fieldPassed dev .fw R.EVR_CMD_OP 3 ∧
    fieldPassed dev .fw R.EVR_CMD_OP 4 ∧ dev.fieldStands .fw R.EVR_CMD_OP 2 ∧ dev.fieldStands .fw R.EVR_CMD_OP 3 ∧
    dev.fieldStands .fw R.EVR_CMD_OP 4 ∧
    (loggedEv.bufferFree = true ∧ loggedEv.up = true ∧ loggedEv.ftl.mounted = true ∧ loggedEv.regionOpen 1 = true ∧ loggedEv.isl.warned = false ∧
      loggedEv.evTurns.find? (fun u => loggedEv.evDue u) = some 0) ∧
    (loggedEv.evMode = 1 ∧ loggedEv.evOpenUnit.isSome = true ∧ loggedEv.on R.EVR_CMD_BUSY = false) ∧
    loggedEv.fieldStands .fw R.EVR_CMD_OP 2 ∧ dev.evMode ≠ 1 :=
  ⟨by decide +kernel, by decide +kernel, by decide +kernel, by decide +kernel, passes_sound (by decide +kernel), passes_sound (by decide +kernel),
    passes_sound (by decide +kernel), fieldStands_sound (by decide +kernel), fieldStands_sound (by decide +kernel),
    fieldStands_sound (by decide +kernel), by decide +kernel, by decide +kernel, fieldStands_sound (by decide +kernel), by decide +kernel⟩

/-! Updates, the island, and the test interface. -/

theorem meets_UpdateCommandsComplete :
    (dev.up = true ∧ fieldPassed dev .fw R.UPD_CONFIRM_CONFIRM 1) ∧
    ((devC.set R.ISL_TRIAL_RUN 1).phase = .commit ∧ (devC.set R.ISL_TRIAL_RUN 1).on R.ISL_TRIAL_RUN = true ∧
      ((devC.set R.ISL_TRIAL_RUN 1).set R.ISL_TRIAL_LEFT 0).get R.ISL_TRIAL_LEFT = 0 ∧
      ((devC.set R.ISL_TRIAL_RUN 1).set R.ISL_TRIAL_LEFT 0).on R.ISL_TRIAL_RUN = true) ∧
    (locked.up = true ∧ locked.locked = true ∧ locked.nor.record.trial = false ∧ locked.nor.fixative = none) ∧
    (({ dev with svc := { dev.svc with vbus := true } } : State).svc.vbus = true ∧ 8 ≤ (octets [6, 0, 1, 0, 0, 0, 0, 0]).length ∧
      leAt (octets [6, 0, 1, 0, 0, 0, 0, 0]) 1 1 = 0 ∧
      leAt (octets [6, 0, 1, 0, 0, 0, 0, 0]) 6 2 = (octets [6, 0, 1, 0, 0, 0, 0, 0]).length - 8 ∧
      (octets [6, 0, 1, 0, 0, 0, 0, 0]).length ≤ 1240) ∧ dev.listening ∧
    ((answering dev).phase = .capture ∧ State.reset.phase = .held) :=
  ⟨⟨by decide +kernel, passes_sound (by decide +kernel)⟩, by decide +kernel, by decide +kernel, by decide +kernel,
    hears_sound (by decide +kernel), by decide +kernel⟩

theorem meets_IslandCommandsComplete :
    (dev.isl.dead = false ∧ dev.isl.battery = false ∧ dev.isl.warned = false ∧ dev.up = true) ∧
    (State.reset.isl.dead = false ∧ State.reset.isl.battery = false ∧ State.reset.isl.warned = false ∧ State.reset.phase = .held) ∧
    (({ State.reset with isl := { State.reset.isl with halted := true } } : State).isl.halted = true) ∧
    ((2449 : Nat) < 2450 ∧ 2450 ≤ (2450 : Nat)) ∧ fieldPassed dev .fw R.RTC_SETLO_SEC (0xFFFFFFFF#32).toNat ∧
    fieldPassed dev .fw R.ISL_WDKICK_KEY 0x4B ∧ (oldC.phase = .commit ∧ oldC.isl.wdAt + oldC.wdTicks ≤ oldC.now) ∧
    (onBattery.isl.dead = false ∧ onBattery.isl.battery = true) :=
  ⟨by decide +kernel, by decide +kernel, by decide +kernel, by decide +kernel, passes_sound (by decide +kernel),
    passes_sound (by decide +kernel), by decide +kernel, by decide +kernel⟩

/-- Writes of the test registers that pass (`wpasses_sound` and `passes_sound` give the hypotheses). -/
theorem meets_TestCommandsComplete :
    wpasses devTest .t 14 R.PRT_SKEW 0xFFFFF#32 (skewWord 0xFFFF 15) 0xFFFFF#32 = true ∧
    wpasses devTest .t 14 R.PRT_NAND 7#32 (nandWord 2) 7#32 = true ∧
    wpasses devTest .t 14 R.PRT_TAG 0x1FFF03#32 (tagWord true 255 31) 0x1FFF03#32 = true ∧
    passes devTest .t R.PRT_STEPNS_NS (999999999#31).toNat = true ∧
    wpasses devTest .t 14 R.PRT_LOOP 0xFF73#32 (loopWord 0 7 255) 0xFF73#32 = true ∧
    passes devTest .t R.PRT_CTL_DIRHOLD (b2n true) = true ∧
    (standing devTest .t 14 R.PRT_SKEW 0xFFFFF#32 (skewWord 0xFFFF 15) && standing devTest .t 14 R.PRT_NAND 7#32 (nandWord 2) &&
      standing devTest .t 14 R.PRT_TAG 0x1FFF03#32 (tagWord true 255 31) &&
      standing devTest .t 14 R.PRT_LOOP 0xFF73#32 (loopWord 0 7 255)) = true ∧
    (devTest.isl.dead = false ∧ devTest.isl.battery = false ∧ devTest.up = true ∧ devTest.pathOpen .t = true ∧ devTest.lc = lcTest ∧
      hears devTest = true) := by decide +kernel

/-! ### States and operands that meet the hypotheses of the other statements -/

theorem meets_StepRunsFrontCommand : State.reset.pending = [] := by decide +kernel

theorem meets_DeviceId : Regs.wf dev.regs = true ∧ Regs.wf devTest.regs = true := by decide +kernel

/-- A read and a write of bank 0 by agent `a`; a device with a fault already captured; a line with three symbols in error. -/
def rd (a : Nat) : Access := ⟨a, 0, none, 32, 0⟩
def wrA (a : Nat) (bs : List Byte) : Access := ⟨a, 4, some bs, 0, 0⟩

/-- `fieldJudged` as a computation. -/
def judges (s : State) (p : Path) (f : Fld) (v : Nat) : Bool :=
  hears s && s.pathOpen p && (match rowAt f.addr with
    | none => false
    | some r => !s.pageRefused p (agentOf p 0) f.addr r && decide (s.judgeRow p f.addr f.mask (f.write 0 v) r = ⟨f.mask, false, false⟩))

theorem judges_sound {s : State} {p : Path} {f : Fld} {v : Nat} (h : judges s p f v = true) : fieldJudged s p f v := by
  simp only [judges, Bool.and_eq_true] at h
  obtain ⟨⟨h1, h2⟩, h3⟩ := h
  refine ⟨hears_sound h1, h2, ?_⟩
  split at h3
  · exact absurd h3 (by simp)
  · rename_i r hr
    rw [Bool.and_eq_true, decide_eq_true_eq] at h3
    exact ⟨r, hr, by simpa using h3.1, h3.2⟩

def ready2 : State := ready.setAll [(R.BNK_FAULT_VALID, 1), (R.BNK_ERRADDR_VALID, 1)]
def broken1 (s : State) : State := { s with bnk := { s.bnk with damage := [(0, 3)] } }

theorem meets_IsolationFault :
    (ready.up = true ∧ Access.inSram (rd 7) = true ∧ ready.bankReady (bankOf 0) = true ∧ ready.owner (bankOf 0) ≠ 7 ∧ Regs.wf ready.regs = true) ∧
    (Access.inSram (wrA 7 [1#8]) = true ∧ ready.get R.BNK_FAULT_VALID = 0) ∧
    (ready2.up = true ∧ ready2.bankReady 0 = true ∧ ready2.owner 0 ≠ 7 ∧ Regs.wf ready2.regs = true ∧ ready2.get R.BNK_FAULT_VALID ≠ 0) ∧
    ((ready.set (R.BNK_CTL_OWNER 0) 0).owner 0 = 0 ∧ (ready.set (R.BNK_CTL_OWNER 0) 0).bankReady 0 = true ∧
      Regs.wf (ready.set (R.BNK_CTL_OWNER 0) 0).regs = true) := by decide +kernel

theorem meets_SleepingBankAccess : dev.up = true ∧ Access.inSram (rd 1) = true ∧ dev.bankReady (bankOf 0) = false ∧
    Access.inSram ⟨1, sramEnd - 1, some [1#8], 0, 0⟩ = true := by decide +kernel

theorem meets_BankPowerChange :
    (dev.up = true ∧ Regs.wf dev.regs = true ∧ Memory.wf dev.mem = true ∧ dev.get (R.BNK_CTL_PWR 0) ≠ 1 ∧ dev.get (R.BNK_CTL_PWR 0) ≠ 2 ∧
      ¬ (alwaysOn 0 = true ∧ dev.get R.KEY_LC_STATE = lcField)) ∧
    (alwaysOn 8 = true ∧ alwaysOn 31 = true ∧ alwaysOn 44 = true ∧ devField.get R.KEY_LC_STATE = lcField ∧ alwaysOn 7 = false ∧
      alwaysOn 32 = false ∧ devField.get (R.BNK_CTL_PWR 7) ≠ 2) ∧
    fieldJudged devField .fw (R.BNK_CTL_PWR 8) 1 ∧ fieldJudged devField .fw (R.BNK_CTL_PWR 44) 2 ∧
    dev.fieldStands .fw (R.BNK_CTL_PWR 0) 1 ∧ dev.fieldStands .fw (R.BNK_CTL_PWR 0) 2 :=
  ⟨by decide +kernel, by decide +kernel, judges_sound (by decide +kernel), judges_sound (by decide +kernel),
    fieldStands_sound (by decide +kernel), fieldStands_sound (by decide +kernel)⟩

theorem meets_HandoverFence : ready.fieldStands .fw (R.BNK_CTL_OWNER 0) 2 ∧
    ready.up = true ∧ Regs.wf ready.regs = true ∧ SMap.wf (fun _ => 0) ready.bnk.drain = true ∧ ready.ownerOpen .fw 0 = true ∧
      ready.owner 0 ≠ 2 ∧ (2 : Nat) ≠ 0 ∧ ready.bankReady 0 = true ∧ ready.owner 0 ≠ 0 :=
  ⟨fieldStands_sound (by decide +kernel), by decide +kernel⟩

theorem meets_FixedOwners : (dev.pathOpen .fw = true ∧ ¬ (Path.fw = .t ∧ dev.get R.KEY_LC_STATE = lcTest) ∧
    8 ≤ (8 : Fin 48).val ∧ (44 : Fin 48).val ≤ 44) ∧ dev.listening := ⟨by decide +kernel, hears_sound (by decide +kernel)⟩

/-- A read of the first line of the replay table by the validation engine, and that line with three symbols in error. -/
def rdRpl : Access := ⟨ready.owner (bankOf (32 * rplLine0)), 32 * rplLine0, none, 32, 0⟩
def brokenRpl : State := { ready with bnk := { ready.bnk with damage := [(rplLine0, 3)] } }

theorem meets_UncorrectableLine :
    ((broken1 ready).up = true ∧ Access.inSram (rd 1) = true ∧ (rd 1).wr = none ∧ 0 < (rd 1).len ∧ (rd 1).addr % 32 + (rd 1).len ≤ 32 ∧
      (broken1 ready).grants (bankOf (rd 1).addr) (rd 1).agent = .ok ∧ 3 ≤ (broken1 ready).dmg ((rd 1).addr / 32) ∧
      Regs.wf (broken1 ready).regs = true ∧ SMap.wf (fun _ => 0) (broken1 ready).bnk.damage = true ∧
      (broken1 ready).get R.BNK_ERRADDR_VALID = 0) ∧
    ((broken1 ready2).grants 0 1 = .ok ∧ 3 ≤ (broken1 ready2).dmg 0 ∧ Regs.wf (broken1 ready2).regs = true ∧
      (broken1 ready2).get R.BNK_ERRADDR_VALID ≠ 0) ∧
    (Access.inSram rdRpl = true ∧ rdRpl.addr % 32 + rdRpl.len ≤ 32 ∧ rplLine0 ≤ rdRpl.addr / 32 ∧ rdRpl.addr / 32 < rplLineEnd ∧
      brokenRpl.grants (bankOf rdRpl.addr) rdRpl.agent = .ok ∧ 3 ≤ brokenRpl.dmg (rdRpl.addr / 32) ∧ Regs.wf brokenRpl.regs = true ∧
      SMap.wf (fun _ => 0) brokenRpl.bnk.damage = true ∧ brokenRpl.get R.RPL_ERR_VALID = 0) := by decide +kernel

theorem meets_PortOrder :
    (ready.up = true ∧ Memory.wf ready.mem = true ∧ Access.inSram (wrA 1 [1#8, 2#8]) = true ∧ Access.inSram (wrA 1 [3#8]) = true ∧
      wordsMeet (wrA 1 [1#8, 2#8]) (wrA 1 [3#8]) = true ∧ Regs.wf ready.regs = true ∧ ready.grants (bankOf 4) 1 = .ok ∧ ready.bnk.damage = []) ∧
    (Access.inSram (rd 1) = true ∧ (rd 1).err = 0 ∧ (rd 1).wr = none ∧ ready.grants (bankOf 0) 1 = .ok) := by decide +kernel

theorem meets_UnmappedAccess :
    ((devTest.pathOpen .fw = true ∧ sramEnd ≤ 0x30000000 ∧ rowAt (0x30000000 / 4 * 4) = none ∧ 0x30000000 % 4 = 0 ∧
      Regs.wf devTest.regs = true ∧ devTest.isl.dead = false ∧ devTest.isl.battery = false ∧ devTest.pathOpen .t = true) ∧
    (rowAt (0xFFFFFFFD / 4 * 4) = none ∧ rowAt sramEnd = none ∧ devTest.get R.PROC_UNMAP_VALID = 0 ∧
      (devTest.set R.PROC_UNMAP_VALID 1).get R.PROC_UNMAP_VALID ≠ 0 ∧ Regs.wf (devTest.set R.PROC_UNMAP_VALID 1).regs = true)) ∧
    devTest.listening := ⟨by decide +kernel, hears_sound (by decide +kernel)⟩

/-- A condition on the fields that a mask reaches, and whether it reaches one. -/
def reached (r : RegRow) (mask : Word) (p : FRow → Bool) : Bool :=
  r.flds.all (fun f => decide (bitsOf mask.toNat f.lo f.w = 0) || p f) && r.flds.any (fun f => decide (bitsOf mask.toNat f.lo f.w ≠ 0))

theorem reached_sound {r : RegRow} {mask : Word} {p : FRow → Bool} (h : reached r mask p = true) :
    (∀ f ∈ r.flds, bitsOf mask.toNat f.lo f.w ≠ 0 → p f = true) ∧ (∃ f ∈ r.flds, bitsOf mask.toNat f.lo f.w ≠ 0) := by
  simp only [reached, Bool.and_eq_true, List.all_eq_true, List.any_eq_true, Bool.or_eq_true, decide_eq_true_eq] at h
  exact ⟨fun f hf hb => (h.1 f hf).resolve_left hb, h.2⟩

theorem meets_LockedWrite :
    (locked.pathOpen .fw = true ∧ sramEnd ≤ R.CHG_MTR ∧ locked.locked = true ∧ inPages R.CHG_MTR = false) ∧ locked.listening ∧
    ∃ r, rowAt R.CHG_MTR = some r ∧
      (∀ f ∈ r.flds, bitsOf (1#32).toNat f.lo f.w ≠ 0 → (decide (f.acc = .rwl) && locked.fieldOpen .fw R.CHG_MTR f) = true) ∧
      ∃ f ∈ r.flds, bitsOf (1#32).toNat f.lo f.w ≠ 0 :=
  ⟨by decide +kernel, hears_sound (by decide +kernel), (rowAt R.CHG_MTR).get (by decide +kernel), Option.some_get _ |>.symm,
    reached_sound (by decide +kernel)⟩

theorem meets_ClosedPathWrite :
    (devTest.pathOpen .s = true ∧ sramEnd ≤ R.PRT_SKEW ∧ inPages R.PRT_SKEW = false) ∧ devTest.listening ∧
    ∃ r, rowAt R.PRT_SKEW = some r ∧
      (∀ f ∈ r.flds, bitsOf (BitVec.allOnes 32).toNat f.lo f.w ≠ 0 → (!(devTest.fieldOpen .s R.PRT_SKEW f)) = true) ∧
      ∃ f ∈ r.flds, bitsOf (BitVec.allOnes 32).toNat f.lo f.w ≠ 0 :=
  ⟨by decide +kernel, hears_sound (by decide +kernel), (rowAt R.PRT_SKEW).get (by decide +kernel), Option.some_get _ |>.symm,
    reached_sound (by decide +kernel)⟩

theorem meets_RefusedWriteFrame : Regs.wf dev.regs = true ∧ dev.get R.PROC_LOCKV_VALID = 0 ∧ dev.get R.PROC_PATHREF_VALID = 0 ∧
    Regs.wf ready2.regs = true ∧ (dev.set R.PROC_LOCKV_VALID 1).get R.PROC_LOCKV_VALID ≠ 0 ∧
    (dev.set R.PROC_PATHREF_VALID 1).get R.PROC_PATHREF_VALID ≠ 0 := by decide +kernel

theorem meets_CommitOrder : Regs.wf dev.regs = true ∧ dev.up = true ∧ dev.occ = [] := by decide +kernel

/-- Queue 6 enabled; with a frame marked open; between its marks. -/
def enabled6 : State := dev.set (R.QUE_CTL_EN 6) 1
def marked (hi lo : Nat) : State :=
  (enabled6.setAll [(R.QUE_STAT_MODE 6, 0), (R.QUE_WMH_HIGH 6, hi), (R.QUE_WML_LOW 6, lo)]).putQueue 6 { head := [⟨0, 0⟩, ⟨0, 0⟩] }

theorem meets_FrameReservation :
    (Regs.wf enabled6.regs = true ∧ SMap.wf queueDefault enabled6.queues = true ∧ (enabled6.queue 6).frame = none) ∧
    (enabled6.frameFits 6 1 = true ∧ enabled6.frameFits 6 62 = decide (62 ≤ enabled6.qCap 6) ∧ enabled6.frameFits 6 0 = false ∧
      enabled6.frameFits 6 63 = false ∧ dev.frameFits 6 1 = false ∧ Regs.wf dev.regs = true ∧ (dev.queue 6).frame = none) ∧
    hears enabled6 = true := by decide +kernel

theorem meets_RingAdvance : dev.up = true ∧ Regs.wf dev.regs = true ∧
    dev.ringOcc 6 < (dev.get (R.QUE_RING_WPTR 6) + 2048 - 1) % 2048 ∧
    (dev.get (R.QUE_RING_WPTR 6) + 2048 - 0) % 2048 ≤ dev.ringOcc 6 := by decide +kernel

theorem meets_ModeChange :
    dev.on (R.QUE_CTL_MODE 6) = true ∧
    (enabled6.on (R.QUE_CTL_MODE 6) ≠ false ∧
      ¬ (enabled6.on (R.QUE_CTL_EN 6) = false ∧ enabled6.qCommitted 6 = 0 ∧ (enabled6.queue 6).frame = none)) ∧
    (dev.on (R.QUE_CTL_MODE 6) ≠ false ∧ dev.on (R.QUE_CTL_EN 6) = false ∧
      dev.qCommitted 6 = 0 ∧ (dev.queue 6).frame = none ∧ dev.up = true ∧ Regs.wf dev.regs = true ∧ SMap.wf queueDefault dev.queues = true) := by
  decide +kernel

theorem meets_Hysteresis :
    (Regs.wf (marked 2 1).regs = true ∧ (marked 2 1).get R.PRT_BP0_QUEUES = 0 ∧ (marked 2 1).get (R.QUE_WMH_HIGH 6) ≤ (marked 2 1).qOcc 6) ∧
    ((marked 3 2).qOcc 6 < (marked 3 2).get (R.QUE_WMH_HIGH 6) ∧ (marked 3 2).qOcc 6 ≤ (marked 3 2).get (R.QUE_WML_LOW 6)) ∧
    ((marked 3 1).qOcc 6 < (marked 3 1).get (R.QUE_WMH_HIGH 6) ∧ (marked 3 1).get (R.QUE_WML_LOW 6) < (marked 3 1).qOcc 6) := by decide +kernel

/-- A record of meter 00A0_0181h with counter 5 whose tag is right under a Heart note, and a device that holds that note. -/
def note1 : List Byte := List.replicate 32 7#8
def goodRec : Rec := BitVec.ofNat 512 (0x00A00181 * 2 ^ 32 + 5 * 2 ^ 64 + leNat (octets [99, 213, 174, 128, 82, 69, 97, 156]) * 2 ^ 448)
def heart1 : Heart := ⟨10, 3, some note1⟩
def knows : State := { ready with val := { ready.val with hearts := [heart1] } }

theorem meets_ReplayComparison :
    (knows.bnk.damage = [] ∧ knows.heartOf (domainOf (recMeter goodRec)) 3 = some heart1 ∧ heart1.note = some note1 ∧
      tagOf (meterKey note1 (recMeter goodRec) 3) goodRec = recTag goodRec ∧ knows.on R.PRT_TAG_ARMED = false ∧
      replayVerdict (knows.rpl 0) (recCtr goodRec) = 0 ∧ knows.served (bankOf (rplAddr 0)) = true) ∧
    ((0 : Nat) < 2 ^ 20 ∧ Memory.wf knows.mem = true ∧ Regs.wf knows.regs = true ∧ recCtr goodRec ≠ 0xFFFFFFFF ∧
      recCtr (BitVec.ofNat 512 (0xFFFFFFFF * 2 ^ 64)) = 0xFFFFFFFF) := by decide +kernel

theorem meets_LaneFaultHolds : dev.up = true ∧ dev.phase = .compute ∧ Regs.wf dev.regs = true ∧ SMap.wf lane0 dev.val.lanes = true ∧
    ((dev.putLane 2 { resume := 2 }).lane 2).next ≤ 124 ∧ (dev.putLane 2 { resume := 2 }).now ≤ dev.now + 1 := by decide +kernel

theorem meets_ReportQueue : Regs.wf dev.regs = true ∧
    16 ≤ ({ dev with bal := { dev.bal with reports := List.replicate 16 [] } } : State).bal.reports.length ∧
    ({ dev with bal := { dev.bal with reports := List.replicate 15 [] } } : State).bal.reports.length < 16 := by decide +kernel

theorem meets_EnergyBaseOnce :
    (dev.up = true ∧ dev.on R.NRG_STAT_BASED = false ∧ Regs.wf dev.regs = true) ∧
    ((dev.set R.NRG_STAT_BASED 1).on R.NRG_STAT_BASED = true ∧ Regs.wf (dev.set R.NRG_STAT_BASED 1).regs = true) ∧
    fieldJudged (dev.set R.NRG_STAT_BASED 1) .fw R.NRG_CTL_ADD 1 :=
  ⟨by decide +kernel, by decide +kernel, judges_sound (by decide +kernel)⟩

/-- Page 1 of processor 3 with a job under way. -/
def owned1 : State := { paged with sec := jobbing.sec }

theorem meets_BusyPage :
    ((owned1.pathOpen .fw = true ∧ sramEnd ≤ R.CIP_CTL 1 ∧ (rowAt (R.CIP_CTL 1)).isSome = true ∧ owned1.ownPage 3 (R.CIP_CTL 1) = true ∧
      agentOf .fw 2 = 3 ∧ (owned1.page (R.CIP_CTL 1 / 256 % 256)).busy = true ∧ inPages (R.CIP_CTL 1) = true ∧
      R.CIP_CTL 1 ≠ R.CIP_CMD (R.CIP_CTL 1 / 256 % 256)) ∧
    (owned1.ownPage 3 (R.CIP_CMD 1) = true ∧ (rowAt (R.CIP_CMD 1)).isSome = true ∧
      owned1.newVal (R.CIP_CMD_OP (R.CIP_CMD 1 / 256 % 256)) 7#32 1#32 ≠ 2)) ∧ owned1.listening :=
  ⟨by decide +kernel, hears_sound (by decide +kernel)⟩

theorem meets_DieResetReach : Regs.wf ready2.regs = true ∧ islandReg R.ISL_ID = true ∧ islandReg (R.BNK_CTL 0) = false ∧
    R.BNK_CTL 0 ≠ R.KEY_STAT := by decide +kernel

theorem meets_WatchdogKick : dev.up = true ∧ dev.isl.wd4B = false ∧ dev.isl.warned = false ∧ Regs.wf dev.regs = true ∧
    ({ dev with isl := { dev.isl with wd4B := true } } : State).isl.wd4B = true := by decide +kernel

theorem meets_RtcSet : dev.up = true ∧ Regs.wf dev.regs = true ∧ dev.isl.stopped = false ∧ 2 ^ 47 < 2 ^ 48 := by decide +kernel

theorem meets_EventSequence :
    (Regs.wf (dev.set R.EVR_STAT_FULL 1).regs = true ∧ (dev.set R.EVR_STAT_FULL 1).isl.warned = false ∧
      (dev.set R.EVR_STAT_FULL 1).on R.EVR_STAT_FULL = true) ∧
    (Regs.wf dev.regs = true ∧ dev.isl.warned = false ∧ dev.on R.EVR_STAT_FULL = false ∧ dev.evMerges ev1 = false ∧ dev.evRoom = true ∧
      dev.evLeft ≠ 1) ∧
    (Regs.wf loggedEv.regs = true ∧ loggedEv.isl.warned = false ∧ loggedEv.on R.EVR_STAT_FULL = false ∧ loggedEv.evMerges ev1 = true) := by
  decide +kernel

theorem meets_JtagInstructions :
    (devField.isl.dead = false ∧ devField.isl.battery = false ∧ devField.get R.KEY_LC_STATE ≠ 1 ∧
      ¬ (devField.get R.KEY_LC_STATE = 2 ∧ devField.on R.PRT_CTL_OPEN = true)) ∧
    (State.reset.isl.dead = false ∧ State.reset.isl.battery = false) := by decide +kernel

/-- A held device with a command other than a release in front. -/
theorem meets_HeldUntilRelease : held { State.reset with pending := [.crystalStop] } ∧
    ∃ t, step { State.reset with pending := [.crystalStop] } = .next t :=
  ⟨⟨rfl, rfl, rfl, rfl, by simp⟩, _, rfl⟩

theorem meets_FabricKeepsForm : (fabricCommand (.bankAccess (rd 1) none) ∧ fabricCommand (.scrub [] [])) ∧
    Memory.wf ({ ready with pending := [.bankAccess (rd 1) none] } : State).mem = true ∧
    (∃ t, step { ready with pending := [.bankAccess (rd 1) none] } = .next t) ∧ ready.up = true :=
  ⟨⟨.inl ⟨_, _, rfl⟩, .inr (.inr (.inr (.inr (.inr (.inr ⟨_, _, rfl⟩)))))⟩, by decide +kernel, ⟨_, rfl⟩, by decide +kernel⟩

/-! ### Worked examples of the manual, on single operations -/

/-- R103 and its example: buckets and entries of METER 0030_1A2Bh, and where entry 25,913 lies. -/
theorem test_buckets : bucket1 0x00301A2B = 218 ∧ bucket2 0x00301A2B = 3239 ∧ bucketEntries 218 = [1744, 1745, 1746, 1747, 1748, 1749, 1750, 1751] ∧
    (bucketEntries 3239).head? = some 25912 ∧ dirAddr 25913 = 0x008B2980 ∧ bankOf 0x008B2980 = 17 := by decide +kernel

/-- The worked record of the records chapter. -/
def worked : Rec := recOf (octets [0x01, 0x20, 0, 0, 0x2B, 0x1A, 0x30, 0, 0xD2, 4, 0, 0, 0x10, 0x3A, 2, 0, 0x3E, 0x49, 0, 0, 0, 0, 0, 0, 0x79, 0xFD,
  0x44, 0, 0, 0, 0, 0, 0, 0, 0, 0, 0, 0, 0, 0, 0xD9, 8, 0x5E, 9, 0x0F, 0, 0, 0, 0, 0, 0, 0, 0, 0, 0, 0, 0x5A, 0x0C, 0x91, 0xE7, 0x3D, 0x44, 0xB2, 0x68])

theorem test_record : recMeter worked = 0x00301A2B ∧ recCtr worked = 1234 ∧ domainOf (recMeter worked) = 3 ∧ indexOf (recMeter worked) = 6699 ∧
    recTag worked = octets [0x5A, 0x0C, 0x91, 0xE7, 0x3D, 0x44, 0xB2, 0x68] ∧ recBytes worked = recBytes (recOf (recBytes worked)) ∧
    lenOk 1 32 = true ∧ lenOk 1 41 = false := by decide +kernel

/-- The example of R86: RPTR 3FCh and WPTR 406h. -/
theorem test_ring : (dev.setAll [(R.QUE_RING_RPTR 6, 0x3FC), (R.QUE_RING_WPTR 6, 0x406)]).ringOcc 6 = 10 ∧
    (enabled6.setAll [(R.QUE_RING_RPTR 6, 0x3FC), (R.QUE_RING_WPTR 6, 0x406)]).frameFits 6 20 = true ∧
    (enabled6.setAll [(R.QUE_RING_RPTR 6, 5), (R.QUE_RING_WPTR 6, 0x405)]).frameFits 6 1 = false := by decide +kernel

/-- The examples of R199 and R207: the 140-byte DQPSK frame. -/
theorem test_plc_frame : plcHeader 2 140 = 0x600232 ∧ headerParse 1 0x600232 = some (2, 140) ∧ plcCoded 140 = 2508 ∧ plcSymbols 2 140 = 28 ∧
    plcBursts 1 2 140 = 6 ∧ (List.range 5).map (fun b => burstLen 1 28 (b + 1)) = [3, 7, 7, 7, 4] := by decide +kernel

/-- R202: eight bytes in error are corrected. -/
def word11 : List Nat := List.replicate 8 0 ++ [1, 2, 3] ++ rsParity (List.replicate 8 0 ++ [1, 2, 3])

theorem test_reed_solomon : rsCorrect word11 = some (word11, 0) ∧ rsCorrect (List.replicate 8 255 ++ word11.drop 8) = some (word11, 8) := by
  decide +kernel

/-- The worked message of the head-end protocol: header and IV. -/
theorem test_sup_header : supHeader 2 0 0x5C3A0017 0x100A41 1164 0 = octets [1, 2, 0, 0, 0x17, 0, 0x3A, 0x5C, 0x41, 0x0A, 0x10, 0, 0, 0, 0, 0,
      0x8C, 4, 0, 0, 0, 0, 0, 0] ∧
    nonceOf (octets [0x9D, 0x2E, 0x71, 0x04]) 0x100A41 = octets [0x9D, 0x2E, 0x71, 0x04, 0x41, 0x0A, 0x10, 0, 0, 0, 0, 0] := by decide +kernel

/-- R385: 16.0 A gives 266 per mille, 63.0 A gives 892, and less than 6.0 A no offer. -/
theorem test_duty : dutyOf 160 = 266 ∧ dutyOf 630 = 892 ∧ dutyOf 510 = 850 ∧ dutyOf 511 = 844 ∧ dutyOf 59 = 0 := by decide +kernel

/-- The example of R434: 8 LUNs, t_U 400 µs, 400 MT/s, 1.00 W; a new part of 10 mF and an aged one. -/
def sized : State := { dev.setAll [(R.NND_CTL_RATE, 4), (R.DRY_CFG_PDD, 100), (R.DRY_CFG_ICH, 1)] with
  nand := { dev.nand with geo := { luns := 8, page := 16384, tprog := 400 } } }

/-- A quotient to the nearest tenth of a millijoule, as the example gives it. -/
def nearest (e : Nat × Nat) : Nat := (2 * e.1 + e.2) / (2 * e.2)

theorem test_hold_up : sized.holdRequired = 124 ∧ nearest (sized.holdEnergy 62000 6) = 873 ∧ nearest (sized.holdEnergy 9600 60) = 114 := by
  decide +kernel

/-- R452's worked example: power cycle 212, anchor pair 90,001-90,002, and the forged record SEQ 90,015 with 39 merges. -/
def anchorT : EvRec := { ev := ⟨0x1101, 17, 0, 0, 5000017, 212, 0⟩, seq := 90001 }
def anchorD : EvRec := { ev := ⟨0x1102, 17, 0, evData [(0, 6, 1718000040), (6, 4, 250000000)], 5000017, 212, 0⟩, seq := 90002 }
def forged : EvRec := { ev := ⟨0x0501, 5, 1, evData [(0, 4, 0x00301A2B), (4, 1, 3), (6, 1, 6)], 5000100, 212, 0⟩, seq := 90015, rep := 39 }
theorem test_event_record : evHead forged true = octets [0x01, 0x05, 0x05, 0x05, 0xA4, 0x4B, 0x4C, 0x00, 0xD4, 0x00, 0x27, 0x00, 0x9F, 0x5F, 0x01,
    0x00, 0x2B, 0x1A, 0x30, 0x00, 0x03, 0x00, 0x06, 0x00, 0x00, 0x00, 0x00, 0x00] := by decide +kernel
theorem test_event_time : evTimeIn [anchorT, anchorD, forged] forged = some 1718000123250000000 ∧
    (dev.setAll [(R.TIM_UTC_OFS, 37), (R.TIM_UTC_UVALID, 1)]).utcSecond 1718000123250000000 = some 1718000086 := by decide +kernel

/-- The examples of R530 and R535: register addresses, and one that no register answers. -/
theorem test_addresses : R.QUE_WMH 6 = 0x210000C8 ∧ R.BAL_GCTL 1 = 0x21040140 ∧ (rowAt 0x21040140).isSome = true ∧
    rowAt 0x21040500 = none ∧ (rowAt 0x210404CC).isSome = true ∧ R.CIP_IV 3 48 = 0x2400303C := by decide +kernel

/-- R343 rests on published standards: FIPS 197 with a 256-bit key, SHA-256 of "abc", and the CRC-32 of R446 on "123456789". -/
theorem test_aes : aesEnc ((List.range 32).map (BitVec.ofNat 8)) ((List.range 16).map (fun i => BitVec.ofNat 8 (17 * i))) =
    octets [0x8E, 0xA2, 0xB7, 0xCA, 0x51, 0x67, 0x45, 0xBF, 0xEA, 0xFC, 0x49, 0x90, 0x4B, 0x49, 0x60, 0x89] := by decide +kernel

theorem test_sha256 : (sha256 (octets [0x61, 0x62, 0x63])).take 8 = octets [0xBA, 0x78, 0x16, 0xBF, 0x8F, 0x01, 0xCF, 0xEA] := by decide +kernel

theorem test_crc32 : crc32 (octets [0x31, 0x32, 0x33, 0x34, 0x35, 0x36, 0x37, 0x38, 0x39]) = 0xCBF43926 := by decide +kernel

/-- No row of the command table gives bits. -/
theorem test_no_words : decodeTableWord 32 0 = none ∧ decodeTableWord 0 0xFFFFFFFF = none := ⟨rfl, rfl⟩

end Sys2Proof.Tests
end

section
/-!
R1: the device identification register is hard-wired.  A bus write to a register whose fields are all read-only passes no bit, so that it
is at most counted as refused, and counts and captures of refused writes stay in their own registers.
-/
namespace Sys2Proof.Machine

/-! ### Writes of which no bit passes -/

/-- A write of which no bit passes. -/
def Judgement.Stopped (j : Judgement) : Prop := j.mask = 0

theorem Judgement.Stopped.barPath {j : Judgement} (h : j.Stopped) {f : Fld} {c : Bool} : (j.barPath f c).Stopped := by
  unfold Judgement.Stopped at h
  simp [Judgement.Stopped, Judgement.barPath, Fld.hit, h]

theorem Judgement.Stopped.barLock {j : Judgement} (h : j.Stopped) {f : Fld} {c : Bool} : (j.barLock f c).Stopped := by
  unfold Judgement.Stopped at h
  simp [Judgement.Stopped, Judgement.barLock, Fld.hit, h]

theorem Judgement.Stopped.ite {c : Prop} [Decidable c] {j k : Judgement} (hj : j.Stopped) (hk : k.Stopped) :
    (if c then j else k).Stopped := by
  split
  · exact hj
  · exact hk

theorem Judgement.Stopped.barBank {j : Judgement} (h : j.Stopped) (s : State) (p : Path) (b : Nat) (m v : Word) :
    (s.barBank p b m v j).Stopped := by
  unfold State.barBank
  refine Judgement.Stopped.barLock (.ite ?_ h)
  unfold Judgement.Stopped at h
  simp [Judgement.Stopped, h]

theorem Judgement.Stopped.barWindow {j : Judgement} (h : j.Stopped) (s : State) (a : Nat) (v : Word) : (s.barWindow a v j).Stopped := by
  unfold State.barWindow
  exact .ite rfl h

/-- The bars of the blocks let no bit pass that the fields' own judgement stopped. -/
theorem Judgement.Stopped.bars {j : Judgement} (h : j.Stopped) (s : State) (p : Path) (a : Nat) (m v : Word) :
    (s.bars p a m v j).Stopped := by
  have hj : (j.barPath ⟨a, 0, 32⟩ (p = .fw && decide (a / 65536 = R.CIP_CNT / 65536))).Stopped := h.barPath
  unfold State.bars
  dsimp only
  split
  · exact hj.barBank s p _ m v
  · refine .ite (hj.barWindow s a v) <| .ite hj.barPath <| .ite hj.barPath <| .ite hj.barPath.barLock <| .ite hj.barPath <|
      .ite hj.barPath <| .ite hj.barLock <| .ite hj.barLock <| .ite hj.barLock <| .ite hj.barLock <| .ite hj.barPath.barLock <|
      .ite hj.barLock ?_
    split
    · exact hj.barLock
    · split
      · exact hj.barLock
      · exact hj

/-- No bit of a read-only field passes (R11). -/
theorem State.judgeField_ro (s : State) (p : Path) (a : Nat) (m v : Word) {f : FRow} (h : f.acc = .ro) :
    s.judgeField p a m v f ≠ some .pass := by
  unfold State.judgeField
  rw [h]
  dsimp only
  split
  · simp
  · split <;> simp

/-- No bit of a register passes whose fields are all read-only. -/
theorem State.judgeRow_ro (s : State) (p : Path) (a : Nat) (m v : Word) {r : RegRow} (h : ∀ f ∈ r.flds, f.acc = .ro) :
    (s.judgeRow p a m v r).Stopped := by
  unfold State.judgeRow
  refine List.foldlRecOn r.flds _ (motive := Judgement.Stopped) rfl fun j hj f hf => ?_
  have := s.judgeField_ro p a m v (h f hf)
  split
  · contradiction
  all_goals exact hj

/-! ### What a refused write leaves unchanged -/

/-- The registers that count and capture refused accesses (R535). -/
def refusalWord (a : Nat) : Bool :=
  [R.PROC_LOCKV, R.PROC_LOCKA, R.PROC_PATHREF, R.PROC_PATHA, R.PROC_UNMAP, R.PROC_UNMAPA].contains a

/-- A refused access changes the registers of its own count and capture only (R535). -/
theorem State.word_refuse_ne (s : State) (k : Refused) (p : Path) (b : Nat) {a : Nat} (h : refusalWord a = false)
    (hs : Regs.wf s.regs = true) : (s.refuse k p b).word a = s.word a := by
  simp only [refusalWord, List.contains_eq_mem, decide_eq_false_iff_not, List.mem_cons, List.not_mem_nil, or_false, not_or] at h
  obtain ⟨hlv, hla, hpr, hpa, hu, hua⟩ := h
  have frame : ∀ (count agent valid addr : Fld), a ≠ count.addr → a ≠ agent.addr → a ≠ valid.addr → a ≠ addr.addr →
      ((s.bump count).capture valid [(agent, pathCode p), (addr, b)]).word a = s.word a := by
    intro count agent valid addr hc hg hv hd
    have hl : ∀ e ∈ [(agent, pathCode p), (addr, b)], a ≠ e.1.addr := by simp [hg, hd]
    exact (State.word_capture_ne _ valid _ a hv hl (s.bumpBy_wf count 1 hs)).trans (s.word_bumpBy_ne count 1 a hc hs)
  cases k with
  | lock => exact frame _ _ _ _ hlv hlv hlv hla
  | path => exact frame _ _ _ _ hpr hpr hpr hpa
  | unmapped => exact frame _ _ _ _ hu hu hu hua

theorem State.word_countJudged_ne (s : State) (p : Path) (b : Nat) (j : Judgement) {a : Nat} (h : refusalWord a = false)
    (hs : Regs.wf s.regs = true) : (s.countJudged p b j).word a = s.word a := by
  unfold State.countJudged
  split
  · exact s.word_refuse_ne _ p b h hs
  · split
    · exact s.word_refuse_ne _ p b h hs
    · rfl

/-! ### Writes outside the cipher pages -/

theorem State.ownPage_of_not_page (s : State) (agent : Nat) {a : Nat} (h : inPages a = false) : s.ownPage agent a = false := by
  simp [State.ownPage, h]

theorem State.pageRefused_of_not_page (s : State) (p : Path) (agent : Nat) {a : Nat} (r : RegRow) (h : inPages a = false) :
    s.pageRefused p agent a r = false := by
  simp [State.pageRefused, h]

/-- A bus write to a register whose fields are all read-only, outside the cipher pages, waits for no commit: it is counted if it is
refused, and nothing else (R11, R533). -/
theorem State.busWrite_ro (s : State) (p : Path) (agent : Nat) {a : Nat} (m v : Word) {r : RegRow} (hr : rowAt a = some r)
    (hro : ∀ f ∈ r.flds, f.acc = .ro) (hp : inPages a = false) (hd : a ≠ R.DIR_CMD) :
    s.busWrite p agent a m v = s.countJudged p a (s.bars p a m v (s.judgeRow p a m v r)) := by
  unfold State.busWrite
  rw [hr]
  dsimp only
  rw [if_neg (by simp [s.pageRefused_of_not_page p agent r hp]), if_neg (by simp [hd]),
    if_neg (by simp [s.ownPage_of_not_page agent hp])]
  exact s.judgeWrite_refused p agent a m v r _ rfl ((s.judgeRow_ro p a m v hro).bars s p a m v)
    (s.ownPage_of_not_page agent hp)

/-- A narrow write to an address of a register outside the cipher pages changes nothing (R9). -/
theorem State.narrowWrite_of_not_page (s : State) (p : Path) (agent : Nat) {a : Nat} {r : RegRow} (hr : rowAt (a / 4 * 4) = some r)
    (hp : inPages a = false) : s.narrowWrite p agent a = s := by
  unfold State.narrowWrite
  rw [hr]
  dsimp only
  rw [if_neg (by simp [s.pageRefused_of_not_page p agent r hp])]

/-! ### ISL_ID -/

/-- The row of ISL_ID in the register table (R515). -/
def islIdRow : RegRow := ⟨"ISL_ID", 0x2F000000, [], [⟨"ID", 0, 32, .ro, 0x96400A01, 14, []⟩], []⟩

theorem rowAt_islId : rowAt R.ISL_ID = some islIdRow := by decide +kernel

theorem islIdRow_ro : ∀ f ∈ islIdRow.flds, f.acc = .ro := by decide

theorem word_reset_islId : State.reset.word R.ISL_ID = 0x96400A01#32 := by decide +kernel

theorem State.setWord_islId (s : State) (w : Word) : s.setWord R.ISL_ID w = s :=
  s.setWord_of_not_writable w (by simp [writable, hardWired])

/-- ISL_ID keeps its word whichever register is written (R1). -/
theorem State.word_setWord_islId (s : State) (a : Nat) (w : Word) (hs : Regs.wf s.regs = true) :
    (s.setWord a w).word R.ISL_ID = s.word R.ISL_ID := by
  by_cases h : R.ISL_ID = a
  · rw [← h, s.setWord_islId w]
  · exact s.word_setWord_ne w h hs

/-- A write to ISL_ID by an open path leaves its word (R1). -/
theorem State.word_pathWrite_islId (s : State) (p : Path) (agent : Nat) (m v : Word) (narrow : Bool) (hs : Regs.wf s.regs = true) :
    (s.pathWrite p agent R.ISL_ID m v narrow).word R.ISL_ID = s.word R.ISL_ID := by
  unfold State.pathWrite
  rw [if_neg (show ¬ R.ISL_ID < sramEnd by decide)]
  split
  · rw [s.narrowWrite_of_not_page p agent (a := R.ISL_ID) rowAt_islId (by decide)]
  · rw [s.busWrite_ro p agent m v rowAt_islId islIdRow_ro (by decide) (by decide)]
    exact s.word_countJudged_ne p R.ISL_ID _ (by decide) hs

/-- REGISTER_WRITE to ISL_ID leaves its word in every part of a tick (R1, R38). -/
theorem word_registerWrite_islId (s : State) (p : Path) (cpu : Fin 4) (m v : Word) (narrow : Bool) (hs : Regs.wf s.regs = true) :
    ∃ t, exec (.registerWrite p cpu R.ISL_ID m v narrow) s = .next t ∧ t.word R.ISL_ID = s.word R.ISL_ID := by
  refine ⟨_, rfl, ?_⟩
  have received : (if s.pathOpen p = false then s else s.pathWrite p (agentOf p cpu) R.ISL_ID m v narrow).word R.ISL_ID =
      s.word R.ISL_ID := by
    split
    · rfl
    · exact s.word_pathWrite_islId p _ m v narrow hs
  cases ph : s.phase with
  | held => rw [s.receive_held _ _ ph]
  | commit =>
    rw [s.receive_commit _ _ ph]
    rfl
  | capture => rwa [s.receive_listening _ _ (.inl ph)]
  | compute => rwa [s.receive_listening _ _ (.inr ph)]

/-- Settles O31: ISL_ID is hard-wired, so no operation on the register file reaches it, and no bit of a bus write to it passes. -/
theorem deviceId : Obligations.DeviceId := by
  unfold Obligations.DeviceId
  exact ⟨word_reset_islId, State.setWord_islId, State.word_setWord_islId, word_registerWrite_islId⟩

end Sys2Proof.Machine
end

section
/-!
What a counted and captured occurrence leaves in the register file, for a count, a VALID flag and captured fields wherever they lie (R27,
R31, R535).
-/
namespace Sys2Proof.Machine

/-! ### Captures -/

theorem Fld.apart_comm (f g : Fld) : f.apart g = g.apart f := by
  unfold Fld.apart
  rw [Bool.or_right_comm]
  simp only [ne_comm]

/-- A VALID flag and the fields captured with it: they exist, lie inside their words and share no bit. -/
structure CaptureLayout (valid : Fld) (fs : List Fld) : Prop where
  exist : ∀ f ∈ valid :: fs, writable f.addr = true
  inside : ∀ f ∈ valid :: fs, f.lo + f.w ≤ 32
  flag : valid.w = 1
  flagApart : ∀ f ∈ fs, valid.apart f = true
  apart : fs.Pairwise (fun f g => f.apart g = true)

/-- Each of several fields that share no bit reads the value written to it. -/
theorem State.get_setAll_mem (l : List (Fld × Nat)) (s : State) (hw : ∀ e ∈ l, writable e.1.addr = true)
    (hf : ∀ e ∈ l, e.1.lo + e.1.w ≤ 32) (ha : l.Pairwise (fun d e => d.1.apart e.1 = true)) (hs : Regs.wf s.regs = true) :
    ∀ e ∈ l, (s.setAll l).get e.1 = e.2 % 2 ^ e.1.w := by
  induction l generalizing s with
  | nil => simp
  | cons d l ih =>
    obtain ⟨hd, hl⟩ := List.pairwise_cons.1 ha
    rw [List.forall_mem_cons] at hw hf ⊢
    rw [State.setAll_cons]
    have hs' := s.set_wf d.1 d.2 hs
    refine ⟨?_, ih _ hw.2 hf.2 hl hs'⟩
    rw [State.get_setAll_apart l _ d.1 (fun e he => (e.1.apart_comm d.1).trans (hd e he)) hs', s.get_set_same d.1 d.2 hw.1 hf.1 hs]

/-- The first capture since VALID was cleared leaves in each field the value captured. -/
theorem State.get_capture_mem (s : State) {valid : Fld} {vals : List (Fld × Nat)} (hc : CaptureLayout valid (vals.map Prod.fst))
    (h : s.get valid = 0) (hs : Regs.wf s.regs = true) : ∀ e ∈ vals, (s.capture valid vals).get e.1 = e.2 % 2 ^ e.1.w := by
  intro e he
  have mem : ∀ e ∈ vals, e.1 ∈ vals.map Prod.fst := fun e he => List.mem_map_of_mem he
  rw [s.get_capture_first valid vals e.1 h (hc.flagApart _ (mem e he)) hs]
  exact s.get_setAll_mem vals (fun e he => hc.exist _ (List.mem_cons_of_mem _ (mem e he)))
    (fun e he => hc.inside _ (List.mem_cons_of_mem _ (mem e he))) (List.pairwise_map.1 hc.apart) hs e he

/-! ### Counted captures -/

/-- A count beside a capture: it exists, lies inside its word and shares no bit with the flag and the captured fields. -/
structure CountLayout (count valid : Fld) (fs : List Fld) : Prop extends CaptureLayout valid fs where
  countExists : writable count.addr = true
  countInside : count.lo + count.w ≤ 32
  countClear : ∀ f ∈ valid :: fs, f.apart count = true

/-- What an occurrence leaves that is counted, and captured when it is the first since VALID was cleared. -/
structure State.Counted (s t : State) (count valid : Fld) (vals : List (Fld × Nat)) : Prop where
  wf : Regs.wf t.regs = true
  counts : t.get count = satAdd count.w (s.get count) 1
  marked : t.get valid = 1
  first : s.get valid = 0 → ∀ e ∈ vals, t.get e.1 = e.2 % 2 ^ e.1.w
  heldField : s.get valid ≠ 0 → ∀ f, count.apart f = true → t.get f = s.get f
  heldWord : s.get valid ≠ 0 → ∀ a, a ≠ count.addr → t.word a = s.word a
  frame : ∀ a, a ≠ count.addr → a ≠ valid.addr → (∀ e ∈ vals, a ≠ e.1.addr) → t.word a = s.word a

/-- A count followed by a capture is a counted capture. -/
theorem State.counted_bump_capture (s : State) {count valid : Fld} {vals : List (Fld × Nat)}
    (hc : CountLayout count valid (vals.map Prod.fst)) (hs : Regs.wf s.regs = true) :
    s.Counted ((s.bump count).capture valid vals) count valid vals := by
  obtain ⟨hvc, hlc⟩ := List.forall_mem_cons.1 hc.countClear
  have hb : Regs.wf (s.bump count).regs = true := s.bumpBy_wf count 1 hs
  have hv : (s.bump count).get valid = s.get valid := s.get_bumpBy_apart count valid 1 ((count.apart_comm valid).trans hvc) hs
  have flagIn : valid.lo + 1 ≤ 32 := hc.flag ▸ hc.inside valid List.mem_cons_self
  exact {
    wf := State.capture_wf _ valid vals hb
    counts := by
      rw [State.get_capture_apart _ valid vals count hvc (fun e he => hlc _ (List.mem_map_of_mem he)) hb]
      exact s.get_bumpBy count 1 hc.countExists hc.countInside hs
    marked := State.get_capture_valid _ valid vals (hc.exist valid List.mem_cons_self) flagIn hc.flag hb
    first := fun h => State.get_capture_mem _ hc.toCaptureLayout (hv.trans h) hb
    heldField := fun h f hcf => by
      unfold State.get
      rw [State.word_capture_held _ valid vals f.addr (hv.symm ▸ h)]
      exact s.get_bumpBy_apart count f 1 hcf hs
    heldWord := fun h a ha =>
      (State.word_capture_held _ valid vals a (hv.symm ▸ h)).trans (s.word_bumpBy_ne count 1 a ha hs)
    frame := fun a ha hva hla =>
      (State.word_capture_ne _ valid vals a hva hla hb).trans (s.word_bumpBy_ne count 1 a ha hs) }

/-- A counted capture is seen between any two states with the same registers. -/
theorem State.Counted.congr {s t s' t' : State} {count valid : Fld} {vals : List (Fld × Nat)} (h : s.Counted t count valid vals)
    (hs : s'.regs = s.regs) (ht : t'.regs = t.regs) : s'.Counted t' count valid vals := by
  obtain ⟨hwf, hcounts, hmarked, hfirst, hheldField, hheldWord, hframe⟩ := h
  constructor <;> simpa only [ht, State.get_congr hs, State.get_congr ht, State.word_congr hs, State.word_congr ht]

/-! ### Events after counts and captures -/

/-- An event is the same whether it is raised before or after a change of registers that leaves the operating seconds, the power cycle and
the tick alone (R447). -/
theorem State.raise_raised_eq {s t : State} (hr : t.raised = s.raised) (hp : t.phase = s.phase) (hq : t.tsq = s.tsq)
    (ho : t.word R.ISL_OPSEC = s.word R.ISL_OPSEC) (hc : t.word R.ISL_PCYC = s.word R.ISL_PCYC) (code src sev : Nat)
    (data : List (Nat × Nat × Nat)) :
    (t.raise code src sev data).raised =
      s.raised ++ [⟨code, src, sev, evData data, s.get R.ISL_OPSEC_SEC, s.get R.ISL_PCYC_PCYC, s.evTick⟩] := by
  have hsec : t.get R.ISL_OPSEC_SEC = s.get R.ISL_OPSEC_SEC := congrArg R.ISL_OPSEC_SEC.read ho
  have hcyc : t.get R.ISL_PCYC_PCYC = s.get R.ISL_PCYC_PCYC := congrArg R.ISL_PCYC_PCYC.read hc
  have htick : t.evTick = s.evTick := by simp only [State.evTick, State.now, hp, hq]
  simp only [State.raise, hr, hsec, hcyc, htick]

end Sys2Proof.Machine
end

section
/-!
R22: an address outside SRAM that no register answers.  However it is reached, the access is counted and captured in PROC_UNMAP and
PROC_UNMAPA, and the read returns 0.
-/
namespace Sys2Proof.Machine

theorem countLayout_unmap : CountLayout R.PROC_UNMAP_COUNT R.PROC_UNMAP_VALID [R.PROC_UNMAP_AGENT, R.PROC_UNMAPA_ADDR] :=
  ⟨⟨by decide, by decide, rfl, by decide, by decide⟩, by decide, by decide, by decide⟩

theorem State.counted_refuse_unmapped (s : State) (p : Path) (a : Nat) (hs : Regs.wf s.regs = true) :
    s.Counted (s.refuse .unmapped p a) R.PROC_UNMAP_COUNT R.PROC_UNMAP_VALID
      [(R.PROC_UNMAP_AGENT, pathCode p), (R.PROC_UNMAPA_ADDR, a)] :=
  s.counted_bump_capture countLayout_unmap hs

theorem pathCode_lt (p : Path) : pathCode p < 2 ^ 3 := by cases p <;> decide

/-- A refusal as unmapped changes PROC_UNMAP and PROC_UNMAPA, and nothing that waits or is stored (R22, R535). -/
theorem State.unmappedCounted_refuse (s : State) (p : Path) (a : Nat) (hs : Regs.wf s.regs = true) :
    unmappedCounted s (s.refuse .unmapped p a) p a := by
  have h := s.counted_refuse_unmapped p a hs
  refine ⟨?_, ?_, ?_, h.counts, h.marked, fun h0 => ?_, fun h0 => ?_, fun b hb hba => ?_⟩
  · simp [State.refuse]
  · simp [State.refuse]
  · simp [State.refuse]
  · have hf := h.first h0
    simp only [List.forall_mem_cons] at hf
    obtain ⟨hg, hd, -⟩ := hf
    exact ⟨hg.trans (Nat.mod_eq_of_lt (pathCode_lt p)), hd⟩
  · exact ⟨h.heldField h0 R.PROC_UNMAP_AGENT (by decide), h.heldWord h0 R.PROC_UNMAPA (by decide)⟩
  · exact h.frame b hb hb (by simpa using ⟨hb, hba⟩)

/-! ### The accesses that reach an unmapped address -/

/-- The word that path T reads (R22). -/
theorem State.testRead_unmapped (s : State) {a : Nat} (ha : sramEnd ≤ a) (hr : rowAt (a / 4 * 4) = none) :
    s.testRead a = (0, s.refuse .unmapped .t a) := by
  have hend : ¬ a / 4 * 4 + 4 ≤ sramEnd := by
    unfold sramEnd at ha ⊢
    omega
  unfold State.testRead
  dsimp only
  rw [if_neg hend, hr]

/-- A read returns 0 (R22). -/
theorem State.pathRead_unmapped (s : State) (p : Path) {a : Nat} (hr : rowAt a = none) : s.pathRead p a = 0#32 := by
  unfold State.pathRead
  rw [hr]
  rfl

section
variable {s : State} {p : Path} {a : Nat} (hl : s.listening) (ha : sramEnd ≤ a) (hr : rowAt (a / 4 * 4) = none)
include hl ha hr

/-- A write of a whole word (R22). -/
theorem registerWrite_unmapped (cpu : Fin 4) (m v : Word) (hp : s.pathOpen p = true) (h4 : a % 4 = 0) :
    exec (.registerWrite p cpu a m v false) s = .next (s.refuse .unmapped p a) := by
  have hrow : rowAt a = none := by rwa [Nat.div_mul_cancel (Nat.dvd_of_mod_eq_zero h4)] at hr
  show execRegisterWrite p cpu a m v false s = _
  unfold execRegisterWrite
  rw [s.receive_listening _ _ hl, if_neg (by simp [hp])]
  simp [State.pathWrite, State.busWrite, Nat.not_lt.2 ha, hrow]

/-- A narrow write (R9, R22). -/
theorem registerWrite_narrow_unmapped (cpu : Fin 4) (m v : Word) (hp : s.pathOpen p = true) :
    exec (.registerWrite p cpu a m v true) s = .next (s.refuse .unmapped p a) := by
  show execRegisterWrite p cpu a m v true s = _
  unfold execRegisterWrite
  rw [s.receive_listening _ _ hl, if_neg (by simp [hp])]
  simp [State.pathWrite, State.narrowWrite, Nat.not_lt.2 ha, hr]

/-- UNMAPPED_ACCESS, which stands for a read too (R22, R528). -/
theorem unmappedAccess_refused (hp : s.pathOpen p = true) :
    exec (.unmappedAccess p a) s = .next (s.refuse .unmapped p a) := by
  show execUnmappedAccess p a s = _
  unfold execUnmappedAccess
  rw [s.receive_listening _ _ hl, if_pos ⟨hp, ha, by rw [hr]; rfl⟩]

/-- A read over TESTACC (R22, R517). -/
theorem testacc_unmapped (hd : s.isl.dead = false) (hb : s.isl.battery = false) (hp : s.pathOpen .t = true) :
    ∃ t, exec (.testacc a none) s = .next t ∧ t.jtag.rd = 0#32 ∧ t.regs = (s.refuse .unmapped .t a).regs ∧
      t.mem = (s.refuse .unmapped .t a).mem ∧ t.staged = (s.refuse .unmapped .t a).staged ∧
      t.late = (s.refuse .unmapped .t a).late := by
  refine ⟨s.testAccess a none, ?_, ?_⟩
  · show execTestacc a none s = _
    unfold execTestacc State.jtagRun
    rw [if_neg (by simp [hd, hb])]
    dsimp only
    rw [if_pos (by simp [State.up_of_listening hl, hp]), s.receive_listening _ _ hl]
  · simp only [State.testAccess, s.testRead_unmapped ha hr]
    exact ⟨rfl, rfl, rfl, rfl, rfl⟩

end

/-- What was counted is seen in every state with the same registers, SRAM and waiting writes. -/
theorem unmappedCounted_congr {s t u : State} {p : Path} {a : Nat} (h : unmappedCounted s t p a) (hr : u.regs = t.regs)
    (hm : u.mem = t.mem) (hst : u.staged = t.staged) (hl : u.late = t.late) : unmappedCounted s u p a := by
  unfold unmappedCounted at h ⊢
  simpa only [State.get_congr hr, State.word_congr hr, hm, hst, hl] using h

/-- Settles O39: every way to an address that no register answers ends in the refusal counted in PROC_UNMAP. -/
theorem unmappedAccess : Obligations.UnmappedAccess := by
  unfold Obligations.UnmappedAccess
  intro s p cpu a m v hl hp ha hr hs
  refine ⟨fun h4 => ⟨_, registerWrite_unmapped hl ha hr cpu m v hp h4, s.unmappedCounted_refuse p a hs⟩,
    ⟨_, registerWrite_narrow_unmapped hl ha hr cpu m v hp, s.unmappedCounted_refuse p a hs⟩,
    ⟨_, unmappedAccess_refused hl ha hr hp, s.unmappedCounted_refuse p a hs⟩, fun hd hb ht => ?_, ?_⟩
  · obtain ⟨t, ht, hrd, hregs, hmem, hstaged, hlate⟩ := testacc_unmapped hl ha hr hd hb ht
    exact ⟨t, ht, hrd, unmappedCounted_congr (s.unmappedCounted_refuse .t a hs) hregs hmem hstaged hlate⟩
  · exact s.pathRead_unmapped p hr

end Sys2Proof.Machine
end

section
/-!
R27, R30, R31, R120: what an access on port 0 meets when its bank refuses it, and when the line it reads is uncorrectable.
-/
namespace Sys2Proof.Machine

/-! ### One access on port 0 -/

/-- A read on port 0 that no drain stalls returns what the port reads, and leaves what the port leaves (R27, R34). -/
theorem bankAccess_read {s : State} {x : Access} (hu : s.up = true) (hx : Access.inSram x = true) (hr : x.wr = none)
    (hg : s.grants (bankOf x.addr) x.agent ≠ .stall) :
    exec (.bankAccess x none) s = .next (returns (s.portRead false x).2 (s.portRead false x).1) := by
  show execBankAccess x none s = _
  unfold execBankAccess
  rw [s.run_up _ hu]
  simp [hx, hg, State.portWrite, hr, returns]

/-- A write on port 0 that no drain stalls returns no data, and leaves what the port leaves (R27, R34). -/
theorem bankAccess_write {s : State} {x : Access} {bs : List Byte} (hu : s.up = true) (hx : Access.inSram x = true)
    (hw : x.wr = some bs) (hg : s.grants (bankOf x.addr) x.agent ≠ .stall) :
    exec (.bankAccess x none) s = .next ((returns s []).portWrite x) := by
  show execBankAccess x none s = _
  unfold execBankAccess
  rw [s.run_up _ hu]
  simp [hx, hg, State.portRead, hw, returns]

/-! ### Isolation faults -/

/-- A bank that is awake refuses every agent but its owner, and owner 00h refuses all (R24, R27). -/
theorem State.grants_refused (s : State) {b agent : Nat} (hb : s.bankReady b = true) (ho : s.owner b ≠ agent ∨ s.owner b = 0) :
    s.grants b agent = .refused := by
  have h : s.owner b ≠ agent ∨ agent = 0 := by omega
  simp [State.grants, hb, h]

theorem countLayout_bnkFault : CountLayout R.BNK_FAULT_COUNT R.BNK_FAULT_VALID [R.BNK_FAULT_BANK, R.BNK_FAULT_AGENT] :=
  ⟨⟨by decide, by decide, rfl, by decide, by decide⟩, by decide, by decide, by decide⟩

@[simp] theorem State.isolationFault_bnk (s : State) (b agent : Nat) : (s.isolationFault b agent).bnk = s.bnk := by
  simp [State.isolationFault]

/-- What R27 says of an access refused: no byte and no line changes, and the fault is counted, captured and raised. -/
structure State.Faulted (s t : State) (b agent : Nat) : Prop where
  mem : t.mem = s.mem
  damage : t.bnk.damage = s.bnk.damage
  counted : s.Counted t R.BNK_FAULT_COUNT R.BNK_FAULT_VALID [(R.BNK_FAULT_BANK, b), (R.BNK_FAULT_AGENT, agent)]
  event : t.raised = s.raised ++
    [⟨0x0301, 3, 1, evData [(0, 1, b), (1, 1, agent)], s.get R.ISL_OPSEC_SEC, s.get R.ISL_PCYC_PCYC, s.evTick⟩]

theorem State.faulted_isolationFault (s : State) (b agent : Nat) (hs : Regs.wf s.regs = true) :
    s.Faulted (s.isolationFault b agent) b agent := by
  have h := s.counted_bump_capture (vals := [(R.BNK_FAULT_BANK, b), (R.BNK_FAULT_AGENT, agent)]) countLayout_bnkFault hs
  have other : ∀ a, a ≠ R.BNK_FAULT →
      ((s.bump R.BNK_FAULT_COUNT).capture R.BNK_FAULT_VALID [(R.BNK_FAULT_BANK, b), (R.BNK_FAULT_AGENT, agent)]).word a = s.word a :=
    fun a ha => h.frame a ha ha (by simpa using ⟨ha, ha⟩)
  exact {
    mem := s.isolationFault_mem b agent
    damage := by rw [s.isolationFault_bnk]
    counted := h.congr rfl rfl
    event := State.raise_raised_eq (by simp) (by simp) (by simp) (other _ (by decide)) (other _ (by decide)) _ _ _ _ }

/-- The data returned are no part of what a fault leaves. -/
theorem State.faulted_returns {s t : State} {b agent : Nat} (h : s.Faulted t b agent) (bs : List Byte) :
    s.Faulted (returns t bs) b agent :=
  ⟨h.mem, h.damage, h.counted.congr rfl rfl, h.event⟩

/-- The data returned before are no part of what a fault starts from. -/
theorem State.faulted_of_returns {s t : State} {b agent : Nat} {bs : List Byte} (h : (returns s bs).Faulted t b agent) :
    s.Faulted t b agent :=
  ⟨h.mem, h.damage, h.counted.congr rfl rfl, h.event⟩

/-- An access refused reads zeros, writes nothing and leaves the fault (R27). -/
theorem bankAccess_refused {s : State} {x : Access} (hu : s.up = true) (hx : Access.inSram x = true)
    (hg : s.grants (bankOf x.addr) x.agent = .refused) (hs : Regs.wf s.regs = true) :
    ∃ t, exec (.bankAccess x none) s = .next t ∧ s.Faulted t (bankOf x.addr) x.agent ∧
      t.bnk.rd0 = (if x.wr = none then List.replicate x.len 0#8 else []) := by
  have hstall : s.grants (bankOf x.addr) x.agent ≠ .stall := by simp [hg]
  cases hw : x.wr with
  | none =>
    have hp : s.portRead false x = (List.replicate x.len 0#8, s.isolationFault (bankOf x.addr) x.agent) := by
      simp [State.portRead, State.grantsRead, hw, hg]
    refine ⟨_, bankAccess_read hu hx hw hstall, ?_, ?_⟩
    · rw [hp]
      exact State.faulted_returns (s.faulted_isolationFault _ _ hs) _
    · rw [hp]
      rfl
  | some bs =>
    have hp : (returns s []).portWrite x = ((returns s []).isolationFault (bankOf x.addr) x.agent) := by
      have hg' : (returns s []).grants (bankOf x.addr) x.agent = .refused := hg
      simp [State.portWrite, hw, hg']
    refine ⟨_, bankAccess_write hu hx hw hstall, ?_, ?_⟩
    · rw [hp]
      exact State.faulted_of_returns (State.faulted_isolationFault (returns s []) _ _ hs)
    · rw [hp]
      simp [returns]

/-- A bank of SRAM, or the empty access at the end of SRAM, has a number of six bits. -/
theorem bankOf_lt_of_inSram {x : Access} (hx : Access.inSram x = true) : bankOf x.addr < 2 ^ 6 := by
  unfold Access.inSram at hx
  simp only [Bool.and_eq_true, decide_eq_true_eq] at hx
  have := hx.1
  unfold sramEnd at this
  unfold bankOf
  omega

/-- Settles O32: the bank refuses the agent, and a refused access leaves the isolation fault and nothing else. -/
theorem isolationFault : Obligations.IsolationFault := by
  unfold Obligations.IsolationFault
  intro s x hu hx hb ho hs
  obtain ⟨t, ht, hf, hrd⟩ := bankAccess_refused hu hx (s.grants_refused hb ho) hs
  have hc := hf.counted
  refine ⟨t, ht, hf.mem, hf.damage, hrd, ⟨hc.counts, hc.marked, fun h0 => ?_, fun h0 => ?_, fun a ha => ?_⟩, hf.event⟩
  · have hv := hc.first h0
    simp only [List.forall_mem_cons] at hv
    obtain ⟨hbank, hagent, -⟩ := hv
    exact ⟨hbank.trans (Nat.mod_eq_of_lt (bankOf_lt_of_inSram hx)), hagent⟩
  · exact ⟨hc.heldField h0 R.BNK_FAULT_BANK (by decide), hc.heldField h0 R.BNK_FAULT_AGENT (by decide)⟩
  · exact hc.frame a ha ha (by simpa using ⟨ha, ha⟩)

/-! ### Uncorrectable lines -/

/-- The state in which an uncorrectable line that is read is counted, captured and raised. -/
def State.damagedRead (s : State) (line err : Nat) : State := s.draw.2.setDmg line (min 36 (s.dmg line + err))

/-- A line with three symbols or more known to be in error stays uncorrectable whatever the read adds (R30, R31). -/
theorem State.checkLine_damaged (s : State) {line : Nat} (err : Nat) (h : 3 ≤ s.dmg line) :
    s.checkLine line err = (.uncorrectable, (s.damagedRead line err).uncorrectable line) := by
  have h0 : ¬ min 36 (s.dmg line + err) = 0 := by omega
  have h2 : ¬ min 36 (s.dmg line + err) ≤ 2 := by omega
  have h3 : ¬ s.dmg line < 3 := by omega
  simp only [State.checkLine, if_neg h0, if_neg h2, h3, false_and, if_false, State.damagedRead]

/-- A span inside a line touches that line. -/
theorem linesOf_within {a n : Nat} (h0 : 0 < n) (h : a % 32 + n ≤ 32) : linesOf a n = [a / 32] := by
  have hlast : (a + n - 1) / 32 = a / 32 := by omega
  simp [linesOf, Nat.ne_of_gt h0, hlast]

@[simp] theorem State.uncorrectable_bnk (s : State) (line : Nat) : (s.uncorrectable line).bnk = s.bnk := by
  simp only [State.uncorrectable]
  split <;> simp

/-- The bytes of a span inside an uncorrectable line read 0 (R31). -/
theorem State.portBytes_damaged (s : State) {a n : Nat} (h : a % 32 + n ≤ 32) (hd : 3 ≤ s.dmg (a / 32)) :
    s.portBytes a n = List.replicate n 0#8 := by
  refine List.eq_replicate_iff.2 ⟨by simp [State.portBytes], fun b hb => ?_⟩
  obtain ⟨i, hi, rfl⟩ := List.mem_map.1 hb
  have hline : (a + i) / 32 = a / 32 := by
    have := List.mem_range.1 hi
    omega
  rw [hline, if_pos (by simpa [State.lineBad] using hd)]

/-- A read inside an uncorrectable line returns zeros, and the line is counted, captured and raised once (R31). -/
theorem State.readSpan_damaged (s : State) {a n : Nat} (err : Nat) (h0 : 0 < n) (h : a % 32 + n ≤ 32) (hd : 3 ≤ s.dmg (a / 32))
    (hwf : SMap.wf (fun _ => 0) s.bnk.damage = true) :
    s.readSpan a n err = (List.replicate n 0#8, (s.damagedRead (a / 32) err).uncorrectable (a / 32)) := by
  have hbad : 3 ≤ ((s.damagedRead (a / 32) err).uncorrectable (a / 32)).dmg (a / 32) := by
    have hput : ((s.damagedRead (a / 32) err).uncorrectable (a / 32)).dmg (a / 32) = min 36 (s.dmg (a / 32) + err) := by
      unfold State.dmg
      rw [State.uncorrectable_bnk]
      exact SMap.get_put_same hwf
    omega
  simp only [State.readSpan, linesOf_within h0 h, List.foldl_cons, List.foldl_nil, if_true, s.checkLine_damaged err hd]
  rw [State.portBytes_damaged _ h hbad]

/-! ### The counts and captures of an uncorrectable line -/

/-- A damaged line of the replay table captured by its first slot (R120). -/
def State.captureReplay (s : State) (line : Nat) : State :=
  if rplLine0 ≤ line ∧ line < rplLineEnd then s.capture R.RPL_ERR_VALID [(R.RPL_ERR_SLOT, 8 * (line - rplLine0))] else s

/-- An uncorrectable line counted in its bank and captured in BNK_ERRADDR (R31). -/
def State.countLine (s : State) (line : Nat) : State :=
  (s.bump (R.BNK_STAT_UNCORR (line / 16384))).capture R.BNK_ERRADDR_VALID [(R.BNK_ERRADDR_LINE, line)]

theorem State.uncorrectable_eq (s : State) (line : Nat) :
    s.uncorrectable line = ((s.countLine line).captureReplay line).raise 0x0302 3 1 [(0, 4, line * 32)] := rfl

theorem countLayout_uncorr {b : Nat} (hb : b < 48) : CountLayout (R.BNK_STAT_UNCORR b) R.BNK_ERRADDR_VALID [R.BNK_ERRADDR_LINE] := by
  have haddr : R.BNK_STAT b ≠ R.BNK_ERRADDR := by
    unfold R.BNK_STAT R.BNK_ERRADDR
    omega
  refine ⟨⟨by decide, by decide, rfl, by decide, by decide⟩, (bank_writable ⟨b, hb⟩).2.1, show 12 + 4 ≤ 32 by decide, ?_⟩
  simpa using ⟨Fld.apart_of_addr (f := R.BNK_ERRADDR_VALID) haddr, Fld.apart_of_addr (f := R.BNK_ERRADDR_LINE) haddr⟩

theorem State.counted_countLine (s : State) {line : Nat} (hl : line / 16384 < 48) (hs : Regs.wf s.regs = true) :
    s.Counted (s.countLine line) (R.BNK_STAT_UNCORR (line / 16384)) R.BNK_ERRADDR_VALID [(R.BNK_ERRADDR_LINE, line)] :=
  s.counted_bump_capture (countLayout_uncorr hl) hs

theorem captureLayout_rplErr : CaptureLayout R.RPL_ERR_VALID [R.RPL_ERR_SLOT] := ⟨by decide, by decide, rfl, by decide, by decide⟩

/-- The capture of a replay line changes RPL_ERR at most. -/
theorem State.word_captureReplay_ne (s : State) (line : Nat) {a : Nat} (ha : a ≠ R.RPL_ERR) (hs : Regs.wf s.regs = true) :
    (s.captureReplay line).word a = s.word a := by
  unfold State.captureReplay
  split
  · exact s.word_capture_ne _ _ a ha (fun e he => List.mem_singleton.1 he ▸ ha) hs
  · rfl

/-- A line outside the replay table is not captured there. -/
theorem State.captureReplay_outside (s : State) {line : Nat} (h : ¬ (rplLine0 ≤ line ∧ line < rplLineEnd)) :
    s.captureReplay line = s := if_neg h

/-- A line of the replay table leaves RPL_ERR.VALID set, and the first its slot (R120). -/
theorem State.get_captureReplay_inside (s : State) {line : Nat} (h0 : rplLine0 ≤ line) (h1 : line < rplLineEnd)
    (hs : Regs.wf s.regs = true) : (s.captureReplay line).get R.RPL_ERR_VALID = 1 ∧
      (s.get R.RPL_ERR_VALID = 0 → (s.captureReplay line).get R.RPL_ERR_SLOT = 8 * (line - rplLine0)) := by
  have hslot : 8 * (line - rplLine0) < 2 ^ R.RPL_ERR_SLOT.w := by
    unfold rplLine0 rplLineEnd at *
    show _ < 2 ^ 20
    omega
  unfold State.captureReplay
  rw [if_pos ⟨h0, h1⟩]
  refine ⟨s.get_capture_valid _ _ (by decide) (by decide) rfl hs, fun hv => ?_⟩
  rw [s.get_capture_mem captureLayout_rplErr hv hs (R.RPL_ERR_SLOT, 8 * (line - rplLine0)) List.mem_cons_self]
  exact Nat.mod_eq_of_lt hslot

@[simp] theorem State.captureReplay_raised (s : State) (line : Nat) : (s.captureReplay line).raised = s.raised := by
  unfold State.captureReplay
  split <;> simp

@[simp] theorem State.captureReplay_phase (s : State) (line : Nat) : (s.captureReplay line).phase = s.phase := by
  unfold State.captureReplay
  split <;> simp

@[simp] theorem State.captureReplay_tsq (s : State) (line : Nat) : (s.captureReplay line).tsq = s.tsq := by
  unfold State.captureReplay
  split <;> simp

/-- What R31 and R120 say of an uncorrectable line that is read. -/
structure State.LineReported (s t : State) (line : Nat) : Prop where
  counts : t.get (R.BNK_STAT_UNCORR (line / 16384)) = satAdd 4 (s.get (R.BNK_STAT_UNCORR (line / 16384))) 1
  marked : t.get R.BNK_ERRADDR_VALID = 1
  first : s.get R.BNK_ERRADDR_VALID = 0 → t.get R.BNK_ERRADDR_LINE = line
  held : s.get R.BNK_ERRADDR_VALID ≠ 0 → t.get R.BNK_ERRADDR_LINE = s.get R.BNK_ERRADDR_LINE
  replay : rplLine0 ≤ line → line < rplLineEnd → t.get R.RPL_ERR_VALID = 1 ∧
    (s.get R.RPL_ERR_VALID = 0 → t.get R.RPL_ERR_SLOT = 8 * (line - rplLine0))
  frame : ∀ a, a ≠ R.BNK_ERRADDR → a ≠ R.BNK_STAT (line / 16384) →
    (a = R.RPL_ERR → ¬ (rplLine0 ≤ line ∧ line < rplLineEnd)) → t.word a = s.word a
  event : t.raised = s.raised ++
    [⟨0x0302, 3, 1, evData [(0, 4, line * 32)], s.get R.ISL_OPSEC_SEC, s.get R.ISL_PCYC_PCYC, s.evTick⟩]

/-- The registers that an uncorrectable line leaves as they were (R31, R120). -/
theorem State.word_uncorrectable_ne (s : State) {line a : Nat} (hl : line / 16384 < 48) (he : a ≠ R.BNK_ERRADDR)
    (hb : a ≠ R.BNK_STAT (line / 16384)) (hr : a = R.RPL_ERR → ¬ (rplLine0 ≤ line ∧ line < rplLineEnd))
    (hs : Regs.wf s.regs = true) : (s.uncorrectable line).word a = s.word a := by
  have hc := s.counted_countLine hl hs
  have hcount : (s.countLine line).word a = s.word a := hc.frame a hb he (fun e h => List.mem_singleton.1 h ▸ he)
  show ((s.countLine line).captureReplay line).word a = s.word a
  by_cases ha : a = R.RPL_ERR
  · rw [State.captureReplay_outside _ (hr ha), hcount]
  · rw [State.word_captureReplay_ne _ line ha hc.wf, hcount]

theorem State.uncorrectable_raised (s : State) {line : Nat} (hl : line / 16384 < 48) (hs : Regs.wf s.regs = true) :
    (s.uncorrectable line).raised = s.raised ++
      [⟨0x0302, 3, 1, evData [(0, 4, line * 32)], s.get R.ISL_OPSEC_SEC, s.get R.ISL_PCYC_PCYC, s.evTick⟩] := by
  have kept : ∀ a, 0x2F000000 ≤ a → ((s.countLine line).captureReplay line).word a = s.word a := by
    intro a ha
    refine s.word_uncorrectable_ne hl ?_ ?_ (fun h => ?_) hs
    · unfold R.BNK_ERRADDR
      omega
    · unfold R.BNK_STAT
      omega
    · unfold R.RPL_ERR at h
      omega
  rw [State.uncorrectable_eq]
  exact State.raise_raised_eq (by simp [State.countLine]) (by simp [State.countLine]) (by simp [State.countLine])
    (kept _ (by decide)) (kept _ (by decide)) _ _ _ _

theorem State.lineReported_uncorrectable (s : State) {line : Nat} (hl : line / 16384 < 48) (hs : Regs.wf s.regs = true) :
    s.LineReported (s.uncorrectable line) line := by
  have hc := s.counted_countLine hl hs
  have hbank : R.BNK_STAT (line / 16384) ≠ R.RPL_ERR := by
    unfold R.BNK_STAT R.RPL_ERR
    omega
  have hrpl : (s.countLine line).word R.RPL_ERR = s.word R.RPL_ERR :=
    hc.frame _ hbank.symm (by decide) (fun e h => List.mem_singleton.1 h ▸ show R.RPL_ERR ≠ R.BNK_ERRADDR by decide)
  have hvalid : (s.countLine line).get R.RPL_ERR_VALID = s.get R.RPL_ERR_VALID := congrArg R.RPL_ERR_VALID.read hrpl
  have get : ∀ f : Fld, f.addr ≠ R.RPL_ERR → (s.uncorrectable line).get f = (s.countLine line).get f :=
    fun f hf => congrArg f.read ((s.countLine line).word_captureReplay_ne line hf hc.wf)
  have hline : line % 2 ^ 20 = line := Nat.mod_eq_of_lt (by omega)
  exact {
    counts := (get _ hbank).trans hc.counts
    marked := (get _ (by decide)).trans hc.marked
    first := fun h => by
      rw [get _ (by decide), hc.first h (R.BNK_ERRADDR_LINE, line) List.mem_cons_self]
      exact hline
    held := fun h => (get _ (by decide)).trans (hc.heldField h R.BNK_ERRADDR_LINE (Fld.apart_of_addr (by
      show R.BNK_ERRADDR ≠ R.BNK_STAT (line / 16384)
      unfold R.BNK_ERRADDR R.BNK_STAT
      omega)))
    replay := fun h0 h1 => by
      rw [← hvalid]
      exact (s.countLine line).get_captureReplay_inside h0 h1 hc.wf
    frame := fun a he hb hr => s.word_uncorrectable_ne hl he hb hr hs
    event := s.uncorrectable_raised hl hs }

/-! ### A read of an uncorrectable line -/

/-- The line of an access that is not empty lies in a bank of SRAM. -/
theorem line_lt_of_inSram {x : Access} (hx : Access.inSram x = true) (hr : x.wr = none) (hn : 0 < x.len) :
    x.addr / 32 / 16384 < 48 := by
  simp only [Access.inSram, hr, Bool.and_eq_true, decide_eq_true_eq] at hx
  obtain ⟨hend, -⟩ := hx
  unfold sramEnd at hend
  omega

theorem bankOf_eq_line (a : Nat) : bankOf a = a / 32 / 16384 := (Nat.div_div_eq_div_mul a 32 16384).symm

/-- Settles O37: the port checks the one line of the read, finds it uncorrectable and reports it. -/
theorem uncorrectableLine : Obligations.UncorrectableLine := by
  unfold Obligations.UncorrectableLine
  intro s x hu hx hr hn hin hg hd hs hwf
  have hread : s.portRead false x =
      (List.replicate x.len 0#8, (s.damagedRead (x.addr / 32) x.err).uncorrectable (x.addr / 32)) := by
    simp only [State.portRead, State.grantsRead, hr, hg]
    exact s.readSpan_damaged x.err hn hin hd hwf
  have hrep := (s.damagedRead (x.addr / 32) x.err).lineReported_uncorrectable (line_lt_of_inSram hx hr hn) hs
  refine ⟨_, bankAccess_read hu hx hr (by simp [hg]), ?_⟩
  rw [hread, bankOf_eq_line]
  exact ⟨rfl, State.uncorrectable_mem _ _, hrep.counts, hrep.marked, hrep.first, hrep.held, hrep.replay, hrep.frame, hrep.event⟩

end Sys2Proof.Machine
end

section
/-!
R23, R477, R478: the device held in die reset.  Every command of the main clusters finds no machine there; what the island does while they
are held leaves the phase, SRAM, the queues, the sessions and the commands that wait as they are, or is itself a die reset.
-/
namespace Sys2Proof.Machine

/-! ### What the island leaves alone while the main clusters are held -/

/-- The parts of the state of which `held` speaks. -/
def State.main (s : State) : Phase × List Host.Cell × SMap Queue × List Sess × List Instr :=
  (s.phase, s.mem, s.queues, s.sup.sess, s.pending)

theorem held_of_main {s t : State} (h : t.main = s.main) (hs : held s) : held t := by
  simp only [State.main, Prod.mk.injEq] at h
  obtain ⟨hp, hm, hq, he, hn⟩ := h
  unfold held at hs ⊢
  rwa [hp, hm, hq, he, hn]

theorem State.main_phase {s t : State} (h : t.main = s.main) : t.phase = s.phase := congrArg Prod.fst h

theorem State.main_ite {s t u : State} {c : Prop} [Decidable c] (ht : t.main = s.main) (hu : u.main = s.main) :
    (if c then t else u).main = s.main := by
  split
  · exact ht
  · exact hu

theorem State.main_foldl {α : Type} {f : State → α → State} (hf : ∀ t x, (f t x).main = t.main) (l : List α) (s : State) :
    (l.foldl f s).main = s.main := by
  induction l generalizing s with
  | nil => rfl
  | cons x l ih => exact (ih _).trans (hf s x)

theorem State.main_islRaise (s : State) (c r v : Nat) (d : List (Nat × Nat × Nat)) : (s.islRaise c r v d).main = s.main :=
  State.main_ite rfl (State.main_ite rfl rfl)

theorem State.main_setAll (s : State) (l : List (Fld × Nat)) : (s.setAll l).main = s.main :=
  State.main_foldl (f := fun (t : State) (p : Fld × Nat) => t.set p.1 p.2) (fun _ _ => rfl) l s

theorem State.main_flag (s : State) (f : Fld) : (s.flag f).main = s.main := rfl

theorem State.main_mirrorKeys (s : State) : s.mirrorKeys.main = s.main := by
  unfold State.mirrorKeys
  dsimp only
  rw [State.main_foldl, State.main_setAll]
  exact fun _ _ => rfl

theorem State.main_clearKeys (s : State) : s.clearKeys.main = s.main := by
  unfold State.clearKeys
  extract_lets _ _ _ t u
  have ht : t.main = s.main := State.main_mirrorKeys _
  have hu : u.main = t.main := (State.main_setAll _ _).trans (State.main_flag t _)
  exact (State.main_islRaise u _ _ _ _).trans (hu.trans ht)

/-- ERASE reaches nothing but the island while the main clusters are held (R374). -/
theorem State.main_eraseKeys {s : State} (h : s.phase = .held) : s.eraseKeys.main = s.main := by
  have hc : s.clearKeys.up = false := by rw [State.held_iff, State.main_phase s.main_clearKeys, h]
  unfold State.eraseKeys
  simpa [hc] using s.main_clearKeys

theorem State.main_noteTamper (s : State) (n k : Nat) (hit line : Bool) : (s.noteTamper n k hit line).main = s.main :=
  State.main_ite rfl rfl

theorem State.main_closeSillage (s : State) : s.closeSillage.main = s.main := by
  have hadd : ∀ (t : State) (l : List Nat), (t.sillageAdd l).main = t.main := fun _ _ => rfl
  exact State.main_ite (State.main_ite (hadd _ _) rfl) (State.main_ite (State.main_ite (State.main_foldl hadd _ _) rfl) rfl)

theorem State.main_sillageWindow (s : State) (sums : List Nat) : (s.sillageWindow sums).main = s.main :=
  State.main_ite (c := s.isl.sil.window = 16) s.main_closeSillage rfl

theorem State.main_drawChunks : ∀ (k : Nat) (s : State), (State.drawChunks k s).2.main = s.main
  | 0, _ => rfl
  | k + 1, s => State.main_drawChunks k s.draw.2

/-! ### Resets -/

theorem held_of_reset {s t : State} (hs : held s) (h : t.main = (Phase.held, [], [], [], s.pending)) : held t := by
  simp only [State.main, Prod.mk.injEq] at h
  obtain ⟨hp, hm, hq, he, hn⟩ := h
  exact ⟨hp, hm, hq, he, hn ▸ hs.2.2.2.2⟩

theorem State.fuseCut_pending (s : State) : s.fuseCut.pending = s.pending := by
  unfold State.fuseCut
  split
  · rfl
  · dsimp only
    split <;> rfl

theorem State.main_dieReset (s : State) (cause : Nat) : (s.dieReset cause).main = (Phase.held, [], [], [], s.pending) := rfl

/-- The loss of the main supplies is a die reset (R503). -/
theorem held_mainSuppliesLost {s : State} (hs : held s) : ∃ t, exec .mainSuppliesLost s = .next t ∧ held t := by
  refine ⟨_, rfl, ?_⟩
  unfold State.islRun
  split
  · exact hs
  · dsimp only
    split
    · exact hs
    · refine held_of_reset hs ?_
      rw [← s.fuseCut_pending]
      rfl

/-- The supply that returns to a dead island resets it (R478). -/
theorem held_islandPowerOnReset {s : State} (hs : held s) : ∃ t, exec .islandPowerOnReset s = .next t ∧ held t := by
  refine ⟨_, rfl, ?_⟩
  split
  · exact held_of_reset hs rfl
  · exact hs

/-! ### The commands -/

theorem State.sense_held (s : State) (i : Instr) (f : State → State) (h : s.phase = .held) : s.sense i f = s := by
  simp [State.sense, h]

theorem State.receiveAt_held (s : State) (i : Instr) (e : Bool) (off lat : Nat) (f : Int → Int → Nat → State → State)
    (h : s.phase = .held) : s.receiveAt i e off lat f = s := by
  simp [State.receiveAt, h]

theorem State.pageCommand_held (s : State) (agent page op : Nat) (i : Instr) (f : State → State) (h : s.phase = .held) :
    s.pageCommand agent page op i f = s := by
  unfold State.pageCommand
  split
  · exact s.receive_held _ _ h
  · exact s.run_held _ ((s.held_iff).2 h)

theorem State.islRun_main {s : State} {f : State → State} (h : (f s).main = s.main) : (s.islRun f).main = s.main :=
  State.main_ite rfl h

theorem State.jtagRun_main {s : State} {f : State → State} (h : (f s).main = s.main) : (s.jtagRun f).main = s.main :=
  State.main_ite rfl h

/-- EXTEST shifts the cells to the pins (R518). -/
theorem main_extest (s : State) (cells : List Byte) : ∃ t, exec (.extest cells) s = .next t ∧ t.main = s.main := by
  refine ⟨_, rfl, State.jtagRun_main ?_⟩
  split
  · rw [State.main_foldl]
    · rfl
    · exact fun _ _ => rfl
  · rfl

/-- Commands that act while the main clusters are held: those of the island, of the test port and of the SVC port, and the release. -/
def actsInReset : Instr → Bool
  | .sillageWindow .. | .sillageBlockEnd | .tamperInput .. | .tamperInternal .. | .islandPowerOnReset | .powerFailWarning
  | .mainSuppliesLost | .warningRecovery | .vbatMeasurement .. | .islandSupplyLost | .crystalStop | .bypass .. | .idcode
  | .samplePreload .. | .extest .. | .testacc .. | .svcVbusChange .. | .resetRelease .. => true
  | _ => false

/-- Every other command finds no machine in die reset: it leaves the state as it is. -/
theorem exec_held {s : State} (h : s.phase = .held) {c : Instr} (hc : actsInReset c = false) : exec c s = .next s := by
  have hu : s.up = false := (s.held_iff).2 h
  have hn : s.phase ≠ .commit := by simp [h]
  cases c
  case bankAccess | scrub | frameTimeout | queueRefill | admissionSlot | fenceRelease | laneFault | laneResume | insert | remove
      | setstat | setepoch | setassign | setlink | find | setdown | wrstat | rplread | rplmax | rplline | dirfix | wepoch | hfree
      | windowZeroing | heartFill | heartRederive | intervalOpen | intervalClose | balanceRunStart | meteringValid
      | temperatureFactorUpdate | perSecondValues | zeroCrossingDecision | pseudoCycle | periodicSave | plcTransmitRequest
      | plcBurstStart | sweepStart | trainStart | slotTimeout | dataFrameReceived | dataVerdictsComplete | meterAckReceived
      | meterNackReceived | roundEnd | beacon | joinReceived | down | block | slavePollReceived | slaveDownReceived
      | slaveBeaconReceived | serialRequest | sndNke | reqUd2 | transceiverScript | displayLine | syncSend | announceSend
      | delayReqSend | triggerPulse | ppsOutPulse | rtcSync | helloPhase1Send | recordsSend | ackSend | ackrAdvance | alarmSend
      | perturbationWindowExpiry | jobEnd | counterMarkRaise | keyUpdateWrite | keyUpdateTransition | keyUpdateSetauth
      | entropyFailure | residualCurrentTrip | selfTest | selfTestResult | cpComparatorSafeOpen | tripIslandTimer | offerCompute
      | pausedContactorRelease | sessionRecord | setacc | accountCredit | accountBlock | accountRead | tariff | accountRemove
      | accountRebuild | garbageCollection | mapSegmentWrite | holdupCheck | holdupChargeTimeout | holdupDecision | mount
      | ledgerRestore | ledgerUnitFlush | fenceComplete | ledgerHold | ledgerHoldEnd | ledgerUnitRelease | checkpoint | drydown
      | drydownTakeover | drydownDone | drydownShort | temperatureHistogram | eventRecord | barrier | eventUnitProgram
      | fixativeWrite | slaveDiscoverReceived | slaveJoinAckReceived | pauseQuantaExpiry | entropyRecovery | tickCapture
      | tickCommit | slotActivation | slotCut | planSwitch | resetNAssert | restart | recoveryRestart | correctedLineWriteback
      | handoverDrainEnd | bankReady =>
    exact congrArg Host.Outcome.next (s.run_held _ hu)
  case bankOwnerHandover | bankPowerChange | registerWrite | unmappedAccess | frameOpen | frameWordWrite | frameErrorRewind
      | queueModeChange | ringReadAdvance | queueFenceFlagChange | reportPop | energyBaseAdd | sillageTotalClear | plcSyncDetect
      | plcHeaderDecode | plcFrameDecode | serialReply | rspUd | radioFrame | rfidLine | ethFrameReceived | ethLinkLoss
      | pauseReceived | sfpModuleChange | timeStepRequest | stepRearm | addendApply | followUpReceived | delayRespReceived
      | timestampSearch | triggerArm | helloPhase1 | helloPhase2 | helloPhase3 | records | ack | mgmtRead | mgmtWrite | keyUpdate
      | fwChunk | activate | downlink | testOpen | testClose | proximityChange | authStart | authStop | authClear | authDisable
      | authEnable | creditLimitWrite | format | flush | read | clear | confirm | svcMessage | rtcSet | watchdogKick | skewStart
      | nandFailureArm | tagFailureArm | testStepRequest | loopbackSet | dirhold | alarmReceived | ethLinkUp | uartCtsChange =>
    exact congrArg Host.Outcome.next (s.receive_held _ _ h)
  case pulseStart | pulseEnd | uplinkBeaconLoss | serialReplyTimeout | serialGapTimeout | mbusReplyTimeout | jamEnd
      | mbusOverloadRetry | announceTimeout | ppsSourceLoss | helloRetryTimeout | halfOpenTimeout | recordsRetransmit
      | sessionIdleTimeout | sessionLifetimeExpiry | keepaliveAck | transitionDieReset | contactorClose | contactorCheckTimeout
      | lockTimeout | authorisationTimeout | trialTimerExpiry | watchdogExpiry =>
    exact congrArg Host.Outcome.next (s.inCommit_other _ hn)
  case jam | mbusOverload | announceReceived | pilotStateChange | nandProgramDone | nandEraseDone | unitRead =>
    exact congrArg Host.Outcome.next (s.sense_held _ _ h)
  case syncReceived | delayReqReceived | captureEdge => exact congrArg Host.Outcome.next (s.receiveAt_held _ _ _ _ _ h)
  case cipStart | cipZero | cipCommit | cipAbandon => exact congrArg Host.Outcome.next (s.pageCommand_held _ _ _ _ _ h)
  case pppEchoTimeout u rx =>
    refine congrArg Host.Outcome.next ?_
    rw [s.receive_held _ _ h, s.inCommit_other _ hn]
  case fenceIssue p =>
    cases p with
    | none => exact congrArg Host.Outcome.next (s.run_held _ hu)
    | some p => exact congrArg Host.Outcome.next (s.receive_held _ _ h)
  case keyLoad =>
    refine congrArg Host.Outcome.next ?_
    rw [s.receive_held _ _ h, s.receive_held _ _ h, s.run_held _ hu]
    simp
  case pllRestart => rfl
  all_goals cases hc

/-- A command that acts in die reset, but for the release, leaves what `held` speaks of, or resets the device. -/
theorem held_actsInReset {s : State} (hs : held s) {c : Instr} (hc : actsInReset c = true) (hr : ∀ x, c ≠ .resetRelease x) :
    ∃ t, exec c s = .next t ∧ held t := by
  have h : s.phase = .held := hs.1
  have keeps : ∀ {t : State}, t.main = s.main → held t := fun ht => held_of_main ht hs
  cases c
  case islandPowerOnReset => exact held_islandPowerOnReset hs
  case mainSuppliesLost => exact held_mainSuppliesLost hs
  case resetRelease x => exact absurd rfl (hr x)
  case sillageWindow samples =>
    refine ⟨_, rfl, keeps (State.main_ite (State.main_ite ?_ (s.main_sillageWindow _)) rfl)⟩
    exact State.main_sillageWindow _ _
  case sillageBlockEnd => exact ⟨_, rfl, keeps (State.main_ite s.main_closeSillage rfl)⟩
  case tamperInput n pin =>
    refine ⟨_, rfl, keeps (State.islRun_main ?_)⟩
    rw [if_neg (by simp [State.up, h])]
    have hn := fun k hit line => s.main_noteTamper n k hit line
    exact State.main_ite ((State.main_eraseKeys ((State.main_phase (hn _ _ _)).trans h)).trans (hn _ _ _)) (hn _ _ _)
  case tamperInternal src => exact ⟨_, rfl, keeps (State.islRun_main (State.main_ite (State.main_eraseKeys h) rfl))⟩
  case powerFailWarning =>
    refine ⟨_, rfl, keeps (State.islRun_main (State.main_ite rfl ?_))⟩
    rw [if_neg (by simp [State.up, h])]
    rfl
  case warningRecovery => exact ⟨_, rfl, keeps (State.islRun_main (State.main_ite rfl rfl))⟩
  case vbatMeasurement mv => exact ⟨_, rfl, keeps (State.islRun_main (State.main_ite rfl rfl))⟩
  case islandSupplyLost => exact ⟨_, rfl, keeps (State.islRun_main (State.main_ite rfl rfl))⟩
  case crystalStop => exact ⟨_, rfl, keeps (State.islRun_main rfl)⟩
  case bypass bit => exact ⟨_, rfl, keeps (State.jtagRun_main rfl)⟩
  case idcode => exact ⟨_, rfl, keeps (State.jtagRun_main rfl)⟩
  case samplePreload cells => exact ⟨_, rfl, keeps (State.jtagRun_main (State.main_drawChunks _ s))⟩
  case extest cells => exact (main_extest s cells).imp fun _ ht => ⟨ht.1, keeps ht.2⟩
  case testacc a wr =>
    refine ⟨_, rfl, keeps (State.jtagRun_main ?_)⟩
    rw [if_neg (by simp [State.up, h])]
    rfl
  case svcVbusChange up =>
    refine ⟨_, rfl, keeps ?_⟩
    rw [if_neg (by simp [State.up, h])]
    rfl
  all_goals cases hc

theorem held_exec {s : State} (hs : held s) {c : Instr} (hr : ∀ x, c ≠ .resetRelease x) : ∃ t, exec c s = .next t ∧ held t := by
  cases hc : actsInReset c with
  | false => exact ⟨s, exec_held hs.1 hc, hs⟩
  | true => exact held_actsInReset hs hc hr

/-- Settles O58: no release waits, and every other command finds no machine, acts on the island alone or resets the device. -/
theorem heldUntilRelease : Obligations.HeldUntilRelease := by
  unfold Obligations.HeldUntilRelease
  intro s t hs ht
  unfold step at ht
  cases hp : s.pending with
  | nil =>
    rw [hp] at ht
    obtain rfl := Host.Outcome.next.inj ht
    exact hs
  | cons c rest =>
    rw [hp] at ht
    obtain ⟨hph, hm, hq, he, hn⟩ := hs
    simp only [hp, List.mem_cons, not_or] at hn
    have hrest : held { s with pending := rest } := ⟨hph, hm, hq, he, fun x => (hn x).2⟩
    obtain ⟨u, hu, hk⟩ := held_exec hrest (fun x => Ne.symm (hn x).1)
    obtain rfl := Host.Outcome.next.inj (hu.symm.trans ht)
    exact hk

end Sys2Proof.Machine
end

section
/-!
R12, R14, R532: a write that reaches whole fields of a register without a bar of its own stands until its commit, and its commit does what
the block of the register does with it.
-/
namespace Sys2Proof.Machine

/-! ### Writes that clear nothing -/

/-- No field of the row is cleared by writing 1. -/
def RegRow.clearsNone (r : RegRow) : Bool := r.flds.all (fun f => decide (f.acc ≠ .w1c) && decide (f.acc ≠ .w1cField))

/-- The bits of a register that its block takes from a write. -/
def takenBits (r : RegRow) (a : Nat) : Word :=
  plainBits r a ||| r.flds.foldl (fun (n : Word) f => if f.acc = .wo then n ||| Fld.mask ⟨a, f.lo, f.w⟩ else n) 0

theorem clearedBits_none {r : RegRow} (h : r.clearsNone = true) (a : Nat) (m v : Word) : clearedBits r a m v = 0 := by
  unfold clearedBits
  extract_lets c
  have hc : c = 0 := by
    refine List.foldlRecOn r.flds _ (motive := fun w : Word => w = 0) rfl fun w hw f hf => ?_
    have hacc := List.all_eq_true.1 h f hf
    dsimp only
    split
    · simp_all
    · simp_all
    · exact hw
  clear_value c
  subst hc
  simp

/-- A write of the bits of `m` to the register at `a` clears nothing, and its block takes every bit of it. -/
def takenWhole (a : Nat) (m : Word) : Bool :=
  match rowAt a with
  | some r => r.clearsNone && decide (m &&& takenBits r a = m) && decide (m ≠ 0)
  | none => false

/-- The commit of a write that stands is what its block does with it (R14, R532). -/
theorem State.committed_taken (s : State) {p : Path} {g a : Nat} {m v : Word} (hu : s.up = true) (ht : takenWhole a m = true)
    (hs : s.stands p g a m v) : s.committed p g a m v = s.hook ⟨p, g, a, m, v⟩ m := by
  unfold takenWhole at ht
  split at ht
  · rename_i r hr
    simp only [Bool.and_eq_true, decide_eq_true_eq] at ht
    obtain ⟨⟨hc, hm⟩, h0⟩ := ht
    exact s.committed_hook p g a m v m r hu hr (clearedBits_none hc a m v) hm (hs r hr) h0
  · cases ht

theorem State.fieldCommitted_taken (s : State) {p : Path} {f : Fld} {v : Nat} (hu : s.up = true) (ht : takenWhole f.addr f.mask = true)
    (hs : s.fieldStands p f v) :
    s.fieldCommitted p f v = s.hook ⟨p, agentOf p 0, f.addr, f.mask, f.write 0 v⟩ f.mask := s.committed_taken hu ht hs

/-! ### Writes that no block bars -/

/-- No block has a bar of its own for the register at `a`. -/
def barFree (a : Nat) : Bool :=
  decide (a / 65536 ≠ R.CIP_CNT / 65536) && (idxOf (R.BNK_CTL 0) 4 48 a).isNone && decide (¬ (R.VAL_WINA 0 ≤ a ∧ a < R.VAL_WINA 0 + 256)) &&
    decide (a / 65536 ≠ R.TMP_INT / 65536) && decide (¬ (R.MTR_OFS 0 ≤ a ∧ a < R.MTR_IRMS 0 0)) &&
    !([R.VAL_CTL, R.EVR_CMD, R.SIL_CLR, R.DIR_CMD, R.CHG_ACMD, R.FTL_CMD, R.NRG_CTL, R.PRT_LOOP, R.TIM_ADDHI].contains a) &&
    (idxOf (R.TIM_TRGP 0) 16 4 a).isNone && ((List.range 4).find? (fun k => decide (R.PLK_MOD k = a))).isNone

theorem State.bars_free (s : State) (p : Path) {a : Nat} (m v : Word) (j : Judgement) (h : barFree a = true) : s.bars p a m v j = j := by
  simp only [barFree, Bool.and_eq_true, decide_eq_true_eq, Bool.not_eq_true', List.contains_eq_mem, decide_eq_false_iff_not,
    List.mem_cons, List.not_mem_nil, or_false, not_or, Option.isNone_iff_eq_none] at h
  obtain ⟨⟨⟨⟨⟨⟨⟨hcip, hbnk⟩, hwin⟩, htmp⟩, hmtr⟩, hval, hevr, hsil, hdir, hchg, hftl, hnrg, hprt, hadd⟩, htrg⟩, hplk⟩ := h
  have hj : j.barPath ⟨a, 0, 32⟩ (p = .fw && decide (a / 65536 = R.CIP_CNT / 65536)) = j := by simp [Judgement.barPath, hcip]
  unfold State.bars
  dsimp only
  rw [hj, hbnk]
  dsimp only
  rw [if_neg hwin, if_neg htmp, if_neg hval, if_neg hevr, if_neg hmtr, if_neg hsil, if_neg hdir, if_neg hchg, if_neg hftl, if_neg hnrg,
    if_neg hprt, if_neg hadd, htrg]
  dsimp only
  rw [hplk]

/-- The value that a write gives a field inside its bits is the one written. -/
theorem State.newVal_covered (s : State) (f : Fld) (m v : Word) (hf : f.lo + f.w ≤ 32) (hm : f.mask &&& m = f.mask) :
    s.newVal f m v = f.read v := by
  apply Nat.eq_of_testBit_eq
  intro i
  unfold State.newVal Fld.read
  rw [bitsOf_testBit, bitsOf_testBit]
  by_cases hi : i < f.w
  · have hb := congrArg (fun w : Word => w.getLsbD (f.lo + i)) hm
    simp only [BitVec.getLsbD_and, f.mask_bit (f.lo + i) (by omega)] at hb
    have hmi : m.getLsbD (f.lo + i) = true := by simpa [hi] using hb
    have : ((s.word f.addr &&& ~~~ m) ||| (v &&& m)).getLsbD (f.lo + i) = v.getLsbD (f.lo + i) := by
      rw [BitVec.getLsbD_or, BitVec.getLsbD_and, BitVec.getLsbD_and, BitVec.getLsbD_not, hmi]
      simp
    rw [BitVec.getLsbD, BitVec.getLsbD] at this
    rw [this]
  · simp [hi]

/-- Whether a write of the bits of `m` leaves each field an encoding that is not reserved, whatever the register holds. -/
def RegRow.takes (r : RegRow) (a : Nat) (m v : Word) : Prop :=
  ∀ f ∈ r.flds, f.legal.isEmpty = true ∨ f.acc = .ro ∨ Fld.hit ⟨a, f.lo, f.w⟩ m = false ∨
    (f.lo + f.w ≤ 32 ∧ Fld.mask ⟨a, f.lo, f.w⟩ &&& m = Fld.mask ⟨a, f.lo, f.w⟩ ∧ f.isLegal (Fld.read ⟨a, f.lo, f.w⟩ v) = true)

/-- A write of such encodings to a register without bars stands until its commit (R12). -/
theorem State.stands_free (s : State) (p : Path) (g : Nat) {a : Nat} {m v : Word} (hb : barFree a = true)
    (h : ∀ r, rowAt a = some r → r.takes a m v) : s.stands p g a m v := by
  intro r hr
  unfold State.stillLegal
  dsimp only
  rw [s.bars_free p _ _ _ hb]
  refine List.foldlRecOn r.flds _ (motive := fun j : Judgement => j = { mask := m }) rfl fun j hj f hf => ?_
  subst hj
  unfold Judgement.barLock
  rcases h r hr f hf with he | hro | hh | ⟨hin, hm, hl⟩
  · simp [FRow.isLegal, he]
  · simp [hro]
  · simp [hh]
  · simp [s.newVal_covered ⟨a, f.lo, f.w⟩ m v hin hm, hl]

/-- No field of the register at `a` that the bits of `m` reach has a reserved encoding, and no block bars a write of them. -/
def alwaysTaken (a : Nat) (m : Word) : Bool :=
  barFree a && match rowAt a with
  | some r => r.flds.all (fun f => f.legal.isEmpty || !(Fld.hit ⟨a, f.lo, f.w⟩ m))
  | none => false

theorem State.stands_always (s : State) (p : Path) (g : Nat) {a : Nat} {m v : Word} (h : alwaysTaken a m = true) :
    s.stands p g a m v := by
  unfold alwaysTaken at h
  rw [Bool.and_eq_true] at h
  obtain ⟨hb, hl⟩ := h
  refine s.stands_free p g hb fun r hr f hf => ?_
  rw [hr] at hl
  have := List.all_eq_true.1 hl f hf
  rw [Bool.or_eq_true, Bool.not_eq_true'] at this
  rcases this with h | h
  · exact .inl h
  · exact .inr (.inr (.inl h))

/-- The commit of a write of a field without reserved encodings to a register without bars is what its block does with it. -/
theorem State.fieldCommitted_always (s : State) (p : Path) {f : Fld} {v : Nat} (hu : s.up = true)
    (h : (takenWhole f.addr f.mask && alwaysTaken f.addr f.mask) = true) :
    s.fieldCommitted p f v = s.hook ⟨p, agentOf p 0, f.addr, f.mask, f.write 0 v⟩ f.mask := by
  rw [Bool.and_eq_true] at h
  exact s.fieldCommitted_taken hu h.1 (s.stands_always p _ h.2)

/-! ### The registers whose commits have an effect of their own -/

theorem bnkCtl_taken : ∀ b : Fin 48, takenWhole (R.BNK_CTL b) (R.BNK_CTL_OWNER b).mask = true ∧
    takenWhole (R.BNK_CTL b) (R.BNK_CTL_PWR b).mask = true := by decide +kernel

theorem queue_taken : ∀ q : Fin 32,
    (takenWhole (R.QUE_CTL q) (R.QUE_CTL_MODE q).mask && alwaysTaken (R.QUE_CTL q) (R.QUE_CTL_MODE q).mask) = true ∧
    (takenWhole (R.QUE_CTL q) (R.QUE_CTL_FENCE q).mask && alwaysTaken (R.QUE_CTL q) (R.QUE_CTL_FENCE q).mask) = true ∧
    (takenWhole (R.QUE_RING q) (R.QUE_RING_RPTR q).mask && alwaysTaken (R.QUE_RING q) (R.QUE_RING_RPTR q).mask) = true := by
  decide +kernel

end Sys2Proof.Machine
end

section
/-!
R11, R13, R26, R29, R533: writes of which no bit passes.  Each is counted once, by the first refusal that applies, and waits for no commit.
-/
namespace Sys2Proof.Machine

/-! ### What the bars of the blocks keep of a judgement -/

/-- What every bar keeps, the bars together keep. -/
theorem State.bars_keep {P : Judgement → Prop} (hpath : ∀ j f c, P j → P (Judgement.barPath j f c))
    (hlock : ∀ j f c, P j → P (Judgement.barLock j f c)) (s : State) (p : Path) (a : Nat) (m v : Word)
    (hbank : ∀ j b, idxOf (R.BNK_CTL 0) 4 48 a = some b → P j → P (s.barBank p b m v j))
    (hwin : ∀ j, P j → P (s.barWindow a v j)) {j : Judgement} (h : P j) : P (s.bars p a m v j) := by
  have ite : ∀ {c : Prop} [Decidable c] {j k : Judgement}, P j → P k → P (if c then j else k) := by
    intro c _ j k hj hk
    split
    · exact hj
    · exact hk
  unfold State.bars
  dsimp only
  have hj := hpath j ⟨a, 0, 32⟩ (p = .fw && decide (a / 65536 = R.CIP_CNT / 65536)) h
  split
  · rename_i b hb
    exact hbank _ b hb hj
  · refine ite (hwin _ hj) <| ite (hpath _ _ _ hj) <| ite (hpath _ _ _ hj) <| ite (hlock _ _ _ (hpath _ _ _ hj)) <|
      ite (hpath _ _ _ hj) <| ite (hpath _ _ _ hj) <| ite (hlock _ _ _ hj) <| ite (hlock _ _ _ hj) <| ite (hlock _ _ _ hj) <|
      ite (hlock _ _ _ hj) <| ite (hlock _ _ _ (hpath _ _ _ hj)) <| ite (hlock _ _ _ hj) ?_
    split
    · exact hlock _ _ _ hj
    · split
      · exact hlock _ _ _ hj
      · exact hj

/-- A refusal by the path stands whatever bars follow. -/
theorem State.bars_path (s : State) (p : Path) (a : Nat) (m v : Word) {j : Judgement} (h : j.path = true) :
    (s.bars p a m v j).path = true := by
  have hpath : ∀ (j : Judgement) f c, j.path = true → (j.barPath f c).path = true := by
    intro j f c h
    unfold Judgement.barPath
    split
    · rfl
    · exact h
  have hlock : ∀ (j : Judgement) f c, j.path = true → (j.barLock f c).path = true := by
    intro j f c h
    unfold Judgement.barLock
    split
    · exact h
    · exact h
  refine State.bars_keep (P := fun j => j.path = true) hpath hlock s p a m v (fun j b _ h => ?_) (fun j h => ?_) h
  · refine hlock _ _ _ ?_
    split
    · rfl
    · exact h
  · unfold State.barWindow
    dsimp only
    split
    · exact h
    · exact h

theorem Judgement.barPath_stopped {j : Judgement} (h : j.mask = 0) (f : Fld) (c : Bool) : j.barPath f c = j := by
  simp [Judgement.barPath, Fld.hit, h]

theorem Judgement.barLock_stopped {j : Judgement} (h : j.mask = 0) (f : Fld) (c : Bool) : j.barLock f c = j := by
  simp [Judgement.barLock, Fld.hit, h]

/-- Outside BNK_CTL the bars leave a write as it is that a lock has refused whole. -/
theorem State.bars_locked (s : State) (p : Path) {a : Nat} (m v : Word) (hb : idxOf (R.BNK_CTL 0) 4 48 a = none) :
    s.bars p a m v ⟨0, false, true⟩ = ⟨0, false, true⟩ := by
  refine State.bars_keep (P := fun j => j = ⟨0, false, true⟩) ?_ ?_ s p a m v (fun j b h => ?_) (fun j h => ?_) rfl
  · rintro j f c rfl
    exact Judgement.barPath_stopped rfl f c
  · rintro j f c rfl
    exact Judgement.barLock_stopped rfl f c
  · rw [hb] at h
    cases h
  · subst h
    unfold State.barWindow
    dsimp only
    split <;> rfl

/-! ### Writes that are refused whole -/

/-- A write outside the cipher pages of which no bit passes is counted once, and waits for nothing (R533). -/
theorem State.busWrite_refused (s : State) (p : Path) (agent : Nat) {a : Nat} {m v : Word} {r : RegRow} {j : Judgement}
    (hr : rowAt a = some r) (hp : inPages a = false) (hd : p = .fw → a ≠ R.DIR_CMD)
    (hj : s.bars p a m v (s.judgeRow p a m v r) = j) (h0 : j.mask = 0) : s.busWrite p agent a m v = s.countJudged p a j := by
  unfold State.busWrite
  rw [hr]
  dsimp only
  rw [if_neg (by simp [s.pageRefused_of_not_page p agent r hp]), if_neg (fun h => hd h.1 h.2.1),
    if_neg (by simp [s.ownPage_of_not_page agent hp])]
  exact s.judgeWrite_refused p agent a m v r j hj h0 (s.ownPage_of_not_page agent hp)

/-- A judgement that has refused by the path is counted as a path refusal. -/
theorem State.countJudged_path (s : State) (p : Path) (a : Nat) {j : Judgement} (h : j.path = true) :
    s.countJudged p a j = s.refuse .path p a := by
  simp [State.countJudged, h]

/-- REGISTER_WRITE of a whole word outside SRAM is a bus write (R9). -/
theorem registerWrite_bus {s : State} {p : Path} {a : Nat} (hl : s.listening) (hp : s.pathOpen p = true) (ha : sramEnd ≤ a) (cpu : Fin 4)
    (m v : Word) : exec (.registerWrite p cpu a m v false) s = .next (s.busWrite p (agentOf p cpu) a m v) := by
  show execRegisterWrite p cpu a m v false s = _
  unfold execRegisterWrite
  rw [s.receive_listening _ _ hl, if_neg (by simp [hp])]
  simp [State.pathWrite, Nat.not_lt.2 ha]

/-! ### Fields judged one by one -/

/-- What no field's judgement passes, and each that is reached refuses in one way, is refused so (R533). -/
theorem State.judgeRow_uniform (s : State) (p : Path) (a : Nat) (m v : Word) (r : RegRow) {k : Judged} {j : Judgement}
    (hk : (k = .path ∧ j = ⟨0, true, false⟩) ∨ (k = .lock ∧ j = ⟨0, false, true⟩))
    (hall : ∀ f ∈ r.flds, bitsOf m.toNat f.lo f.w ≠ 0 → s.judgeField p a m v f = some k)
    (hsome : ∃ f ∈ r.flds, bitsOf m.toNat f.lo f.w ≠ 0) : s.judgeRow p a m v r = j := by
  have unreached : ∀ f : FRow, bitsOf m.toNat f.lo f.w = 0 → s.judgeField p a m v f = none := by
    intro f h
    unfold State.judgeField
    dsimp only
    rw [if_pos h]
  unfold State.judgeRow
  have run : ∀ (l : List FRow) (i : Judgement), (∀ f ∈ l, bitsOf m.toNat f.lo f.w ≠ 0 → s.judgeField p a m v f = some k) →
      (i = j ∨ (i = {} ∧ ∃ f ∈ l, bitsOf m.toNat f.lo f.w ≠ 0)) →
      l.foldl (fun j f =>
        match s.judgeField p a m v f with
        | some .pass => { j with mask := j.mask ||| (m &&& (Fld.mask ⟨a, f.lo, f.w⟩)) }
        | some .path => { j with path := true }
        | some .lock => { j with lock := true }
        | _ => j) i = j := by
    intro l
    induction l with
    | nil => rintro i - (rfl | ⟨-, f, hf, -⟩)
             · rfl
             · cases hf
    | cons f l ih =>
      intro i hl hi
      rw [List.foldl_cons]
      refine ih _ (fun g hg => hl g (List.mem_cons_of_mem _ hg)) ?_
      by_cases h0 : bitsOf m.toNat f.lo f.w = 0
      · rw [unreached f h0]
        refine hi.imp id fun ⟨he, g, hg, hg0⟩ => ⟨he, g, ?_, hg0⟩
        rcases List.mem_cons.1 hg with rfl | hg
        · exact absurd h0 hg0
        · exact hg
      · rw [hl f List.mem_cons_self h0]
        left
        rcases hk with ⟨rfl, rfl⟩ | ⟨rfl, rfl⟩ <;> rcases hi with rfl | ⟨rfl, -⟩ <;> rfl
  exact run r.flds {} hall (.inr ⟨rfl, hsome⟩)

/-- Settles O41: every field that the write reaches is closed to its path, and no bar reopens one. -/
theorem closedPathWrite : Obligations.ClosedPathWrite := by
  unfold Obligations.ClosedPathWrite
  intro s p cpu a m v r hl hp ha hr hpg hclosed hsome
  have hj : s.judgeRow p a m v r = ⟨0, true, false⟩ := by
    refine s.judgeRow_uniform p a m v r (.inl ⟨rfl, rfl⟩) (fun f hf h0 => ?_) hsome
    unfold State.judgeField
    dsimp only
    rw [if_neg h0, if_pos (hclosed f hf h0)]
  have hfw : p ≠ .fw := by
    rintro rfl
    obtain ⟨f, hf, h0⟩ := hsome
    exact absurd (hclosed f hf h0) (by simp [State.fieldOpen])
  rw [registerWrite_bus hl hp ha, s.busWrite_refused p _ hr hpg (fun h => absurd h hfw) rfl, s.countJudged_path p a]
  · rw [hj]
    exact s.bars_path p a m v rfl
  · rw [hj]
    exact Judgement.Stopped.bars (j := ⟨0, true, false⟩) rfl s p a m v

/-- The rows of BNK_CTLn and of DIR_CMD hold no RWL field. -/
theorem bnkCtl_notLocked : ∀ b : Fin 48, ∀ r ∈ rowAt (R.BNK_CTL b), ∀ f ∈ r.flds, f.acc ≠ .rwl := by decide +kernel
theorem dirCmd_notLocked : ∀ r ∈ rowAt R.DIR_CMD, ∀ f ∈ r.flds, f.acc ≠ .rwl := by decide +kernel

theorem idxOf_some {base stride count a i : Nat} (h : idxOf base stride count a = some i) : i < count ∧ a = base + stride * i := by
  unfold idxOf at h
  split at h
  · rename_i hc
    obtain ⟨hb, hm, hi⟩ := hc
    obtain rfl := Option.some.inj h
    have := Nat.div_add_mod (a - base) stride
    exact ⟨hi, by omega⟩
  · cases h

/-- Settles O40: every field that the write reaches is locked, and no bar of another register's block adds to that. -/
theorem lockedWrite : Obligations.LockedWrite := by
  unfold Obligations.LockedWrite
  intro s p cpu a m v r hl hp ha hr hlk hpg hrwl hsome
  have hj : s.judgeRow p a m v r = ⟨0, false, true⟩ := by
    refine s.judgeRow_uniform p a m v r (.inr ⟨rfl, rfl⟩) (fun f hf h0 => ?_) hsome
    obtain ⟨hacc, hopen⟩ := hrwl f hf h0
    unfold State.judgeField
    dsimp only
    rw [if_neg h0, if_neg (by simp [hopen]), hacc]
    dsimp only
    rw [if_pos hlk]
  obtain ⟨f, hf, h0⟩ := hsome
  have hacc := (hrwl f hf h0).1
  have hd : a ≠ R.DIR_CMD := by
    rintro rfl
    exact dirCmd_notLocked r hr f hf hacc
  have hb : idxOf (R.BNK_CTL 0) 4 48 a = none := by
    rw [Option.eq_none_iff_forall_not_mem]
    intro b hb
    obtain ⟨hlt, rfl⟩ := idxOf_some hb
    exact bnkCtl_notLocked ⟨b, hlt⟩ r hr f hf hacc
  have hbars : s.bars p a m v (s.judgeRow p a m v r) = ⟨0, false, true⟩ := by rw [hj, s.bars_locked p m v hb]
  rw [registerWrite_bus hl hp ha, s.busWrite_refused p _ hr hpg (fun _ => hd) hbars rfl]
  simp [State.countJudged]

end Sys2Proof.Machine
end

section
/-!
R26-R29, R34: the owners and the power states of the banks, and two accesses to one bank.
-/
namespace Sys2Proof.Machine

/-! ### Commits of BNK_CTL -/

theorem idxOf_stride {base stride count i : Nat} (hi : i < count) (hs : 0 < stride) :
    idxOf base stride count (base + stride * i) = some i := by
  unfold idxOf
  have h : base + stride * i - base = stride * i := by omega
  rw [h, Nat.mul_div_cancel_left i hs, if_pos ⟨by omega, Nat.mul_mod_right stride i, hi⟩]

theorem idxOf_bnkCtl {b : Nat} (hb : b < 48) : idxOf (R.BNK_CTL 0) 4 48 (R.BNK_CTL b) = some b :=
  idxOf_stride (base := 0x20010000) hb (by decide)

/-- The commit of a write of BNK_CTLn is that of the bank fabric. -/
theorem State.hook_bank (s : State) (p : Path) (g : Nat) {b : Nat} (hb : b < 48) {n : Word} (m v : Word) :
    s.hook ⟨p, g, R.BNK_CTL b, n, v⟩ m =
      (let t := if (R.BNK_CTL_OWNER b).hit m then s.handover p b (s.newVal (R.BNK_CTL_OWNER b) m v) else s
      if (R.BNK_CTL_PWR b).hit m then t.power p b (s.newVal (R.BNK_CTL_PWR b) m v) else t) := by
  have hblk : R.BNK_CTL b / 65536 = R.BNK_CTL 0 / 65536 := by
    unfold R.BNK_CTL
    omega
  unfold State.hook
  dsimp only
  rw [if_pos ⟨hblk, by rw [idxOf_bnkCtl hb]; rfl⟩]
  unfold State.hookFabric
  rw [idxOf_bnkCtl hb]

theorem pwr_hit_owner (b : Nat) : (R.BNK_CTL_PWR b).hit (R.BNK_CTL_OWNER b).mask = false := by
  simp [Fld.hit, Fld.mask, R.BNK_CTL_PWR, R.BNK_CTL_OWNER]

theorem owner_hit_pwr (b : Nat) : (R.BNK_CTL_OWNER b).hit (R.BNK_CTL_PWR b).mask = false := by
  simp [Fld.hit, Fld.mask, R.BNK_CTL_PWR, R.BNK_CTL_OWNER]

theorem owner_hit_owner (b : Nat) : (R.BNK_CTL_OWNER b).hit (R.BNK_CTL_OWNER b).mask = true := by
  simp [Fld.hit, Fld.mask, R.BNK_CTL_OWNER]

theorem pwr_hit_pwr (b : Nat) : (R.BNK_CTL_PWR b).hit (R.BNK_CTL_PWR b).mask = true := by
  simp [Fld.hit, Fld.mask, R.BNK_CTL_PWR]

/-- A write of OWNER that stands is a handover in effect (R28). -/
theorem State.fieldCommitted_owner (s : State) (p : Path) {b v : Nat} (hb : b < 48) (hv : v < 32) (hu : s.up = true)
    (hs : s.fieldStands p (R.BNK_CTL_OWNER b) v) : s.fieldCommitted p (R.BNK_CTL_OWNER b) v = s.handover p b v := by
  rw [s.fieldCommitted_taken hu (bnkCtl_taken ⟨b, hb⟩).1 hs]
  refine (s.hook_bank p _ hb _ _).trans ?_
  rw [owner_hit_owner, pwr_hit_owner, s.newVal_field _ v (Nat.le_of_ble_eq_true rfl)]
  simp only [if_true, Bool.false_eq_true, if_false]
  exact congrArg _ (Nat.mod_eq_of_lt hv)

/-- A write of PWR that stands is a change of the bank's power state (R29). -/
theorem State.fieldCommitted_pwr (s : State) (p : Path) {b v : Nat} (hb : b < 48) (hv : v < 4) (hu : s.up = true)
    (hs : s.fieldStands p (R.BNK_CTL_PWR b) v) : s.fieldCommitted p (R.BNK_CTL_PWR b) v = s.power p b v := by
  rw [s.fieldCommitted_taken hu (bnkCtl_taken ⟨b, hb⟩).2 hs]
  refine (s.hook_bank p _ hb _ _).trans ?_
  rw [pwr_hit_pwr, owner_hit_pwr, s.newVal_field _ v (Nat.le_of_ble_eq_true rfl)]
  simp only [if_true, Bool.false_eq_true, if_false]
  exact congrArg _ (Nat.mod_eq_of_lt hv)

/-! ### Writes of BNK_CTL that are refused -/

/-- The value that a write gives a field inside its bits is the one written, whatever the register will hold. -/
theorem State.newPend_field (s : State) (p : Path) (f : Fld) (v : Nat) (h : f.lo + f.w ≤ 32) :
    s.newPend p f f.mask (f.write 0 v) = v % 2 ^ f.w := by
  unfold State.newPend
  rw [Fld.merge_write, Fld.read_write_same f _ _ h]

theorem State.bars_bank (s : State) (p : Path) {b : Nat} (hb : b < 48) (m v : Word) (j : Judgement) :
    s.bars p (R.BNK_CTL b) m v j = s.barBank p b m v j := by
  have hcip : R.BNK_CTL b / 65536 ≠ R.CIP_CNT / 65536 := by
    unfold R.BNK_CTL R.CIP_CNT
    omega
  unfold State.bars
  dsimp only
  rw [idxOf_bnkCtl hb]
  simp [Judgement.barPath, hcip]

theorem bnkCtl_row : ∀ b : Fin 48, (rowAt (R.BNK_CTL b)).isSome = true := by decide +kernel

/-- A write of BNK_CTL of which no bit passes the bars of R26 and R29 is counted once (R533). -/
theorem State.fieldWrite_bank_refused (s : State) (p : Path) {b : Nat} (hb : b < 48) (f : Fld) (v : Nat) {r : RegRow} {j : Judgement}
    (hf : f.addr = R.BNK_CTL b) (hp : s.pathOpen p = true) (hr : rowAt (R.BNK_CTL b) = some r)
    (hj : s.barBank p b f.mask (f.write 0 v) (s.judgeRow p (R.BNK_CTL b) f.mask (f.write 0 v) r) = j) (h0 : j.mask = 0) :
    s.fieldWrite p f v = s.countJudged p (R.BNK_CTL b) j := by
  have hpg : inPages (R.BNK_CTL b) = false := by
    simp only [inPages, decide_eq_false_iff_not]
    unfold R.BNK_CTL
    omega
  have hd : R.BNK_CTL b ≠ R.DIR_CMD := by
    unfold R.BNK_CTL R.DIR_CMD
    omega
  unfold State.fieldWrite State.wordWrite
  rw [if_pos hp, hf]
  exact s.busWrite_refused p _ hr hpg (fun _ => hd) ((s.bars_bank p hb _ _ _).trans hj) h0

/-- No bit that a write does not reach passes. -/
theorem State.judgeRow_inside (s : State) (p : Path) (a : Nat) (m v : Word) (r : RegRow) :
    (s.judgeRow p a m v r).mask &&& ~~~ m = 0 := by
  unfold State.judgeRow
  refine List.foldlRecOn r.flds _ (motive := fun j : Judgement => j.mask &&& ~~~ m = 0) (by simp) fun j hj f _ => ?_
  split
  · dsimp only
    rw [BitVec.and_or_distrib_right, hj, BitVec.and_comm m, BitVec.and_assoc, BitVec.and_not_self]
    simp
  all_goals exact hj

/-- Settles O36: R26 bars the field before its value is judged, and then no bit of the write is left. -/
theorem fixedOwners : Obligations.FixedOwners := by
  unfold Obligations.FixedOwners
  intro s p b owner hl h8 h44 hp hpath
  have hopen : s.ownerOpen p b = false := by
    unfold State.ownerOpen
    rw [if_pos ⟨h8, h44⟩]
    simpa using hpath
  obtain ⟨r, hr⟩ := Option.isSome_iff_exists.1 (bnkCtl_row b)
  have hin := s.judgeRow_inside p (R.BNK_CTL b) (R.BNK_CTL_OWNER b).mask ((R.BNK_CTL_OWNER b).write 0 owner) r
  have hj : s.barBank p b (R.BNK_CTL_OWNER b).mask ((R.BNK_CTL_OWNER b).write 0 owner)
      (s.judgeRow p (R.BNK_CTL b) (R.BNK_CTL_OWNER b).mask ((R.BNK_CTL_OWNER b).write 0 owner) r) =
      { s.judgeRow p (R.BNK_CTL b) (R.BNK_CTL_OWNER b).mask ((R.BNK_CTL_OWNER b).write 0 owner) r with mask := 0, path := true } := by
    unfold State.barBank
    dsimp only
    rw [owner_hit_owner, hopen, if_pos (by rfl), hin]
    exact Judgement.barLock_stopped rfl _ _
  refine congrArg Host.Outcome.next ((s.receive_listening _ _ hl).trans ?_)
  rw [s.fieldWrite_bank_refused p b.isLt _ owner rfl hp hr hj rfl, s.countJudged_path p _ rfl]

/-! ### Power states -/

/-- The registers after a change of power of a bank that R29 does not keep ON. -/
theorem State.power_regs (s : State) (p : Path) {b pwr : Nat} (hne : s.get (R.BNK_CTL_PWR b) ≠ pwr)
    (hk : ¬ (alwaysOn b = true ∧ s.get R.KEY_LC_STATE = lcField)) :
    (s.power p b pwr).regs = ((s.set (R.BNK_CTL_PWR b) pwr).set (R.BNK_STAT_READY b) 0).regs := by
  unfold State.power
  dsimp only
  rw [if_neg (Ne.symm hne), if_neg hk]
  split <;> rfl

/-- Its content is lost in OFF, and that of no other bank. -/
theorem State.byte_power (s : State) (p : Path) {b pwr : Nat} (hne : s.get (R.BNK_CTL_PWR b) ≠ pwr)
    (hk : ¬ (alwaysOn b = true ∧ s.get R.KEY_LC_STATE = lcField)) (hm : Memory.wf s.mem = true) (a : Nat) :
    (s.power p b pwr).byte a = if bankOf a = b ∧ pwr = 2 then 0#8 else s.byte a := by
  unfold State.power
  dsimp only
  rw [if_neg (Ne.symm hne), if_neg hk]
  by_cases h2 : pwr = 2
  · simp only [h2, and_true, if_true]
    refine (State.zeroBank_byte _ b a (by simpa using hm)).trans ?_
    rw [ite_not]
    rfl
  · simp only [h2, and_false, if_false]
    rfl

/-- Settles O34: in FIELD the bar of R29 leaves no bit of the write; else the change of power does what R29 says. -/
theorem bankPowerChange : Obligations.BankPowerChange := by
  unfold Obligations.BankPowerChange
  refine ⟨fun s p b pwr hjd hon hlc h0 => ?_, fun s p b pwr hu hs hm hst hne hk => ?_⟩
  · obtain ⟨hl, hp, r, hr, -, hjr⟩ := hjd
    have hnew : s.newPend p (R.BNK_CTL_PWR b) (R.BNK_CTL_PWR b).mask ((R.BNK_CTL_PWR b).write 0 pwr) ≠ 0 := by
      rw [s.newPend_field p _ _ (Nat.le_of_ble_eq_true rfl)]
      show pwr.val % 4 ≠ 0
      omega
    have hj : s.barBank p b (R.BNK_CTL_PWR b).mask ((R.BNK_CTL_PWR b).write 0 pwr)
        (s.judgeRow p (R.BNK_CTL b) (R.BNK_CTL_PWR b).mask ((R.BNK_CTL_PWR b).write 0 pwr) r) = ⟨0, false, true⟩ := by
      rw [show s.judgeRow p (R.BNK_CTL b) _ _ r = _ from hjr]
      unfold State.barBank Judgement.barLock
      dsimp only
      rw [owner_hit_pwr, Bool.false_and, if_neg Bool.false_ne_true, pwr_hit_pwr, hon, decide_eq_true hlc, decide_eq_true hnew,
        if_pos (by rfl)]
      simp
    refine congrArg Host.Outcome.next ((s.receive_listening _ _ hl).trans ?_)
    rw [s.fieldWrite_bank_refused p b.isLt _ _ rfl hp hr hj rfl]
    rfl
  · obtain ⟨hwc, hws, hne'⟩ := bank_writable b
    have hregs := s.power_regs p hne hk
    have hset := s.set_wf (R.BNK_CTL_PWR b) pwr hs
    have get := fun f => State.get_congr hregs f
    have ctl : ∀ f : Fld, f.addr = R.BNK_CTL b → (s.power p b pwr).get f = (s.set (R.BNK_CTL_PWR b) pwr).get f := by
      intro f hf
      rw [get, State.get_set_addr _ _ f _ (by rw [hf]; exact hne') hset]
    refine ⟨_, s.fieldCommitted_pwr p b.isLt (by omega) hu hst, ?_, ?_, ?_, fun a ha => ?_, fun a ha h2 => ?_, fun a hc hst => ?_⟩
    · rw [ctl _ rfl, s.get_set_same _ _ hwc (Nat.le_of_ble_eq_true rfl) hs]
      exact Nat.mod_eq_of_lt (show pwr.val < 4 by omega)
    · rw [get, State.get_set_same _ _ _ hws (Nat.le_of_ble_eq_true rfl) hset]
      rfl
    · rw [State.owner, ctl _ rfl]
      exact s.get_set_bits _ _ _ (.inr (Nat.le_of_ble_eq_true rfl)) hs
    · rw [s.byte_power p hne hk hm, if_neg (by tauto)]
    · rw [s.byte_power p hne hk hm, if_pos ⟨ha, h2⟩]
    · rw [State.word_congr hregs, State.word_set_ne _ _ _ _ hst hset, s.word_set_ne _ _ _ hc hs]

/-! ### Handover -/

/-- A bank that is ON and awake answers by its owner and its drain. -/
theorem State.grants_ready (s : State) (b agent : Nat) (hr : s.bankReady b = true) :
    s.grants b agent = if s.owner b ≠ agent ∨ agent = 0 then .refused
      else if SMap.get (fun _ => 0) s.bnk.drain b ≠ 0 then .stall else .ok := by
  unfold State.grants
  rw [if_neg (by simp [hr])]

/-- A write of OWNER leaves the bank ready or not ready as it was. -/
theorem State.bankReady_set_owner (s : State) (b : Fin 48) (v : Nat) (hs : Regs.wf s.regs = true) :
    (s.set (R.BNK_CTL_OWNER b) v).bankReady b = s.bankReady b := by
  obtain ⟨-, -, hne⟩ := bank_writable b
  unfold State.bankReady State.on
  rw [s.get_set_bits (R.BNK_CTL_OWNER b) (R.BNK_CTL_PWR b) v (.inl (Nat.le_of_ble_eq_true rfl)) hs,
    s.get_set_addr (R.BNK_CTL_OWNER b) (R.BNK_STAT_READY b) v (Ne.symm hne) hs]

/-- Settles O35: the drain entry of the handover stalls the new owner until HANDOVER_DRAIN_END removes it, and the old owner is no owner
from the commit on. -/
theorem handoverFence : Obligations.HandoverFence := by
  unfold Obligations.HandoverFence
  intro s p b owner hu hs hd hst hopen hne h0 hready
  obtain ⟨hwc, -, -⟩ := bank_writable b
  have hcom : s.fieldCommitted p (R.BNK_CTL_OWNER b) owner = { s.set (R.BNK_CTL_OWNER b) owner with
      bnk := { s.bnk with drain := SMap.put (fun _ => 0) s.bnk.drain b (s.owner b + 1) } } := by
    rw [s.fieldCommitted_owner p b.isLt owner.isLt hu hst]
    unfold State.handover
    rw [if_neg (by simp [hopen]), if_neg hne]
  rw [hcom]
  have hown : (s.set (R.BNK_CTL_OWNER b) owner).owner b = owner := by
    rw [State.owner, s.get_set_same (R.BNK_CTL_OWNER b) owner hwc (Nat.le_of_ble_eq_true rfl) hs]
    exact Nat.mod_eq_of_lt owner.isLt
  have hrdy : (s.set (R.BNK_CTL_OWNER b) owner).bankReady b = true := (s.bankReady_set_owner b owner hs).trans hready
  have hgrants : ∀ (bnk : Bnk) (agent : Nat), ({ s.set (R.BNK_CTL_OWNER b) owner with bnk := bnk } : State).grants b agent =
      if owner.val ≠ agent ∨ agent = 0 then .refused else if SMap.get (fun _ => 0) bnk.drain b ≠ 0 then .stall else .ok := by
    intro bnk agent
    refine (State.grants_ready { s.set (R.BNK_CTL_OWNER b) owner with bnk := bnk } b agent hrdy).trans ?_
    exact congrArg (fun o => if o ≠ agent ∨ agent = 0 then Admit.refused else _) hown
  have hold : owner.val ≠ s.owner b := Ne.symm hne
  refine ⟨_, _, rfl, congrArg Host.Outcome.next (State.run_up _ _ ?_), hown, rfl, rfl,
    fun a ha => s.word_set_ne _ _ _ ha hs, rfl, fun _ => ⟨?_, ?_⟩, ?_, ?_⟩
  · exact hu
  · rw [hgrants, if_pos (.inl hold)]
  · rw [hgrants, if_pos (.inl hold)]
  · rw [hgrants, if_neg (by simp [h0]), if_pos]
    rw [SMap.get_put_same hd]
    omega
  · rw [hgrants, if_neg (by simp [h0]), if_neg]
    rw [SMap.get_put_same (SMap.wf_put hd)]
    simp

end Sys2Proof.Machine
end

section
/-!
R27-R35: two accesses to one bank, the canonical form of SRAM under the commands of the memory fabric, and where they complete.
-/
namespace Sys2Proof.Machine

/-! ### Accesses -/

/-- Settles O33: the admission answers `off`, on which neither half of an access does anything. -/
theorem sleepingBankAccess : Obligations.SleepingBankAccess := by
  unfold Obligations.SleepingBankAccess
  intro s x hu hx hoff
  have hg : s.grants (bankOf x.addr) x.agent = .off := if_pos hoff
  have hstall : s.grants (bankOf x.addr) x.agent ≠ .stall := by simp [hg]
  cases hw : x.wr with
  | none =>
    rw [bankAccess_read hu hx hw hstall]
    simp [State.portRead, State.grantsRead, hw, hg]
  | some bs =>
    have hg' : (returns s []).grants (bankOf x.addr) x.agent = .off := hg
    rw [bankAccess_write hu hx hw hstall]
    simp [State.portWrite, hw, hg']

/-- The state with the data that the ports return. -/
def State.returned (s : State) (b0 b1 : List Byte) : State := { s with bnk := { s.bnk with rd0 := b0, rd1 := b1 } }

/-- What two accesses of one cycle leave: what the reads leave with the data returned, then the writes in port order (R34). -/
def State.twoPorts (s : State) (x y : Access) : State :=
  let r0 := s.portRead false x
  let r1 := r0.2.portRead true y
  ((r1.2.returned r0.1 r1.1).portWrite x).portWrite y

/-- Two accesses that are served land in port order, and writes that meet in a word count (R34). -/
theorem bankAccess_two {s : State} {x y : Access} (hu : s.up = true) (hx : Access.inSram x = true) (hy : Access.inSram y = true)
    (gx : s.grants (bankOf x.addr) x.agent = .ok) (gy : s.grants (bankOf y.addr) y.agent = .ok) :
    exec (.bankAccess x (some y)) s =
      .next (if wordsMeet x y then (s.twoPorts x y).bump (R.BNK_STAT_WCOLL (bankOf x.addr)) else s.twoPorts x y) := by
  show execBankAccess x (some y) s = _
  unfold execBankAccess State.twoPorts
  rw [s.run_up _ hu]
  simp [hx, hy, gx, gy, State.returned]

/-- A read of sound lines that is served returns the bytes held, and changes nothing (R27, R30). -/
theorem State.portRead_sound (s : State) (reader : Bool) {x : Access} (hr : x.wr = none) (he : x.err = 0)
    (g : s.grants (bankOf x.addr) x.agent = .ok) (hd : s.bnk.damage = []) :
    s.portRead reader x = ((List.range x.len).map (fun i => s.byte (x.addr + i)), s) := by
  unfold State.portRead State.grantsRead
  rw [hr]
  dsimp only
  rw [g]
  dsimp only
  rw [he, s.readSpan_sound _ _ hd]

theorem State.portRead_write (s : State) (reader : Bool) {x : Access} {bs : List Byte} (hw : x.wr = some bs) :
    s.portRead reader x = ([], s) := by
  unfold State.portRead
  rw [hw]

theorem State.portWrite_read (s : State) {x : Access} (hr : x.wr = none) : s.portWrite x = s := by
  unfold State.portWrite
  rw [hr]

/-- A write to sound lines that is served stores its bytes, and changes nothing else (R27, R32). -/
theorem State.portWrite_sound (s : State) {x : Access} {bs : List Byte} (hw : x.wr = some bs)
    (g : s.grants (bankOf x.addr) x.agent = .ok) (hd : s.bnk.damage = []) : s.portWrite x = s.mstore x.addr bs := by
  unfold State.portWrite
  rw [hw]
  dsimp only
  rw [g]
  exact s.portPut_sound _ _ hd

theorem State.twoPorts_writes (s : State) {x y : Access} {u v : List Byte} (hx : x.wr = some u) (hy : y.wr = some v)
    (gx : s.grants (bankOf x.addr) x.agent = .ok) (gy : s.grants (bankOf y.addr) y.agent = .ok) (hd : s.bnk.damage = []) :
    s.twoPorts x y = ((s.returned [] []).mstore x.addr u).mstore y.addr v := by
  unfold State.twoPorts
  simp only [s.portRead_write _ hx, s.portRead_write _ hy]
  rw [State.portWrite_sound (s.returned [] []) hx gx hd]
  exact State.portWrite_sound ((s.returned [] []).mstore x.addr u) hy gy hd

theorem State.twoPorts_read_write (s : State) {x y : Access} {v : List Byte} (hx : x.wr = none) (hy : y.wr = some v) (he : x.err = 0)
    (gx : s.grants (bankOf x.addr) x.agent = .ok) (gy : s.grants (bankOf y.addr) y.agent = .ok) (hd : s.bnk.damage = []) :
    s.twoPorts x y = (s.returned ((List.range x.len).map (fun i => s.byte (x.addr + i))) []).mstore y.addr v := by
  unfold State.twoPorts
  simp only [s.portRead_sound _ hx he gx hd, s.portRead_write _ hy, State.portWrite_read _ hx]
  exact State.portWrite_sound (s.returned _ _) hy gy hd

theorem State.twoPorts_write_read (s : State) {x y : Access} {u : List Byte} (hx : x.wr = some u) (hy : y.wr = none) (he : y.err = 0)
    (gx : s.grants (bankOf x.addr) x.agent = .ok) (gy : s.grants (bankOf y.addr) y.agent = .ok) (hd : s.bnk.damage = []) :
    s.twoPorts x y = (s.returned [] ((List.range y.len).map (fun i => s.byte (y.addr + i)))).mstore x.addr u := by
  unfold State.twoPorts
  simp only [s.portRead_sound _ hy he gy hd, s.portRead_write _ hx, State.portWrite_read _ hy]
  exact State.portWrite_sound (s.returned _ _) hx gx hd

theorem State.byte_mstore_getD (s : State) (a : Nat) (bs : List Byte) {i : Nat} (h : Memory.wf s.mem = true) (hi : i < bs.length) :
    (s.mstore a bs).byte (a + i) = bs.getD i 0#8 := by
  rw [s.byte_mstore_in a bs i h hi, List.getD_eq_getElem bs 0#8 hi]

theorem wordsMeet_of_read {x y : Access} (h : x.wr = none ∨ y.wr = none) : wordsMeet x y = false := by
  unfold wordsMeet
  split
  · simp_all
  · rfl

/-- An access to SRAM whose word meets another lies in one of the 48 banks. -/
theorem bankOf_lt_of_wordsMeet {x y : Access} {u v : List Byte} (hx : x.wr = some u) (hy : y.wr = some v) (h : wordsMeet x y = true)
    (hin : Access.inSram x = true) : bankOf x.addr < 48 := by
  simp only [wordsMeet, hx, hy, Bool.and_eq_true, decide_eq_true_eq] at h
  simp only [Access.inSram, hx, Bool.and_eq_true, decide_eq_true_eq, sramEnd] at hin
  unfold bankOf
  omega

/-- Settles O38: on sound lines both accesses are plain stores and loads, and port 1's store is the later one. -/
theorem portOrder : Obligations.PortOrder := by
  unfold Obligations.PortOrder
  refine ⟨fun s x y u v hu hx hy hm hxs hys hmeet hs gx gy hd => ?_, fun s x y v hu hx hy hm hxs hys he gx gy hd => ?_,
    fun s x y u hu hx hy hm hxs hys he gx gy hd => ?_⟩
  · have hm1 := (s.returned [] []).mstore_wf x.addr u hm
    have hbank := (bank_writable ⟨_, bankOf_lt_of_wordsMeet hx hy hmeet hxs⟩).2.1
    refine ⟨_, bankAccess_two hu hxs hys gx gy, ?_⟩
    rw [if_pos hmeet, s.twoPorts_writes hx hy gx gy hd]
    refine ⟨fun i hi => State.byte_mstore_getD _ _ _ hm1 hi, fun a hay hax => ?_, fun i hi hy' => ?_,
      State.get_bumpBy _ _ 1 hbank (Nat.le_of_ble_eq_true rfl) hs, fun a ha => State.word_bumpBy_ne _ _ 1 a ha hs⟩
    · exact (State.byte_mstore_out _ _ _ _ hm1 hay).trans ((s.returned [] []).byte_mstore_out _ _ _ hm hax)
    · exact (State.byte_mstore_out _ _ _ _ hm1 hy').trans ((s.returned [] []).byte_mstore_getD _ _ hm hi)
  · refine ⟨_, bankAccess_two hu hxs hys gx gy, ?_⟩
    rw [if_neg (by simp [wordsMeet_of_read (.inl hx)]), s.twoPorts_read_write hx hy he gx gy hd]
    exact ⟨rfl, fun i hi => State.byte_mstore_getD _ _ _ hm hi, fun a ha => State.byte_mstore_out _ _ _ _ hm ha, fun a => rfl⟩
  · refine ⟨_, bankAccess_two hu hxs hys gx gy, ?_⟩
    rw [if_neg (by simp [wordsMeet_of_read (.inr hy)]), s.twoPorts_write_read hx hy he gx gy hd]
    exact ⟨rfl, fun i hi => State.byte_mstore_getD _ _ _ hm hi, fun a ha => State.byte_mstore_out _ _ _ _ hm ha, fun a => rfl⟩

/-! ### The canonical form of SRAM -/

theorem State.run_wf (s : State) (f : State → State) (h : Memory.wf s.mem = true) (hf : Memory.wf (f s).mem = true) :
    Memory.wf (s.run f).mem = true := by
  unfold State.run
  split
  · exact hf
  · exact h

@[simp] theorem State.countJudged_mem (s : State) (p : Path) (a : Nat) (j : Judgement) : (s.countJudged p a j).mem = s.mem := by
  unfold State.countJudged
  split
  · simp
  · split <;> simp

@[simp] theorem State.handover_mem (s : State) (p : Path) (b own : Nat) : (s.handover p b own).mem = s.mem := by
  unfold State.handover
  split
  · simp
  · split <;> rfl

/-- A write of a register that does not act at once reaches no byte of SRAM when it arrives. -/
theorem State.busWrite_mem (s : State) (p : Path) (g : Nat) {a : Nat} (m v : Word) (ha : ¬ actsAtOnce a) :
    (s.busWrite p g a m v).mem = s.mem := by
  simp only [actsAtOnce, not_or] at ha
  unfold State.busWrite
  split
  · simp
  · split
    · simp [State.cipFault]
    · split
      · rfl
      · split
        · rfl
        · unfold State.judgeWrite State.acceptWrite
          dsimp only
          rw [if_neg ha.1, if_neg ha.2.1, if_neg ha.2.2.1, if_neg ha.2.2.2]
          split <;> simp

theorem bnkCtl_waits : ∀ b : Fin 48, ¬ actsAtOnce (R.BNK_CTL b) := by
  intro b
  simp only [actsAtOnce, R.BNK_CTL, R.TIM_STEPS, R.TIM_STEPNS, R.PRT_STEPS, R.PRT_STEPNS]
  omega

/-- A write of BNK_CTLn that arrives reaches no byte of SRAM. -/
theorem State.receive_bank_mem (s : State) (i : Instr) (p : Path) (b : Fin 48) {f : Fld} (hf : f.addr = R.BNK_CTL b) (v : Nat) :
    (s.receive i (fun s => s.fieldWrite p f v)).mem = s.mem := by
  unfold State.receive State.fieldWrite State.wordWrite
  split
  · rfl
  · rfl
  all_goals
    dsimp only
    split
    · exact s.busWrite_mem p _ _ _ (hf ▸ bnkCtl_waits b)
    · rfl

theorem State.bankAccess_wf (s : State) (x : Access) (y : Option Access) (h : Memory.wf s.mem = true) {t : State}
    (ht : execBankAccess x y s = .next t) : Memory.wf t.mem = true := by
  unfold execBankAccess at ht
  rw [← Host.Outcome.next.inj ht]
  refine s.run_wf _ h ?_
  extract_lets l r0 r1 src bnk t0 t1
  have h0 : Memory.wf r0.2.mem = true := s.portRead_wf _ _ h
  have h1 : Memory.wf r1.2.mem = true := by
    unfold r1
    split
    · exact State.portRead_wf _ _ _ h0
    · exact h0
  have h2 : Memory.wf t1.mem = true :=
    List.foldlRecOn l State.portWrite (motive := fun s : State => Memory.wf s.mem = true) h1 fun s hs x _ => s.portWrite_wf x hs
  split
  · exact h
  · split
    · exact h
    · split
      · split
        · exact h2
        · exact h2
      · exact h2

theorem State.scrubBank_wf (s : State) (errs left : List (Nat × Nat)) (k b : Nat) (h : Memory.wf s.mem = true) :
    Memory.wf (State.scrubBank errs left k s b).mem = true := by
  unfold State.scrubBank
  extract_lets x owed late n t0 t1
  split
  · exact List.foldlRecOn (List.range n) _ (motive := fun s : State => Memory.wf s.mem = true) h fun s hs x _ => s.checkLine_wf _ _ hs
  · exact h

/-- A commit of a write of BNK_CTLn keeps the canonical form, whatever of the write still passes. -/
theorem State.committed_bank_wf (s : State) (p : Path) (g : Nat) (b : Fin 48) (m v : Word) (h : Memory.wf s.mem = true) :
    Memory.wf (s.committed p g (R.BNK_CTL b) m v).mem = true := by
  have hhook : ∀ (t : State) (n : Word), Memory.wf t.mem = true → Memory.wf (t.hook ⟨p, g, R.BNK_CTL b, m, v⟩ n).mem = true := by
    intro t n ht
    rw [t.hook_bank p g b.isLt]
    extract_lets u
    have hu : Memory.wf u.mem = true := by
      unfold u
      split
      · simpa using ht
      · exact ht
    split
    · exact u.power_wf p b _ hu
    · exact hu
  unfold State.committed State.commitWrite
  dsimp only
  split
  · exact h
  · split
    · split
      · simpa using h
      · exact hhook _ _ (by simpa using h)
    · split
      · simpa using h
      · exact hhook _ _ (by simpa using h)

/-- Settles O60: each command of the fabric is made of operations that keep the canonical form. -/
theorem fabricKeepsForm : Obligations.FabricKeepsForm := by
  unfold Obligations.FabricKeepsForm
  refine ⟨fun s t c rest hp hc hm hstep => ?_, fun s p b owner pwr hu hm => ⟨?_, ?_⟩⟩
  · unfold step at hstep
    rw [hp] at hstep
    dsimp only at hstep
    have key : ∀ f : State → State, (∀ u : State, Memory.wf u.mem = true → Memory.wf (f u).mem = true) →
        Host.Outcome.next (State.run { s with pending := rest } f) = (.next t : Out) → Memory.wf t.mem = true := by
      intro f hf h
      rw [← Host.Outcome.next.inj h]
      exact State.run_wf _ f hm (hf _ hm)
    rcases hc with ⟨x, y, rfl⟩ | ⟨l, rfl⟩ | ⟨p, b, o, rfl⟩ | ⟨b, rfl⟩ | ⟨p, b, w, rfl⟩ | ⟨b, rfl⟩ | ⟨l, m, rfl⟩
    · exact State.bankAccess_wf { s with pending := rest } x y hm hstep
    · refine key _ (fun u hu => ?_) hstep
      dsimp only
      split
      · split
        · exact hu
        · exact hu
      · exact hu
    · rw [← Host.Outcome.next.inj hstep, State.receive_bank_mem _ _ p b rfl]
      exact hm
    · refine key _ (fun u hu => ?_) hstep
      exact hu
    · rw [← Host.Outcome.next.inj hstep, State.receive_bank_mem _ _ p b rfl]
      exact hm
    · refine key _ (fun u hu => ?_) hstep
      dsimp only
      split
      · split
        · exact u.zeroBank_wf b hu
        · exact hu
      · exact hu
    · refine key _ (fun u hu => ?_) hstep
      exact List.foldlRecOn (List.range 48) _ (motive := fun s : State => Memory.wf s.mem = true) hu fun s hs x _ => s.scrubBank_wf _ _ _ _ hs
  · exact s.committed_bank_wf p _ b _ _ hm
  · exact s.committed_bank_wf p _ b _ _ hm

/-! ### Where the commands complete -/

/-- Settles O3: each clause is its command evaluated in a device that runs. -/
theorem bankCommandsComplete : Obligations.BankCommandsComplete := by
  unfold Obligations.BankCommandsComplete
  refine ⟨fun s x hu hr hx hg => ?_, fun s x bs hu hw hx hg => ?_, fun s line hu hl hd => ?_, fun s p b owner h => ?_,
    fun s p b owner hu hst hopen hne => ?_, fun s b hu => ?_, fun s p b pwr h => ?_, fun s p b pwr hu hst => ?_,
    fun s b w hu hw h0 hnow hpwr => ?_, fun s errs left hu => ?_⟩
  · rw [bankAccess_read hu hx hr (by simp [hg])]
    simp [State.portRead, State.grantsRead, hr, hg, returns]
  · have hg' : (returns s []).grants (bankOf x.addr) x.agent = .ok := hg
    rw [bankAccess_write hu hx hw (by simp [hg])]
    simp only [State.portWrite, hw, hg']
    rfl
  · refine congrArg Host.Outcome.next ((s.run_up _ hu).trans ?_)
    rw [if_pos hl, if_pos hd]
    rfl
  · exact congrArg Host.Outcome.next (s.receive_field _ p _ _ h (bnkCtl_waits b))
  · rw [s.fieldCommitted_owner p b.isLt owner.isLt hu hst]
    unfold State.handover
    rw [if_neg (by simp [hopen]), if_neg hne]
  · exact congrArg Host.Outcome.next (s.run_up _ hu)
  · exact congrArg Host.Outcome.next (s.receive_field _ p _ _ h (bnkCtl_waits b))
  · exact s.fieldCommitted_pwr p b.isLt pwr.isLt hu hst
  · refine congrArg Host.Outcome.next ((s.run_up _ hu).trans ?_)
    dsimp only
    rw [hw, if_pos ⟨h0, hnow, hpwr⟩]
    rfl
  · exact ⟨_, rfl, congrArg Host.Outcome.next (s.run_up _ hu)⟩

end Sys2Proof.Machine
end

section
/-!
R78-R92: frames and their reservations, the ring's pointers, the mode of a queue and its marks.
-/
namespace Sys2Proof.Machine

/-! ### Queues and their registers -/

theorem State.queue_putQueue_same (s : State) (n : Nat) (q : Queue) (h : SMap.wf queueDefault s.queues = true) :
    (s.putQueue n q).queue n = q := SMap.get_put_same h

theorem State.queue_putQueue_ne (s : State) {n k : Nat} (q : Queue) (hk : k ≠ n) (h : SMap.wf queueDefault s.queues = true) :
    (s.putQueue n q).queue k = s.queue k := SMap.get_put_ne hk h

/-- The registers of the record queues exist. -/
theorem queue_writable : ∀ q : Fin 32, writable (R.QUE_CTL q) = true ∧ writable (R.QUE_STAT q) = true ∧ writable (R.QUE_CNT q) = true ∧
    writable (R.QUE_RING q) = true ∧ writable (R.QUE_OCC q) = true := by decide

theorem State.get_putQueue (s : State) (n : Nat) (q : Queue) (f : Fld) : (s.putQueue n q).get f = s.get f := rfl
theorem State.word_putQueue (s : State) (n : Nat) (q : Queue) (a : Nat) : (s.putQueue n q).word a = s.word a := rfl

theorem State.qSync_wf (s : State) (n : Nat) (hs : Regs.wf s.regs = true) : Regs.wf (s.qSync n).regs = true :=
  State.set_wf _ _ _ (s.set_wf _ _ hs)

/-- OPEN and FULL follow a queue's contents; no other field does. -/
theorem State.get_qSync (s : State) (n : Nat) (g : Fld) (ho : (R.QUE_STAT_OPEN n).apart g = true) (hf : (R.QUE_STAT_FULL n).apart g = true)
    (hs : Regs.wf s.regs = true) : (s.qSync n).get g = s.get g := by
  unfold State.qSync
  rw [State.get_set_apart _ _ _ _ hf (s.set_wf _ _ hs), s.get_set_apart _ _ _ ho hs]

theorem State.word_qSync (s : State) (n : Nat) {a : Nat} (ha : a ≠ R.QUE_STAT n) (hs : Regs.wf s.regs = true) :
    (s.qSync n).word a = s.word a := by
  unfold State.qSync
  rw [State.word_set_ne _ _ _ _ ha (s.set_wf _ _ hs), s.word_set_ne _ _ _ ha hs]

theorem State.get_qSync_addr (s : State) (n : Nat) {g : Fld} (hg : g.addr ≠ R.QUE_STAT n) (hs : Regs.wf s.regs = true) :
    (s.qSync n).get g = s.get g := congrArg g.read (s.word_qSync n hg hs)

@[simp] theorem State.qSync_queue (s : State) (n k : Nat) : (s.qSync n).queue k = s.queue k := rfl
@[simp] theorem State.qSync_mem (s : State) (n : Nat) : (s.qSync n).mem = s.mem := rfl

/-! ### What the mode, the pointers and the contents of a queue depend on -/

theorem State.isRing_of_get {s t : State} {n : Nat} (h : t.get (R.QUE_STAT_MODE n) = s.get (R.QUE_STAT_MODE n)) : t.isRing n = s.isRing n := by
  unfold State.isRing State.on
  rw [h]

theorem State.ringOcc_of_word {s t : State} {n : Nat} (h : t.word (R.QUE_RING n) = s.word (R.QUE_RING n)) : t.ringOcc n = s.ringOcc n := by
  unfold State.ringOcc State.get
  rw [show (R.QUE_RING_WPTR n).addr = R.QUE_RING n from rfl, show (R.QUE_RING_RPTR n).addr = R.QUE_RING n from rfl, h]

/-- A frame opened or closed: the committed records of the queue stay, and no register but QUE_STATn changes, in which MODE stays. -/
structure State.SameRecords (s t : State) (n : Nat) : Prop where
  mem : t.mem = s.mem
  bnk : t.bnk = s.bnk
  mode : t.get (R.QUE_STAT_MODE n) = s.get (R.QUE_STAT_MODE n)
  words : ∀ a, a ≠ R.QUE_STAT n → a ≠ R.QUE_CNT n → t.word a = s.word a
  head : (t.queue n).head = (s.queue n).head
  spill : (t.queue n).spill = (s.queue n).spill
  tail : (t.queue n).tail = (s.queue n).tail

theorem State.SameRecords.qCommitted {s t : State} {n : Nat} (h : s.SameRecords t n) : t.qCommitted n = s.qCommitted n := by
  have hw : t.word (R.QUE_RING n) = s.word (R.QUE_RING n) :=
    h.words _ (by unfold R.QUE_RING R.QUE_STAT; omega) (by unfold R.QUE_RING R.QUE_CNT; omega)
  unfold State.qCommitted
  dsimp only
  rw [State.isRing_of_get h.mode, State.ringOcc_of_word hw, h.head, h.spill, h.tail]

/-- Whether the engine of a bank is served rests on the two registers of the bank. -/
theorem State.served_of_word {s t : State} {b : Nat} (hc : t.word (R.BNK_CTL b) = s.word (R.BNK_CTL b))
    (hst : t.word (R.BNK_STAT b) = s.word (R.BNK_STAT b)) : t.served b = s.served b := by
  have hpwr : t.get (R.BNK_CTL_PWR b) = s.get (R.BNK_CTL_PWR b) := congrArg (R.BNK_CTL_PWR b).read hc
  have hown : t.get (R.BNK_CTL_OWNER b) = s.get (R.BNK_CTL_OWNER b) := congrArg (R.BNK_CTL_OWNER b).read hc
  have hrdy : t.get (R.BNK_STAT_READY b) = s.get (R.BNK_STAT_READY b) := congrArg (R.BNK_STAT_READY b).read hst
  unfold State.served State.bankReady State.owner State.on
  rw [hpwr, hown, hrdy]

/-- No register of a bank is one of a queue. -/
theorem bnk_ne_que (b n : Nat) (hb : b < 2 ^ 20) : (R.BNK_CTL b ≠ R.QUE_STAT n ∧ R.BNK_CTL b ≠ R.QUE_CNT n) ∧
    R.BNK_STAT b ≠ R.QUE_STAT n ∧ R.BNK_STAT b ≠ R.QUE_CNT n := by
  unfold R.BNK_CTL R.BNK_STAT R.QUE_STAT R.QUE_CNT
  omega

theorem State.SameRecords.mrd {s t : State} {n : Nat} (h : s.SameRecords t n) {a : Nat} (k : Nat) (ha : bankOf a < 2 ^ 20) :
    t.mrd a k = s.mrd a k := by
  obtain ⟨⟨hc1, hc2⟩, hs1, hs2⟩ := bnk_ne_que (bankOf a) n ha
  have hctl : t.word (R.BNK_CTL (bankOf a)) = s.word (R.BNK_CTL (bankOf a)) := h.words _ hc1 hc2
  have hstat : t.word (R.BNK_STAT (bankOf a)) = s.word (R.BNK_STAT (bankOf a)) := h.words _ hs1 hs2
  have hserved := State.served_of_word hctl hstat
  unfold State.mrd State.portBytes State.lineBad State.dmg State.byte
  rw [hserved, h.mem, h.bnk]

theorem bankOf_ringAddr_lt (s : State) (n slot : Nat) : bankOf (s.ringAddr n slot) < 2 ^ 20 := by
  have h := s.get_lt (R.QUE_CFG_SPBASE n)
  have h' : s.get (R.QUE_CFG_SPBASE n) < 256 := h
  unfold State.ringAddr State.placeAddr bankOf
  omega

theorem State.SameRecords.qFront {s t : State} {n : Nat} (h : s.SameRecords t n) : t.qFront n = s.qFront n := by
  have word : ∀ {f : Fld}, f.addr ≠ R.QUE_STAT n → f.addr ≠ R.QUE_CNT n → t.get f = s.get f :=
    fun {f} h1 h2 => congrArg f.read (h.words _ h1 h2)
  have hocc : t.ringOcc n = s.ringOcc n := State.ringOcc_of_word
    (h.words _ (by unfold R.QUE_RING R.QUE_STAT; omega) (by unfold R.QUE_RING R.QUE_CNT; omega))
  have hr : t.get (R.QUE_RING_RPTR n) = s.get (R.QUE_RING_RPTR n) :=
    word (by simp [R.QUE_RING_RPTR, R.QUE_RING, R.QUE_STAT]) (by simp [R.QUE_RING_RPTR, R.QUE_RING, R.QUE_CNT])
  have haddr : ∀ slot, t.ringAddr n slot = s.ringAddr n slot := by
    intro slot
    unfold State.ringAddr State.placeAddr
    rw [word (by simp [R.QUE_CFG_SPBASE, R.QUE_CFG, R.QUE_STAT]) (by simp [R.QUE_CFG_SPBASE, R.QUE_CFG, R.QUE_CNT])]
  unfold State.qFront
  rw [State.isRing_of_get h.mode, hocc, hr, haddr, h.mrd 64 (bankOf_ringAddr_lt s n _), h.head]

/-! ### Frames -/

theorem State.rewind_none (s : State) (n : Nat) (h : (s.queue n).frame = none) : s.rewind n = s := by
  unfold State.rewind
  rw [h]

/-- A queue with its open frame abandoned. -/
def State.closeFrame (s : State) (n : Nat) : State := s.putQueue n { s.queue n with frame := none }

theorem State.rewind_some (s : State) (n : Nat) {f : Frame} (h : (s.queue n).frame = some f) :
    s.rewind n = ((s.closeFrame n).bump (R.QUE_CNT_REWIND n)).qSync n := by
  unfold State.rewind
  rw [h]
  rfl

/-- A queue with a frame of `k` records opened in it. -/
def State.withFrame (s : State) (n k : Nat) (job : Bool) : State :=
  (s.putQueue n { s.queue n with
      late := false,
      opened := (s.queue n).opened + 1,
      frame := some { fcnt := k, words := [], deadline := s.now + s.get (R.QUE_CFG_FRTO n), byJob := job, num := (s.queue n).opened } }).qSync n

theorem State.openFrame_free (s : State) (n k : Nat) (job : Bool) (h : (s.queue n).frame = none) :
    s.openFrame n k job = if s.frameFits n k then s.withFrame n k job else s.bump (R.QUE_CNT_REJECT n) := by
  unfold State.openFrame State.withFrame
  rw [s.rewind_none n h]

theorem State.sameRecords_withFrame (s : State) (n k : Nat) (job : Bool) (hs : Regs.wf s.regs = true)
    (hq : SMap.wf queueDefault s.queues = true) : s.SameRecords (s.withFrame n k job) n := by
  have hput := fun q => s.queue_putQueue_same n q hq
  refine ⟨rfl, rfl, State.get_qSync _ n _ ?_ ?_ hs, fun a ha _ => State.word_qSync _ n ha hs, ?_, ?_, ?_⟩
  · exact Fld.apart_of_bits (.inl (Nat.le_of_ble_eq_true rfl))
  · exact Fld.apart_of_bits (.inl (Nat.le_of_ble_eq_true rfl))
  all_goals
    unfold State.withFrame
    rw [State.qSync_queue, hput]

/-- The state after an open frame has been rewound. -/
theorem State.sameRecords_rewind (s : State) (n : Nat) {f : Frame} (h : (s.queue n).frame = some f) (hs : Regs.wf s.regs = true)
    (hq : SMap.wf queueDefault s.queues = true) : s.SameRecords (s.rewind n) n := by
  have hput := fun q => s.queue_putQueue_same n q hq
  have hb := (s.closeFrame n).bumpBy_wf (R.QUE_CNT_REWIND n) 1 hs
  rw [s.rewind_some n h]
  refine ⟨rfl, rfl, (State.get_qSync _ n _ ?_ ?_ hb).trans ((s.closeFrame n).get_bumpBy_apart _ _ 1 ?_ hs),
    fun a ha hc => (State.word_qSync _ n ha hb).trans ((s.closeFrame n).word_bumpBy_ne _ 1 a hc hs), ?_, ?_, ?_⟩
  · exact Fld.apart_of_bits (.inl (Nat.le_of_ble_eq_true rfl))
  · exact Fld.apart_of_bits (.inl (Nat.le_of_ble_eq_true rfl))
  · exact Fld.apart_of_addr (by simp [R.QUE_STAT_MODE, R.QUE_CNT_REWIND, R.QUE_STAT, R.QUE_CNT])
  all_goals
    rw [State.qSync_queue, show ((s.closeFrame n).bump (R.QUE_CNT_REWIND n)).queue n = _ from hput _]

/-- Settles O44: opening and rewinding a frame keep the committed records, and the frame's own field holds the reservation. -/
theorem frameReservation : Obligations.FrameReservation := by
  unfold Obligations.FrameReservation
  intro s q fcnt job hl hs hq hfree
  obtain ⟨-, -, hcnt, -, -⟩ := queue_writable q
  have hopen : exec (.frameOpen q fcnt job) s = .next (s.openFrame q fcnt job) := congrArg Host.Outcome.next (s.receive_listening _ _ hl)
  refine ⟨?_, fun hfit => ?_, fun hfit => ?_⟩
  · unfold State.frameFits
    have h63 : ¬ fcnt.val < 63 ↔ fcnt.val = 63 := by omega
    simp only [Bool.and_eq_false_iff, decide_eq_false_iff_not, h63, not_not, Nat.not_le, or_assoc]
  · rw [hopen, s.openFrame_free q fcnt job hfree, if_neg (by simp [hfit])]
  · let t := s.withFrame q fcnt job
    have ht : t.queue q = _ := s.queue_putQueue_same q _ hq
    have hframe := congrArg Queue.frame ht
    have htw : Regs.wf t.regs = true := State.qSync_wf _ q hs
    have htq : SMap.wf queueDefault t.queues = true := SMap.wf_put hq
    have h1 := s.sameRecords_withFrame q fcnt job hs hq
    have h2 := t.sameRecords_rewind q hframe htw htq
    have huq : (t.rewind q).queue q = { t.queue q with frame := none } := by
      rw [t.rewind_some q hframe]
      exact t.queue_putQueue_same q _ htq
    have hs0 : s.qOcc q = s.qCommitted q := by
      unfold State.qOcc Queue.reserved
      rw [hfree]
      rfl
    refine ⟨t, t.rewind q, ?_, congrArg Host.Outcome.next (t.receive_listening _ _ hl), ?_, h1.qCommitted, h1.qFront, ?_, ?_, rfl, h2.mem,
      fun k hk => ?_, fun a ha => State.word_qSync _ q ha hs, fun a ha hc => (h2.words a ha hc).trans (h1.words a ha hc)⟩
    · rw [hopen, s.openFrame_free q fcnt job hfree, if_pos hfit]
    · rw [hs0, State.qOcc, h1.qCommitted, Queue.reserved, hframe]
      rfl
    · rw [hs0, State.qOcc, h2.qCommitted, h1.qCommitted, Queue.reserved, huq]
      rfl
    · rw [t.rewind_some q hframe, State.get_qSync_addr ((t.closeFrame q).bump _) q (g := R.QUE_CNT_REWIND q)
        (by simp [R.QUE_CNT_REWIND, R.QUE_STAT, R.QUE_CNT]) ((t.closeFrame q).bumpBy_wf _ 1 htw)]
      refine ((t.closeFrame q).get_bumpBy _ 1 hcnt (Nat.le_of_ble_eq_true rfl) htw).trans ?_
      rw [State.closeFrame, State.get_putQueue, show t.get (R.QUE_CNT_REWIND q) = _ from
        State.get_qSync_addr _ q (by simp [R.QUE_CNT_REWIND, R.QUE_STAT, R.QUE_CNT]) hs, State.get_putQueue]
    · rw [t.rewind_some q hframe]
      exact (t.queue_putQueue_ne _ hk htq).trans (s.queue_putQueue_ne _ hk hq)

/-! ### Marks -/

/-- The occupancy as it is compared, and whether the above flag sets, clears or keeps its value (R89). -/
def State.marked (s : State) (n : Nat) : State :=
  let o := s.qOcc n
  let t := s.set (R.QUE_OCC_OCC n) o
  if s.get (R.QUE_WMH_HIGH n) ≤ o then t.set (R.QUE_STAT_ABOVE n) 1
  else if o ≤ s.get (R.QUE_WML_LOW n) then t.set (R.QUE_STAT_ABOVE n) 0 else t

theorem State.compareMarks_free (s : State) (n : Nat) (h : s.get R.PRT_BP0_QUEUES = 0) : s.compareMarks n = (s.marked n).qSync n := by
  unfold State.compareMarks State.marked
  simp [h]

theorem State.marked_wf (s : State) (n : Nat) (hs : Regs.wf s.regs = true) : Regs.wf (s.marked n).regs = true := by
  have h := s.set_wf (R.QUE_OCC_OCC n) (s.qOcc n) hs
  unfold State.marked
  dsimp only
  split
  · exact State.set_wf _ _ _ h
  · split
    · exact State.set_wf _ _ _ h
    · exact h

theorem State.on_compareMarks (s : State) (n : Nat) (hs : Regs.wf s.regs = true) (h : s.get R.PRT_BP0_QUEUES = 0) :
    (s.compareMarks n).on (R.QUE_STAT_ABOVE n) = (s.marked n).on (R.QUE_STAT_ABOVE n) := by
  unfold State.on
  rw [s.compareMarks_free n h, State.get_qSync _ n (R.QUE_STAT_ABOVE n) (Fld.apart_of_bits (.inr (Nat.le_of_ble_eq_true rfl)))
    (Fld.apart_of_bits (.inr (Nat.le_of_ble_eq_true rfl))) (s.marked_wf n hs)]

/-- A flag reads back as it has been set. -/
theorem State.on_set (s : State) (f : Fld) (v : Nat) (hw : writable f.addr = true) (hf : f.lo + f.w ≤ 32) (hs : Regs.wf s.regs = true) :
    (s.set f v).on f = decide (v % 2 ^ f.w ≠ 0) := by
  rw [State.on, s.get_set_same f v hw hf hs]

/-- Settles O47: of the three cases of the comparison each sets, clears or leaves ABOVE, and OPEN and FULL are other bits. -/
theorem hysteresis : Obligations.Hysteresis := by
  unfold Obligations.Hysteresis
  intro s q hs h0
  obtain ⟨-, hst, -, -, -⟩ := queue_writable q
  have hw := s.set_wf (R.QUE_OCC_OCC q) (s.qOcc q) hs
  have hon := s.on_compareMarks q hs h0
  refine ⟨fun hhi => ?_, fun hhi hlo => ?_, fun hhi hlo => ?_, fun a ha ho => ?_⟩
  · rw [hon, State.marked, if_pos hhi, State.on_set _ _ _ hst (Nat.le_of_ble_eq_true rfl) hw]
    rfl
  · rw [hon, State.marked, if_neg (by omega), if_pos hlo, State.on_set _ _ _ hst (Nat.le_of_ble_eq_true rfl) hw]
    rfl
  · rw [hon, State.marked, if_neg (by omega), if_neg (by omega)]
    unfold State.on
    rw [s.get_set_addr _ _ _ (by simp [R.QUE_STAT_ABOVE, R.QUE_STAT, R.QUE_OCC_OCC, R.QUE_OCC]) hs]
  · rw [s.compareMarks_free q h0, State.word_qSync _ q ha (s.marked_wf q hs)]
    have hocc := s.word_set_ne (R.QUE_OCC_OCC q) (s.qOcc q) a ho hs
    unfold State.marked
    dsimp only
    split
    · rw [State.word_set_ne _ _ _ _ ha hw, hocc]
    · split
      · rw [State.word_set_ne _ _ _ _ ha hw, hocc]
      · exact hocc

/-! ### Commits of QUE_CTL and QUE_RING -/

theorem queCtl_block : ∀ q : Fin 32, ¬ (R.QUE_CTL q / 65536 = R.BNK_CTL 0 / 65536) ∧ R.QUE_CTL q / 65536 = R.QUE_CTL 0 / 65536 ∧
    idxOf (R.BNK_CTL 0) 4 48 (R.QUE_CTL q) = none ∧ idxOf (R.QUE_CTL 0) 32 32 (R.QUE_CTL q) = some q.val := by decide

theorem queRing_block : ∀ q : Fin 32, ¬ (R.QUE_RING q / 65536 = R.BNK_CTL 0 / 65536) ∧ R.QUE_RING q / 65536 = R.QUE_CTL 0 / 65536 ∧
    idxOf (R.BNK_CTL 0) 4 48 (R.QUE_RING q) = none ∧ idxOf (R.QUE_CTL 0) 32 32 (R.QUE_RING q) = none ∧
    (List.range 32).find? (fun k => decide (R.QUE_RING k = R.QUE_RING q)) = some q.val := by decide

/-- The commit of a write of QUE_CTLn: a change of mode, and the other fields as they are written. -/
theorem State.hook_queCtl (s : State) (p : Path) (g : Nat) (q : Fin 32) (m v : Word) :
    s.hook ⟨p, g, R.QUE_CTL q, m, v⟩ m =
      (if (R.QUE_CTL_MODE q).hit m then s.changeMode q (decide (s.newVal (R.QUE_CTL_MODE q) m v = 1)) else s).mergeWord (R.QUE_CTL q)
        (m &&& ((R.QUE_CTL_EN q).mask ||| (R.QUE_CTL_FENCE q).mask ||| (R.QUE_CTL_XMAP q).mask)) v := by
  obtain ⟨h1, h2, h3, h4⟩ := queCtl_block q
  unfold State.hook
  dsimp only
  rw [if_neg (fun h => h1 h.1), if_pos ⟨h2, .inl (by rw [h4]; rfl)⟩]
  unfold State.hookFabric
  rw [h3, h4]

/-- The commit of a write of QUE_RINGn: an advance of the ring. -/
theorem State.hook_queRing (s : State) (p : Path) (g : Nat) (q : Fin 32) (m v : Word) :
    s.hook ⟨p, g, R.QUE_RING q, m, v⟩ m =
      if (R.QUE_RING_RPTR q).hit m then s.advanceRing q (s.newVal (R.QUE_RING_RPTR q) m v) else s := by
  obtain ⟨h1, h2, h3, h4, h5⟩ := queRing_block q
  have hany : (List.range 32).any (fun k => decide (R.QUE_RING k = R.QUE_RING q)) = true :=
    List.any_eq_true.2 ⟨q, List.mem_range.2 q.isLt, decide_eq_true rfl⟩
  unfold State.hook
  dsimp only
  rw [if_neg (fun h => h1 h.1), if_pos ⟨h2, .inr hany⟩]
  unfold State.hookFabric
  rw [h3, h4]
  dsimp only
  rw [h5]

/-- MODE is none of the bits of QUE_CTLn that are kept as they are written, and FENCE is one. -/
theorem queCtl_masks (q : Nat) :
    (R.QUE_CTL_MODE q).mask &&& ((R.QUE_CTL_EN q).mask ||| (R.QUE_CTL_FENCE q).mask ||| (R.QUE_CTL_XMAP q).mask) = 0 ∧
    (R.QUE_CTL_FENCE q).mask &&& ((R.QUE_CTL_EN q).mask ||| (R.QUE_CTL_FENCE q).mask ||| (R.QUE_CTL_XMAP q).mask) = (R.QUE_CTL_FENCE q).mask := by
  have h : (Fld.mask ⟨0, 1, 1⟩ &&& (Fld.mask ⟨0, 0, 1⟩ ||| Fld.mask ⟨0, 2, 1⟩ ||| Fld.mask ⟨0, 8, 8⟩) = 0) ∧
      Fld.mask ⟨0, 2, 1⟩ &&& (Fld.mask ⟨0, 0, 1⟩ ||| Fld.mask ⟨0, 2, 1⟩ ||| Fld.mask ⟨0, 8, 8⟩) = Fld.mask ⟨0, 2, 1⟩ := by decide
  exact h

theorem b2n_mod (b : Bool) : decide (b2n b % 2 ^ 1 = 1) = b := by cases b <;> rfl

theorem State.changeMode_wf (s : State) (n : Nat) (mode : Bool) (hs : Regs.wf s.regs = true) : Regs.wf (s.changeMode n mode).regs = true := by
  unfold State.changeMode
  split
  · exact hs
  · split
    · exact State.qSync_wf _ n (State.set_wf _ _ _ (State.set_wf _ _ _ (State.set_wf _ _ _ (s.set_wf _ _ hs))))
    · exact s.bumpBy_wf _ 1 hs

theorem State.fieldCommitted_mode (s : State) (p : Path) (q : Fin 32) (mode : Bool) (hu : s.up = true) (hs : Regs.wf s.regs = true) :
    s.fieldCommitted p (R.QUE_CTL_MODE q) (b2n mode) = s.changeMode q mode := by
  rw [s.fieldCommitted_always p hu (queue_taken q).1]
  refine (s.hook_queCtl p _ q _ _).trans ?_
  rw [s.newVal_field _ _ (Nat.le_of_ble_eq_true rfl), if_pos (by simp [Fld.hit, Fld.mask, R.QUE_CTL_MODE])]
  rw [show decide (b2n mode % 2 ^ (R.QUE_CTL_MODE q).w = 1) = mode from b2n_mod mode, (queCtl_masks q).1]
  exact State.mergeWord_none _ _ _ (s.changeMode_wf q mode hs)

theorem State.fieldCommitted_fence (s : State) (p : Path) (q : Fin 32) (v : Bool) (hu : s.up = true) :
    s.fieldCommitted p (R.QUE_CTL_FENCE q) (b2n v) = s.set (R.QUE_CTL_FENCE q) (b2n v) := by
  rw [s.fieldCommitted_always p hu (queue_taken q).2.1]
  refine (s.hook_queCtl p _ q _ _).trans ?_
  rw [if_neg (by simp [Fld.hit, Fld.mask, R.QUE_CTL_MODE, R.QUE_CTL_FENCE]), (queCtl_masks q).2]
  exact s.mergeWord_field (R.QUE_CTL_FENCE q) _

theorem State.fieldCommitted_rptr (s : State) (p : Path) (q : Fin 32) (rptr : Fin 2048) (hu : s.up = true) :
    s.fieldCommitted p (R.QUE_RING_RPTR q) rptr = s.advanceRing q rptr := by
  rw [s.fieldCommitted_always p hu (queue_taken q).2.2]
  refine (s.hook_queRing p _ q _ _).trans ?_
  rw [s.newVal_field _ _ (Nat.le_of_ble_eq_true rfl), if_pos (by simp [Fld.hit, Fld.mask, R.QUE_RING_RPTR])]
  exact congrArg _ (Nat.mod_eq_of_lt rptr.isLt)

/-! ### The ring -/

/-- Settles O45: the comparison of R86 decides between the count and the new pointer; the new occupancy is the distance that was compared. -/
theorem ringAdvance : Obligations.RingAdvance := by
  unfold Obligations.RingAdvance
  intro s p q rptr hu hs
  obtain ⟨-, -, -, hring, -⟩ := queue_writable q
  rw [s.fieldCommitted_rptr p q rptr hu]
  refine ⟨fun hpast => if_pos hpast, fun hin => ?_⟩
  have hw := s.set_wf (R.QUE_RING_RPTR q) rptr hs
  have hword : ∀ a, a ≠ R.QUE_STAT q → (s.advanceRing q rptr).word a = (s.set (R.QUE_RING_RPTR q) rptr).word a := by
    intro a ha
    unfold State.advanceRing
    dsimp only
    rw [if_neg (by omega)]
    exact State.word_qSync _ q ha hw
  have hne : R.QUE_RING q ≠ R.QUE_STAT q := by
    unfold R.QUE_RING R.QUE_STAT
    omega
  have hr : (s.advanceRing q rptr).get (R.QUE_RING_RPTR q) = rptr := by
    refine (congrArg (R.QUE_RING_RPTR q).read (hword _ hne)).trans ?_
    exact (s.get_set_same (R.QUE_RING_RPTR q) rptr hring (Nat.le_of_ble_eq_true rfl) hs).trans (Nat.mod_eq_of_lt rptr.isLt)
  have hwp : (s.advanceRing q rptr).get (R.QUE_RING_WPTR q) = s.get (R.QUE_RING_WPTR q) := by
    refine (congrArg (R.QUE_RING_WPTR q).read (hword _ hne)).trans ?_
    exact s.get_set_bits (R.QUE_RING_RPTR q) (R.QUE_RING_WPTR q) rptr (.inl (Nat.le_of_ble_eq_true rfl)) hs
  refine ⟨_, rfl, hr, ?_, ?_, fun a ha hst => ?_⟩
  · rw [State.ringOcc, hr, hwp]
  · unfold State.advanceRing
    dsimp only
    rw [if_neg (by omega)]
    rfl
  · rw [hword a hst, s.word_set_ne _ _ _ ha hs]

/-! ### The mode -/

/-- A queue whose mode has changed: both pointers 0, and no record in it (R87). -/
def State.newMode (s : State) (n : Nat) (mode : Bool) : State :=
  (((s.set (R.QUE_CTL_MODE n) (b2n mode)).set (R.QUE_STAT_MODE n) (b2n mode)).set (R.QUE_RING_RPTR n) 0).set (R.QUE_RING_WPTR n) 0

theorem State.newMode_wf (s : State) (n : Nat) (mode : Bool) (hs : Regs.wf s.regs = true) : Regs.wf (s.newMode n mode).regs = true :=
  State.set_wf _ _ _ (State.set_wf _ _ _ (State.set_wf _ _ _ (s.set_wf _ _ hs)))

theorem State.changeMode_idle (s : State) {n : Nat} {mode : Bool} (hm : s.on (R.QUE_CTL_MODE n) ≠ mode) (he : s.on (R.QUE_CTL_EN n) = false)
    (hc : s.qCommitted n = 0) (hf : (s.queue n).frame = none) : s.changeMode n mode = ((s.newMode n mode).putQueue n {}).qSync n := by
  unfold State.changeMode State.newMode
  rw [if_neg hm, if_pos ⟨he, hc, hf⟩]

theorem on_of_b2n {s : State} {f : Fld} {b : Bool} (h : s.get f = b2n b % 2 ^ 1) : s.on f = b := by
  rw [State.on, h]
  cases b <;> rfl

theorem State.word_newMode (s : State) (n : Nat) (mode : Bool) {a : Nat} (hc : a ≠ R.QUE_CTL n) (hst : a ≠ R.QUE_STAT n)
    (hr : a ≠ R.QUE_RING n) (hs : Regs.wf s.regs = true) : (s.newMode n mode).word a = s.word a := by
  have h1 := s.set_wf (R.QUE_CTL_MODE n) (b2n mode) hs
  have h2 := State.set_wf _ (R.QUE_STAT_MODE n) (b2n mode) h1
  have h3 := State.set_wf _ (R.QUE_RING_RPTR n) 0 h2
  unfold State.newMode
  rw [State.word_set_ne _ _ _ _ hr h3, State.word_set_ne _ _ _ _ hr h2, State.word_set_ne _ _ _ _ hst h1, s.word_set_ne _ _ _ hc hs]

/-- Both modes and both pointers as a change of mode leaves them. -/
theorem State.get_newMode (s : State) (q : Fin 32) (mode : Bool) (hs : Regs.wf s.regs = true) :
    (s.newMode q mode).get (R.QUE_CTL_MODE q) = b2n mode % 2 ^ 1 ∧ (s.newMode q mode).get (R.QUE_STAT_MODE q) = b2n mode % 2 ^ 1 ∧
    (s.newMode q mode).get (R.QUE_RING_RPTR q) = 0 ∧ (s.newMode q mode).get (R.QUE_RING_WPTR q) = 0 := by
  obtain ⟨hctl, hst, -, hring, -⟩ := queue_writable q
  have h1 := s.set_wf (R.QUE_CTL_MODE q) (b2n mode) hs
  have h2 := State.set_wf _ (R.QUE_STAT_MODE q) (b2n mode) h1
  have h3 := State.set_wf _ (R.QUE_RING_RPTR q) 0 h2
  have hcs : R.QUE_CTL q ≠ R.QUE_STAT q := by unfold R.QUE_CTL R.QUE_STAT; omega
  have hcr : R.QUE_CTL q ≠ R.QUE_RING q := by unfold R.QUE_CTL R.QUE_RING; omega
  have hsr : R.QUE_STAT q ≠ R.QUE_RING q := by unfold R.QUE_STAT R.QUE_RING; omega
  unfold State.newMode
  refine ⟨?_, ?_, ?_, ?_⟩
  · rw [State.get_set_addr _ (R.QUE_RING_WPTR q) (R.QUE_CTL_MODE q) _ hcr h3, State.get_set_addr _ (R.QUE_RING_RPTR q) (R.QUE_CTL_MODE q) _ hcr h2,
      State.get_set_addr _ (R.QUE_STAT_MODE q) (R.QUE_CTL_MODE q) _ hcs h1]
    exact s.get_set_same (R.QUE_CTL_MODE q) _ hctl (Nat.le_of_ble_eq_true rfl) hs
  · rw [State.get_set_addr _ (R.QUE_RING_WPTR q) (R.QUE_STAT_MODE q) _ hsr h3, State.get_set_addr _ (R.QUE_RING_RPTR q) (R.QUE_STAT_MODE q) _ hsr h2]
    exact State.get_set_same _ (R.QUE_STAT_MODE q) _ hst (Nat.le_of_ble_eq_true rfl) h1
  · rw [State.get_set_bits _ (R.QUE_RING_WPTR q) (R.QUE_RING_RPTR q) _ (.inr (Nat.le_of_ble_eq_true rfl)) h3]
    exact (State.get_set_same _ (R.QUE_RING_RPTR q) 0 hring (Nat.le_of_ble_eq_true rfl) h2).trans (Nat.zero_mod _)
  · exact (State.get_set_same _ (R.QUE_RING_WPTR q) 0 hring (Nat.le_of_ble_eq_true rfl) h3).trans (Nat.zero_mod _)

/-- Settles O46: the three cases of R87 are those of the change of mode. -/
theorem modeChange : Obligations.ModeChange := by
  unfold Obligations.ModeChange
  intro s p q mode hu hs hq
  rw [s.fieldCommitted_mode p q mode hu hs]
  refine ⟨fun h => if_pos h, fun hm hbusy => ?_, fun hm he hc hf => ?_⟩
  · unfold State.changeMode
    rw [if_neg hm, if_neg hbusy]
  · have hnw := s.newMode_wf q mode hs
    obtain ⟨gctl, gst, grp, gwp⟩ := s.get_newMode q mode hs
    have hcs : R.QUE_CTL q ≠ R.QUE_STAT q := by unfold R.QUE_CTL R.QUE_STAT; omega
    have hrs : R.QUE_RING q ≠ R.QUE_STAT q := by unfold R.QUE_RING R.QUE_STAT; omega
    have hqueue : (s.changeMode q mode).queue q = {} := by
      rw [s.changeMode_idle hm he hc hf, State.qSync_queue]
      exact State.queue_putQueue_same _ _ _ hq
    have hrp : (s.changeMode q mode).get (R.QUE_RING_RPTR q) = 0 := by
      rw [s.changeMode_idle hm he hc hf]
      exact (State.get_qSync_addr ((s.newMode q mode).putQueue q {}) q (g := R.QUE_RING_RPTR q) hrs hnw).trans <|
        (State.get_putQueue _ _ _ _).trans grp
    have hwp : (s.changeMode q mode).get (R.QUE_RING_WPTR q) = 0 := by
      rw [s.changeMode_idle hm he hc hf]
      exact (State.get_qSync_addr ((s.newMode q mode).putQueue q {}) q (g := R.QUE_RING_WPTR q) hrs hnw).trans <|
        (State.get_putQueue _ _ _ _).trans gwp
    refine ⟨_, rfl, on_of_b2n ?_, on_of_b2n ?_, hrp, hwp, hqueue, ?_, fun k hk => ?_, ?_, fun a hc' hst hr => ?_⟩
    · rw [s.changeMode_idle hm he hc hf]
      exact (State.get_qSync_addr ((s.newMode q mode).putQueue q {}) q (g := R.QUE_CTL_MODE q) hcs hnw).trans <|
        (State.get_putQueue _ _ _ _).trans gctl
    · rw [s.changeMode_idle hm he hc hf]
      exact (State.get_qSync ((s.newMode q mode).putQueue q {}) q (R.QUE_STAT_MODE q) (Fld.apart_of_bits (.inl (Nat.le_of_ble_eq_true rfl)))
        (Fld.apart_of_bits (.inl (Nat.le_of_ble_eq_true rfl))) hnw).trans <|
        (State.get_putQueue _ _ _ _).trans gst
    · unfold State.qCommitted State.ringOcc
      rw [hqueue, hrp, hwp]
      split <;> rfl
    · rw [s.changeMode_idle hm he hc hf, State.qSync_queue]
      exact State.queue_putQueue_ne _ _ hk hq
    · rw [s.changeMode_idle hm he hc hf]
      rfl
    · rw [s.changeMode_idle hm he hc hf]
      exact (State.word_qSync ((s.newMode q mode).putQueue q {}) q hst hnw).trans <|
        (State.word_putQueue _ _ _ _).trans (s.word_newMode q mode hc' hst hr hs)

/-! ### Where the commands complete -/

theorem que_waits (q : Fin 32) : ¬ actsAtOnce (R.QUE_CTL q) ∧ ¬ actsAtOnce (R.QUE_RING q) := by
  simp only [actsAtOnce, R.QUE_CTL, R.QUE_RING, R.TIM_STEPS, R.TIM_STEPNS, R.PRT_STEPS, R.PRT_STEPNS]
  omega

/-- Settles O5: each clause is its command evaluated in a device that runs. -/
theorem queueCommandsComplete : Obligations.QueueCommandsComplete := by
  unfold Obligations.QueueCommandsComplete
  refine ⟨fun s q fcnt job hl => congrArg Host.Outcome.next (s.receive_listening _ _ hl),
    fun s q w hl => congrArg Host.Outcome.next (s.receive_listening _ _ hl),
    fun s q hl => congrArg Host.Outcome.next (s.receive_listening _ _ hl), fun s q f hc hf hd => ?_, fun s q bad k t hu hh hsp => ?_,
    fun s q bad r t hu hh hsp ht => ?_,
    fun s p q mode h => congrArg Host.Outcome.next (s.receive_field _ p _ _ h (que_waits q).1),
    fun s p q rptr h => congrArg Host.Outcome.next (s.receive_field _ p _ _ h (que_waits q).2),
    fun s p q v h => congrArg Host.Outcome.next (s.receive_field _ p _ _ h (que_waits q).1),
    fun s p q mode rptr v hu hs =>
      ⟨s.fieldCommitted_mode p q mode hu hs, s.fieldCommitted_rptr p q rptr hu, s.fieldCommitted_fence p q v hu⟩⟩
  · refine congrArg Host.Outcome.next ((s.run_up _ (State.up_of_phase hc (by decide))).trans ?_)
    rw [hf]
    exact if_pos ⟨hc, hd⟩
  · refine congrArg Host.Outcome.next ((s.run_up _ hu).trans ?_)
    dsimp only
    rw [if_pos hh, hsp]
  · refine congrArg Host.Outcome.next ((s.run_up _ hu).trans ?_)
    dsimp only
    rw [if_pos hh, hsp, ht]

end Sys2Proof.Machine
end

section
/-!
R113, R121: the replay comparison and the fault of an admission lane.
-/
namespace Sys2Proof.Machine

/-! ### Bytes that an engine reads back -/

theorem State.word_wrap_ne (s : State) (f : Fld) (a : Nat) (h : a ≠ f.addr) (hs : Regs.wf s.regs = true) : (s.wrap f).word a = s.word a :=
  s.word_set_ne f _ a h hs

theorem State.get_wrap (s : State) (f : Fld) (hw : writable f.addr = true) (hf : f.lo + f.w ≤ 32) (hs : Regs.wf s.regs = true) :
    (s.wrap f).get f = (s.get f + 1) % 2 ^ f.w := by
  unfold State.wrap State.wrapBy
  rw [s.get_set_same f _ hw hf hs, Nat.mod_mod]

/-- On sound lines a served read returns the bytes held. -/
theorem State.mrd_sound (s : State) {a : Nat} (n : Nat) (hd : s.bnk.damage = []) (hv : s.served (bankOf a) = true) :
    s.mrd a n = (List.range n).map (fun i => s.byte (a + i)) := by
  unfold State.mrd State.portBytes
  rw [if_pos hv]
  simp [State.lineBad, s.dmg_sound _ hd]

theorem State.engBad_sound (s : State) (l : Nat) (hd : s.bnk.damage = []) : s.engBad l = false := by
  simp [State.engBad, State.lineBad, s.dmg_sound l hd]

/-- The bytes of a store are read back from where they were stored. -/
theorem State.bytes_mstore (s : State) (a : Nat) (bs : List Byte) (h : Memory.wf s.mem = true) :
    (List.range bs.length).map (fun i => (s.mstore a bs).byte (a + i)) = bs := by
  refine List.ext_getElem (by simp) fun i h1 h2 => ?_
  simpa using s.byte_mstore_in a bs i h h2

/-! ### The replay comparison -/

theorem recCtr_lt (r : Rec) : recCtr r < 2 ^ 32 := bitsOf_lt _ _ _

theorem bankOf_rplAddr_lt {slot : Nat} (h : slot < 2 ^ 20) : bankOf (rplAddr slot) < 48 := by
  unfold bankOf rplAddr
  omega

/-- An entry of the replay table lies in the bank of its line. -/
theorem lineOf_rplAddr (slot : Nat) : lineOf (rplAddr slot) / 16384 = bankOf (rplAddr slot) := by
  unfold lineOf bankOf
  omega

/-- A state that keeps the lines, the bytes and the registers of the bank of an entry keeps the entry. -/
theorem State.rpl_congr {s t : State} {slot : Nat} (hv : t.served (bankOf (rplAddr slot)) = s.served (bankOf (rplAddr slot)))
    (hm : t.mem = s.mem) (hd : t.bnk.damage = s.bnk.damage) : t.rpl slot = s.rpl slot := by
  unfold State.rpl State.mnat State.mrd State.portBytes State.lineBad State.dmg State.byte
  rw [hv, hm, hd]

/-- The entry as a store of its four bytes leaves it. -/
theorem State.rpl_mstore (s : State) (slot n : Nat) (hm : Memory.wf s.mem = true) (hd : s.bnk.damage = [])
    (hv : s.served (bankOf (rplAddr slot)) = true) (hn : n < 2 ^ 32) : (s.mstore (rplAddr slot) (leBytes 4 n)).rpl slot = n := by
  unfold State.rpl State.mnat
  rw [State.mrd_sound (s.mstore (rplAddr slot) (leBytes 4 n)) 4 hd hv]
  have h := s.bytes_mstore (rplAddr slot) (leBytes 4 n) hm
  rw [leBytes_length] at h
  rw [h, leNat_leBytes]
  exact Nat.mod_eq_of_lt hn

/-- With a note, a good tag and no failure forced, the verdict is that of the comparison alone. -/
theorem State.judgeFound_sound (s : State) (q : Nat) (r : Rec) (f : Found) (epoch : Nat) {h : Heart} {note : List Byte}
    (hd : s.bnk.damage = []) (hv : s.served (bankOf (rplAddr f.slot)) = true) (hh : s.heartOf (domainOf (recMeter r)) epoch = some h)
    (hn : h.note = some note) (ht : tagOf (meterKey note (recMeter r) epoch) r = recTag r) (ha : s.on R.PRT_TAG_ARMED = false) :
    s.judgeFound q r f 0 epoch =
      ({ f with v := replayVerdict (s.rpl f.slot) (recCtr r),
                r := if replayVerdict (s.rpl f.slot) (recCtr r) = 0 then
                  b2n (s.on R.VAL_CTL_FRESH) + 2 * b2n (decide (recCtr r = 0xFFFFFFFF)) else 0 }, s.waitDrain (bankOf (rplAddr f.slot))) := by
  have htouch : s.touchReplay f.slot = s.waitDrain (bankOf (rplAddr f.slot)) := by
    unfold State.touchReplay
    rw [s.touchLine_sound _ hd (by rw [lineOf_rplAddr]; exact hv), lineOf_rplAddr]
  have hrpl : (s.waitDrain (bankOf (rplAddr f.slot))).rpl f.slot = s.rpl f.slot := State.rpl_congr rfl rfl rfl
  unfold State.judgeFound
  rw [if_neg (by decide), hh]
  dsimp only [Option.bind]
  rw [hn]
  dsimp only
  rw [if_neg (by decide), ha, ht, decide_eq_true rfl]
  simp only [Bool.false_and, Bool.false_eq_true, if_false, reduceCtorEq, or_self]
  rw [htouch, State.engBad_sound (s.waitDrain (bankOf (rplAddr f.slot))) _ hd, hrpl]
  rfl

/-- Settles O48: the verdict is the comparison's, and on sound lines an ACCEPT is a store of the counter's four bytes. -/
theorem replayComparison : Obligations.ReplayComparison := by
  unfold Obligations.ReplayComparison
  refine ⟨fun e c he hc => ?_, fun s q r f epoch h note hd hv hh hn ht ha => ?_, fun s f epoch r hsl hd hv hm hs => ?_⟩
  · unfold replayVerdict
    refine ⟨fun h1 h2 => ?_, fun h1 h2 => ?_, fun h1 h2 => ?_, fun h1 h2 => ?_, fun h => ?_⟩
    · rw [if_pos h1, if_pos h2]
    · rw [if_pos h1, if_neg (by omega)]
    · rw [if_neg h1, if_pos h2]
    · rw [if_neg h1, if_neg (by omega), if_pos h2]
    · rw [if_neg (by omega), if_neg (by omega), if_neg (by omega)]
  · rw [s.judgeFound_sound q r f epoch hd hv hh hn ht ha]
    exact ⟨rfl, rfl, fun h0 => if_pos h0⟩
  · have hstore := s.memWrite_sound (rplAddr f.slot) (leBytes 4 (recCtr r)) hd hv
    let t := (s.waitDrain (bankOf (rplAddr f.slot))).mstore (rplAddr f.slot) (leBytes 4 (recCtr r))
    have hrpl : t.rpl f.slot = recCtr r :=
      (s.waitDrain (bankOf (rplAddr f.slot))).rpl_mstore f.slot _ hm hd hv (recCtr_lt r)
    have hbyte : ∀ a, a < rplAddr f.slot ∨ rplAddr f.slot + 4 ≤ a → t.byte a = s.byte a := fun a h =>
      (s.waitDrain (bankOf (rplAddr f.slot))).byte_mstore_out _ _ _ hm (by rw [leBytes_length]; exact h)
    refine ⟨fun h => if_neg h, fun h => ?_⟩
    unfold State.replayUpdate
    rw [if_pos h, hstore]
    by_cases hc : recCtr r = 0xFFFFFFFF
    · obtain ⟨hb1, hb2⟩ : R.BNK_CTL (bankOf (rplAddr f.slot)) ≠ R.RPL_FINAL ∧ R.BNK_STAT (bankOf (rplAddr f.slot)) ≠ R.RPL_FINAL := by
        have := bankOf_rplAddr_lt hsl
        unfold R.BNK_CTL R.BNK_STAT R.RPL_FINAL
        omega
      have hserved := State.served_of_word (t.word_wrap_ne R.RPL_FINAL_COUNT _ hb1 hs) (t.word_wrap_ne R.RPL_FINAL_COUNT _ hb2 hs)
      dsimp only
      rw [if_pos hc]
      exact ⟨(State.rpl_congr hserved rfl rfl).trans hrpl, hbyte, fun a ha => t.word_wrap_ne R.RPL_FINAL_COUNT a ha hs,
        fun h => absurd hc h, fun _ => ⟨t.get_wrap R.RPL_FINAL_COUNT (by decide) (by decide) hs, _, rfl, rfl⟩⟩
    · dsimp only
      rw [if_neg hc]
      exact ⟨hrpl, hbyte, fun a _ => rfl, fun _ => ⟨rfl, rfl⟩, fun h => absurd h hc⟩

/-! ### Lanes -/

/-- A bit of a field is the bit of the register at its place. -/
theorem Fld.read_bit (f : Fld) (w : Word) {i : Nat} (hi : i < f.w) :
    (f.read w).testBit i = decide (Fld.read ⟨f.addr, f.lo + i, 1⟩ w ≠ 0) := by
  have h1 : (f.read w).testBit i = w.toNat.testBit (f.lo + i) := by
    unfold Fld.read
    rw [bitsOf_testBit]
    simp [hi]
  rw [h1]
  unfold Fld.read bitsOf
  rw [Nat.testBit_eq_decide_div_mod_eq]
  simp

/-- One bit of a mask field is set, and no other bit of the device. -/
theorem State.testBit_flagBit (s : State) (f : Fld) (i k : Nat) (hw : writable f.addr = true) (hi : i < f.w) (hk : k < f.w)
    (hf : f.lo + f.w ≤ 32) (hs : Regs.wf s.regs = true) :
    ((s.flagBit f i).get f).testBit k = if k = i then true else (s.get f).testBit k := by
  have hbit : Fld.read ⟨f.addr, f.lo + k, 1⟩ ((s.flagBit f i).word f.addr) =
      (s.set ⟨f.addr, f.lo + i, 1⟩ 1).get ⟨f.addr, f.lo + k, 1⟩ := rfl
  rw [State.get, f.read_bit _ hk, hbit]
  by_cases h : k = i
  · subst h
    rw [if_pos rfl, s.get_set_same ⟨f.addr, f.lo + k, 1⟩ 1 hw (by dsimp only; omega) hs]
    rfl
  · rw [if_neg h, s.get_set_bits ⟨f.addr, f.lo + i, 1⟩ ⟨f.addr, f.lo + k, 1⟩ 1 (by dsimp only; omega) hs]
    exact (f.read_bit _ hk).symm

theorem State.lane_putLane (s : State) (l : Nat) (x : Lane) (h : SMap.wf lane0 s.val.lanes = true) : (s.putLane l x).lane l = x :=
  SMap.get_put_same h

/-- A lane that a fault still holds idles its slot (R121). -/
theorem State.admitSlot_held (s : State) (l j lat : Nat) (judge : Nat → Rec → State → State) (hw : SMap.wf lane0 s.val.lanes = true)
    (h : s.now < (s.lane l).resume) :
    s.admitSlot l j lat judge = (s.putLane l { s.lane l with next := j + 1 }).putLane l
      { s.lane l with next := j + 1, idle := (s.lane l).idle + 1 } := by
  have hl := s.lane_putLane l { s.lane l with next := j + 1 } hw
  unfold State.admitSlot
  dsimp only
  rw [hl, if_pos (.inr h)]

/-- Settles O49: a reset lane resumes at `now + 2`, and until then its slots idle. -/
theorem laneFaultHolds : Obligations.LaneFaultHolds := by
  unfold Obligations.LaneFaultHolds
  intro s l hu hs hw
  have hbit := fun k (hk : k < 4) => s.testBit_flagBit R.VAL_STAT_LANEFLT l k (by decide) l.isLt hk (by decide) hs
  have hlane : (s.resetLane l).lane l = { s.lane l with last := 31, resume := s.now + 2, held := none } :=
    (s.flagBit R.VAL_STAT_LANEFLT l).lane_putLane l _ hw
  refine ⟨s.resetLane l, congrArg Host.Outcome.next (s.run_up _ hu), (hbit l l.isLt).trans (if_pos rfl),
    fun k hk => (hbit k k.isLt).trans (if_neg fun h => hk (Fin.ext h)), rfl, rfl,
    fun a ha => s.word_set_ne ⟨R.VAL_STAT, 0 + l, 1⟩ 1 a ha hs, fun u j lat hph hul huw hnow hnext => ?_⟩
  have hheld : u.now < (u.lane l).resume := by
    rw [hul, hlane]
    exact Nat.lt_succ_of_le hnow
  have hput : SMap.wf lane0 (u.putLane l { u.lane l with next := j + 1 }).val.lanes = true := SMap.wf_put huw
  refine ⟨_, congrArg Host.Outcome.next ((u.run_up _ (State.up_of_phase hph (by decide))).trans (if_pos ⟨hph, hnext⟩)), ?_⟩
  rw [u.admitSlot_held l j lat _ huw hheld]
  refine ⟨rfl, rfl, rfl, rfl, rfl, ?_⟩
  rw [State.lane_putLane _ l _ hput]

end Sys2Proof.Machine
end

section
/-!
R10, R20, R23, R374, R508, R510, R517: what a die reset reaches, the watchdog, the RTC, and the JTAG port.
-/
namespace Sys2Proof.Machine

/-! ### Die reset -/

/-- What is left of a map reads as before, and the rest as its default. -/
theorem SMap.get_keep {β : Type} [DecidableEq β] (d : Nat → β) (p : Nat → Bool) (k : Nat) : ∀ {m : SMap β}, SMap.wf d m = true →
    SMap.get d (SMap.keep p m) k = if p k then SMap.get d m k else d k
  | [], _ => by simp [SMap.keep]
  | (c, b) :: t, h => by
    obtain ⟨ha, -, ht⟩ := SMap.wf_cons.1 h
    have ih := SMap.get_keep d p k ht
    have hk : SMap.keep p ((c, b) :: t) = if p c then (c, b) :: SMap.keep p t else SMap.keep p t := by
      unfold SMap.keep
      rw [List.filter_cons]
    have habove : ∀ j ≤ c, SMap.get d (SMap.keep p t) j = d j := fun j hj => SMap.get_above (SMap.above_keep ha) hj
    rw [hk]
    rcases Nat.lt_trichotomy k c with hlt | rfl | hgt
    · by_cases hc : p c = true
      · simp [hc, SMap.get, hlt]
      · simp [hc, SMap.get, hlt, habove k (Nat.le_of_lt hlt)]
    · by_cases hc : p k = true
      · simp [hc, SMap.get]
      · simp [hc, habove k (Nat.le_refl k)]
    · have hg : SMap.get d ((c, b) :: t) k = SMap.get d t k := by
        rw [SMap.get, if_neg (by omega), if_neg (by omega)]
      by_cases hc : p c = true
      · rw [if_pos hc, SMap.get, if_neg (by omega), if_neg (by omega), ih, hg]
      · rw [if_neg hc, ih, hg]

theorem State.dieReset_regs (s : State) (cause : Nat) :
    (s.dieReset cause).regs = ((({ s with regs := SMap.keep islandReg s.regs } : State).set R.KEY_STAT_ERASED
      (R.KEY_STAT_ERASED.read (s.shownWord R.KEY_STAT))).set R.KEY_STAT_ERASED (s.get R.KEY_STAT_ERASED)).regs := rfl

theorem State.kept_wf (s : State) (p : Nat → Bool) (hs : Regs.wf s.regs = true) :
    Regs.wf ({ s with regs := SMap.keep p s.regs } : State).regs = true := SMap.wf_keep hs

/-- A die reset keeps the registers of the island, and gives every other but KEY_STAT its Reset value. -/
theorem State.word_dieReset (s : State) (cause : Nat) {a : Nat} (ha : a ≠ R.KEY_STAT) (hs : Regs.wf s.regs = true) :
    (s.dieReset cause).word a = if islandReg a then s.word a else resetWord a := by
  have hk := s.kept_wf islandReg hs
  rw [State.word_congr (s.dieReset_regs cause), State.word_set_ne _ _ _ _ ha (State.set_wf _ _ _ hk), State.word_set_ne _ _ _ _ ha hk]
  exact SMap.get_keep resetWord islandReg a hs

theorem State.get_dieReset_erased (s : State) (cause : Nat) (hs : Regs.wf s.regs = true) :
    (s.dieReset cause).get R.KEY_STAT_ERASED = s.get R.KEY_STAT_ERASED := by
  have hk := State.set_wf _ R.KEY_STAT_ERASED (R.KEY_STAT_ERASED.read (s.shownWord R.KEY_STAT)) (s.kept_wf islandReg hs)
  rw [State.get_congr (s.dieReset_regs cause), State.get_set_same _ R.KEY_STAT_ERASED _ (by decide) (by decide) hk]
  exact Nat.mod_eq_of_lt (s.get_lt _)

/-- Settles O53: a die reset is the reset state with the island, the stores and the waiting commands of the state before. -/
theorem dieResetReach : Obligations.DieResetReach := by
  unfold Obligations.DieResetReach
  intro s cause hs
  refine ⟨rfl, rfl, rfl, rfl, rfl, fun a ha => ?_, fun a ha hk => ?_, s.get_dieReset_erased cause hs, rfl, rfl, fun hf => ?_, rfl, rfl, rfl⟩
  · have hne : a ≠ R.KEY_STAT := by
      rintro rfl
      exact absurd ha (by decide)
    rw [s.word_dieReset cause hne hs, if_pos ha]
  · rw [s.word_dieReset cause hk hs, if_neg (by simp [ha])]
  · show s.fused = s.otp
    unfold State.fused
    rw [hf]
    rfl

/-! ### Commits of command registers -/

/-- A register whose commit is not the fabric's, the time unit's, the perturbation unit's or a cipher page's. -/
def commandBlock (a : Nat) : Bool :=
  decide (a / 65536 ≠ R.BNK_CTL 0 / 65536) && decide (a / 65536 ≠ R.QUE_CTL 0 / 65536) && decide (a / 65536 ≠ R.TIM_CTL / 65536) &&
    decide (a / 65536 ≠ R.PRT_CTL / 65536) && !(inPages a)

theorem State.hook_command (s : State) (w : Staged) (m : Word) (h : commandBlock w.addr = true) :
    s.hook w m = s.hookCommand w.path w.agent w.addr m w.value := by
  simp only [commandBlock, Bool.and_eq_true, decide_eq_true_eq, Bool.not_eq_true'] at h
  obtain ⟨⟨⟨⟨hb, hq⟩, ht⟩, hp⟩, hc⟩ := h
  unfold State.hook
  dsimp only
  rw [if_neg (fun h => hb h.1), if_neg (fun h => hq h.1), if_neg ht, if_neg hp, if_neg (by simp [hc])]

/-- The commit of a write of a field of such a register. -/
theorem State.fieldCommitted_command (s : State) (p : Path) {f : Fld} {v : Nat} (hu : s.up = true)
    (h : (commandBlock f.addr && (takenWhole f.addr f.mask && alwaysTaken f.addr f.mask)) = true) :
    s.fieldCommitted p f v = s.hookCommand p (agentOf p 0) f.addr f.mask (f.write 0 v) := by
  rw [Bool.and_eq_true] at h
  rw [s.fieldCommitted_always p hu h.2]
  exact s.hook_command _ _ h.1

/-! ### The watchdog -/

theorem State.fieldCommitted_wdKick (s : State) (p : Path) (key : Fin 256) (hu : s.up = true) :
    s.fieldCommitted p R.ISL_WDKICK_KEY key = s.wdKick key := by
  rw [s.fieldCommitted_command p hu (by decide +kernel)]
  unfold State.hookCommand
  iterate 12 rw [if_neg (by decide)]
  rw [if_pos (by decide)]
  rw [s.newVal_field _ _ (by decide)]
  exact congrArg _ (Nat.mod_eq_of_lt key.isLt)

/-- What the reset of an expired watchdog loses is counted in ISL_EVLOST alone. -/
theorem State.word_evLose (s : State) {a : Nat} (ha : a ≠ R.ISL_EVLOST) (hs : Regs.wf s.regs = true) : s.evLose.word a = s.word a :=
  s.word_set_ne R.ISL_EVLOST_COUNT _ a ha hs

/-- Settles O54: the three cases of a kick, and of an expiry the count and the die reset. -/
theorem watchdogKick : Obligations.WatchdogKick := by
  unfold Obligations.WatchdogKick
  intro s p key hu
  rw [s.fieldCommitted_wdKick p key hu]
  unfold State.wdKick
  refine ⟨fun h => if_pos h, fun h hb => ?_, fun h hn hw hs => ?_⟩
  · rw [if_neg (by omega), if_pos ⟨h, hb⟩]
  · rw [if_neg h, if_neg hn]
    unfold State.wdExpire
    rw [if_neg (by simp [hw])]
    let c := satAdd 16 (s.get R.ISL_WDSTAT_COUNT) 1
    have h1 := s.set_wf R.ISL_WDSTAT_COUNT c hs
    have h2 : Regs.wf (s.set R.ISL_WDSTAT_COUNT c).evLose.regs = true := State.set_wf _ _ _ h1
    have hword : ∀ a, islandReg a = true → a ≠ R.ISL_EVLOST →
        ((s.set R.ISL_WDSTAT_COUNT c).evLose.dieReset 2).word a = (s.set R.ISL_WDSTAT_COUNT c).word a := by
      intro a ha he
      have hne : a ≠ R.KEY_STAT := by
        rintro rfl
        exact absurd ha (by decide)
      rw [State.word_dieReset _ 2 hne h2, if_pos ha, State.word_evLose _ he h1]
    refine ⟨_, rfl, rfl, rfl, rfl, ?_, fun a ha hwd he => ?_⟩
    · rw [State.get, hword _ (by decide) (by decide)]
      refine (s.get_set_same R.ISL_WDSTAT_COUNT c (by decide) (by decide) hs).trans (Nat.mod_eq_of_lt ?_)
      show satAdd 16 _ 1 < 2 ^ 16
      unfold satAdd
      omega
    · rw [hword a ha he, s.word_set_ne R.ISL_WDSTAT_COUNT c a hwd hs]

/-! ### The RTC -/

theorem State.fieldCommitted_rtcSetLo (s : State) (p : Path) (sec : BitVec 32) (hu : s.up = true) :
    s.fieldCommitted p R.RTC_SETLO_SEC sec.toNat = s.rtcStage sec.toNat := by
  rw [s.fieldCommitted_command p hu (by decide +kernel)]
  unfold State.hookCommand
  iterate 13 rw [if_neg (by decide)]
  rw [if_pos (by decide)]
  rw [s.newVal_field _ _ (by decide)]
  exact congrArg _ (Nat.mod_eq_of_lt sec.isLt)

/-- The fields that the RTC takes when it is set with its crystal running (R508). -/
def rtcSetFields (v : Nat) : List (Fld × Nat) :=
  [(R.RTC_SECHI_SEC, v / 2 ^ 32), (R.RTC_SECLO_SEC, v % 2 ^ 32), (R.RTC_FRAC_FRAC, 0), (R.RTC_STAT_VALID, 1), (R.RTC_STAT_XSTOP, 0)]

theorem State.rtcSet_regs (s : State) (v : Nat) (h : s.isl.stopped = false) : (s.rtcSet v).regs = (s.setAll (rtcSetFields v)).regs := by
  unfold State.rtcSet
  rw [h]
  rfl

/-- Settles O55: the commit leaves the seconds due, and the clock takes them as five fields that share no bit. -/
theorem rtcSet : Obligations.RtcSet := by
  unfold Obligations.RtcSet
  intro s p sec hu hs
  refine ⟨_, s.fieldCommitted_rtcSetLo p sec hu, rfl, rfl, fun v hv hrun => ?_⟩
  have hget := s.get_setAll_mem (rtcSetFields v) (by simp only [rtcSetFields, List.forall_mem_cons]; decide)
    (by simp only [rtcSetFields, List.forall_mem_cons]; decide) (by simp only [rtcSetFields, List.pairwise_cons, List.forall_mem_cons]; decide) hs
  simp only [rtcSetFields, List.forall_mem_cons] at hget
  obtain ⟨hhi, hlo, hfrac, hvalid, hx, -⟩ := hget
  have hregs := s.rtcSet_regs v hrun
  have get := fun f => State.get_congr hregs f
  refine ⟨?_, ?_, ?_, ?_, ?_⟩
  · rw [get]
    exact hlo.trans (Nat.mod_mod _ _)
  · rw [get]
    refine hhi.trans (Nat.mod_eq_of_lt ?_)
    show v / 2 ^ 32 < 2 ^ 16
    omega
  · rw [get]
    exact hfrac
  · rw [get]
    exact hvalid
  · rw [get]
    exact hx

/-! ### JTAG -/

/-- The JTAG port works while the main supplies are there (R517). -/
theorem State.jtagRun_on (s : State) (f : State → State) (hd : s.isl.dead = false) (hb : s.isl.battery = false) : s.jtagRun f = f s := by
  simp [State.jtagRun, hd, hb]

/-- Settles O57: each instruction evaluated where the port works. -/
theorem jtagInstructions : Obligations.JtagInstructions := by
  unfold Obligations.JtagInstructions
  refine ⟨fun s hd hb => congrArg Host.Outcome.next (s.jtagRun_on _ hd hb), fun s cells hd hb hlc => ?_, fun s a wr hd hb hlc hopen => ?_,
    fun s bit hd hb => ⟨_, congrArg Host.Outcome.next (s.jtagRun_on _ hd hb), rfl, rfl, rfl, rfl, rfl, rfl, rfl⟩⟩
  · refine congrArg Host.Outcome.next ?_
    rw [s.jtagRun_on _ hd hb, s.jtagRun_on _ hd hb]
    exact if_neg hlc
  · have hclosed : s.pathOpen .t = false := by
      simp only [State.pathOpen, Bool.or_eq_false_iff, Bool.and_eq_false_iff, decide_eq_false_iff_not]
      refine ⟨hlc, ?_⟩
      rcases Classical.em (s.get R.KEY_LC_STATE = 2) with h | h
      · exact .inr (Bool.eq_false_iff.2 fun ho => hopen ⟨h, ho⟩)
      · exact .inl h
    refine congrArg Host.Outcome.next ?_
    rw [s.jtagRun_on _ hd hb, s.jtagRun_on _ hd hb, hclosed, Bool.and_false, if_neg Bool.false_ne_true]

end Sys2Proof.Machine
end

section
/-!
What a step is and what reset leaves; refused writes, reports that wait, and pages that are busy.
-/
namespace Sys2Proof.Machine

/-- Settles O29: `step` takes the front of the queue by its definition. -/
theorem stepRunsFrontCommand : Obligations.StepRunsFrontCommand := by
  unfold Obligations.StepRunsFrontCommand
  refine ⟨fun s c rest => rfl, fun s h => ?_⟩
  unfold step
  rw [h]

/-- The owner and the power state of each bank after reset (R24). -/
theorem reset_banks : ∀ b : Fin 48, State.reset.get (R.BNK_CTL_PWR b) = 0 ∧ State.reset.owner b =
    (if b.val < 8 then b.val / 2 + 1 else if b.val < 32 then 5 else if b.val < 40 then 6 else if b.val < 44 then 8
     else if b.val < 45 then 9 else 10) := by decide +kernel

/-- Settles O30: the tables of the reset state are empty, so that every word and byte reads its default. -/
theorem resetState : Obligations.ResetState :=
  ⟨rfl, rfl, rfl, fun _ => rfl, fun _ => rfl, fun _ => rfl, reset_banks⟩

/-- Settles O59: empty tables are in their canonical forms. -/
theorem invariantsAtReset : Obligations.InvariantsAtReset :=
  ⟨⟨rfl, rfl, rfl, rfl, fun _ => List.not_mem_nil⟩, rfl, rfl, rfl, rfl, rfl⟩

/-! ### Refused writes -/

theorem countLayout_lock : CountLayout R.PROC_LOCKV_COUNT R.PROC_LOCKV_VALID [R.PROC_LOCKV_AGENT, R.PROC_LOCKA_ADDR] :=
  ⟨⟨by decide, by decide, rfl, by decide, by decide⟩, by decide, by decide, by decide⟩

theorem countLayout_path : CountLayout R.PROC_PATHREF_COUNT R.PROC_PATHREF_VALID [R.PROC_PATHREF_AGENT, R.PROC_PATHA_ADDR] :=
  ⟨⟨by decide, by decide, rfl, by decide, by decide⟩, by decide, by decide, by decide⟩

/-- Settles O42: a refusal is a counted capture. -/
theorem refusedWriteFrame : Obligations.RefusedWriteFrame := by
  unfold Obligations.RefusedWriteFrame
  intro s p a hs
  have hl : s.Counted (s.refuse .lock p a) R.PROC_LOCKV_COUNT R.PROC_LOCKV_VALID
      [(R.PROC_LOCKV_AGENT, pathCode p), (R.PROC_LOCKA_ADDR, a)] := s.counted_bump_capture countLayout_lock hs
  have hp : s.Counted (s.refuse .path p a) R.PROC_PATHREF_COUNT R.PROC_PATHREF_VALID
      [(R.PROC_PATHREF_AGENT, pathCode p), (R.PROC_PATHA_ADDR, a)] := s.counted_bump_capture countLayout_path hs
  refine ⟨⟨hl.counts, hl.marked, fun h0 => ?_, fun h0 => hl.heldWord h0 R.PROC_LOCKA (by decide),
      fun b hb hba => hl.frame b hb hb (by simpa using ⟨hb, hba⟩)⟩,
    ⟨hp.counts, hp.marked, fun h0 => ?_, fun h0 => hp.heldWord h0 R.PROC_PATHA (by decide),
      fun b hb hba => hp.frame b hb hb (by simpa using ⟨hb, hba⟩)⟩, fun k => by cases k <;> simp [State.refuse]⟩
  · have hf := hl.first h0
    simp only [List.forall_mem_cons] at hf
    obtain ⟨hg, hd, -⟩ := hf
    exact ⟨hg.trans (Nat.mod_eq_of_lt (pathCode_lt p)), hd⟩
  · have hf := hp.first h0
    simp only [List.forall_mem_cons] at hf
    obtain ⟨hg, hd, -⟩ := hf
    exact ⟨hg.trans (Nat.mod_eq_of_lt (pathCode_lt p)), hd⟩

/-! ### Reports -/

/-- The head of the report queue as BAL_RPT shows it is no other field's business, and changes nothing but registers (R154, R156). -/
theorem State.syncReports_get (s : State) (g : Fld) (hc : R.BAL_RPTSTAT_COUNT.apart g = true) (hd : ∀ w < 52, (R.BAL_RPT_DATA w).apart g = true)
    (hs : Regs.wf s.regs = true) : s.syncReports.get g = s.get g ∧ s.syncReports.bal = s.bal ∧ s.syncReports.mem = s.mem := by
  unfold State.syncReports
  dsimp only
  refine (List.foldlRecOn (List.range 52) _
    (motive := fun t : State => Regs.wf t.regs = true ∧ t.get g = s.get g ∧ t.bal = s.bal ∧ t.mem = s.mem) ?_ ?_).2
  · exact ⟨s.set_wf _ _ hs, s.get_set_apart _ _ _ hc hs, rfl, rfl⟩
  · intro t ⟨hw, hg, hb, hm⟩ w hwr
    exact ⟨t.set_wf _ _ hw, (t.get_set_apart _ _ _ (hd w (List.mem_range.1 hwr)) hw).trans hg, hb, hm⟩

/-- Settles O50: the count of 16 decides between LOST and the end of the queue. -/
theorem reportQueue : Obligations.ReportQueue := by
  unfold Obligations.ReportQueue
  intro s r hs
  refine ⟨fun hfull => ?_, fun hroom => ?_⟩
  · have hb : s.enterReport r = s.bump R.BAL_RPTSTAT_LOST := if_pos hfull
    exact ⟨hb, by rw [hb]; exact s.get_bumpBy R.BAL_RPTSTAT_LOST 1 (by decide) (by decide) hs⟩
  · obtain ⟨hg, hb, hm⟩ := State.syncReports_get { s with bal := { s.bal with reports := s.bal.reports ++ [r] } } R.BAL_RPTSTAT_LOST
      (by decide) (by decide) hs
    unfold State.enterReport
    rw [if_neg (by omega)]
    exact ⟨by rw [hb], hg, hm⟩

/-! ### Busy pages -/

/-- The commit of a write of a cipher page's register. -/
theorem State.hook_page (s : State) (w : Staged) (m : Word) (h : inPages w.addr = true) : s.hook w m = s.hookPage w.addr m w.value := by
  have hblk : w.addr / 65536 = 0x2400 := of_decide_eq_true h
  unfold State.hook
  dsimp only
  rw [hblk, if_neg (by simp [R.BNK_CTL]), if_neg (by simp [R.QUE_CTL]), if_neg (by decide), if_neg (by decide), if_pos h]

/-- Settles O52: the page is found BUSY before the write is judged, and again when it is committed. -/
theorem busyPage : Obligations.BusyPage := by
  unfold Obligations.BusyPage
  refine ⟨fun s p cpu a m v r hl hp ha hr hown hbusy hop => ?_, fun s w m hpg hbusy hop => ?_⟩
  · have hz : s.zeroOp a m v = false := by
      unfold State.zeroOp
      simpa using hop
    have hd : ¬ (p = .fw ∧ a = R.DIR_CMD ∧ s.on R.PRT_CTL_DIRHOLD = true) := by
      rintro ⟨-, rfl, -⟩
      exact absurd hown (by simp [State.ownPage, show inPages R.DIR_CMD = false by decide])
    rw [registerWrite_bus hl hp ha]
    unfold State.busWrite
    rw [hr]
    dsimp only
    rw [if_neg (by simp [State.pageRefused, hown]), if_neg hd, if_pos ⟨hown, hbusy, hz⟩]
  · rw [s.hook_page w m hpg]
    unfold State.hookPage
    dsimp only
    rw [if_neg ?_, if_pos hbusy]
    split
    · rename_i hcmd
      exact fun h => hop ⟨hcmd, h⟩
    · decide

end Sys2Proof.Machine
end

section
/-!
R37, R44-R47, R10, R477, R490, R496, R22, R533, R97, R121, R126, R128: where the commands of the tick sequencer, of resets, of the register
bus, of admission and of the directory complete.
-/
namespace Sys2Proof.Machine

/-! ### Commands that change a state in which they find what they ask for -/

/-- A command of the running device completes with what it makes of the state. -/
theorem next_of_run {s t : State} {f : State → State} (hu : s.up = true) (h : f s = t) : (Host.Outcome.next (s.run f) : Out) = .next t := by
  rw [s.run_up f hu, h]

/-- A command of a phase in which the device runs. -/
theorem next_of_phase {s t : State} {f : State → State} {ph : Phase} (hp : s.phase = ph) (hne : ph ≠ .held) (h : f s = t) :
    (Host.Outcome.next (s.run f) : Out) = .next t := next_of_run (State.up_of_phase hp hne) h

/-- An input completes in a listening device. -/
theorem next_of_receive {s t : State} {i : Instr} {f : State → State} (hl : s.listening) (h : f s = t) :
    (Host.Outcome.next (s.receive i f) : Out) = .next t := by
  rw [s.receive_listening i f hl, h]

/-- Every register but the four of R279 keeps a write until its commit. -/
theorem waits {a : Nat} (h : a ∉ [R.TIM_STEPS, R.PRT_STEPS, R.TIM_STEPNS, R.PRT_STEPNS]) : ¬ actsAtOnce a := by
  simpa [actsAtOnce] using h

/-- A command that is a write of one field leaves the write waiting. -/
theorem next_of_field {s : State} {i : Instr} {p : Path} {f : Fld} {v : Nat} (h : fieldPassed s p f v) (ha : ¬ actsAtOnce f.addr) :
    (Host.Outcome.next (s.receive i (fun s => s.fieldWrite p f v)) : Out) = .next (s.fieldWaiting p f v) :=
  congrArg Host.Outcome.next (s.receive_field i p f v h ha)

/-- Settles O1: each clause is its command evaluated under the conditions that it asks for. -/
theorem tickCommandsComplete : Obligations.TickCommandsComplete := by
  unfold Obligations.TickCommandsComplete
  refine ⟨fun s x hu hp => next_of_run hu (if_pos hp), fun s hp => next_of_phase hp (by decide) (if_pos hp),
    fun s n work x hp hx ha hr ht he => ?_, fun s n x total hu hx ho => next_of_run hu rfl, fun s plan hu hn hpr => ?_⟩
  · refine next_of_phase hp (by decide) ?_
    rw [hx]
    exact if_pos ⟨hp, ha, hr, ht, he⟩
  · refine next_of_run hu ?_
    rw [hn]
    exact if_pos hpr

/-- Settles O2: each clause is its command evaluated under the conditions that it asks for. -/
theorem resetCommandsComplete : Obligations.ResetCommandsComplete := by
  unfold Obligations.ResetCommandsComplete
  have trapped : ¬ (1 : Fin 3).val = 0 := by decide
  refine ⟨fun s hd => congrArg Host.Outcome.next (if_pos hd), fun s hu hw => next_of_run hu (if_neg (by simp [hw])),
    fun s x hp hd hh => congrArg Host.Outcome.next (if_pos ⟨hp, hd, hh⟩), fun s => rfl, fun s id f kinds hu ha hf hw hk => ?_,
    fun s cpu hu hsafe hl hw hlt => ?_, fun s cpu hu hsafe hl hw hge => ?_⟩
  · refine next_of_run hu ?_
    rw [ha]
    dsimp only
    rw [if_pos ⟨hf, hw⟩, hk]
    rfl
  · refine next_of_run hu ?_
    dsimp only
    rw [if_neg (by simp [hsafe, hl, hw]), if_neg trapped, if_neg (by omega)]
  · refine next_of_run hu ?_
    dsimp only
    rw [if_neg (by simp [hsafe, hl, hw]), if_neg trapped, if_pos hge]

/-- Settles O4: a write that passes waits, one of SRAM goes through the port of its bank, and an address that no register answers is
counted. -/
theorem busCommandsComplete : Obligations.BusCommandsComplete := by
  unfold Obligations.BusCommandsComplete
  refine ⟨fun s p cpu a m v bits h ha hn => ?_, fun s p cpu a m v hl hp hh hs ha => ?_, fun s p cpu a m v narrow hc => ?_,
    fun s p a hl hp ha hr => unmappedAccess_refused hl ha hr hp⟩
  · obtain ⟨hl, hp, -⟩ := id h
    have hw := s.wordWrite_waits p (agentOf p cpu) a m v bits h hn
    unfold State.wordWrite at hw
    rw [if_pos hp] at hw
    rw [registerWrite_bus hl hp ha, hw]
  · refine next_of_receive hl ?_
    rw [if_neg (by simp [hp])]
    unfold State.pathWrite
    rw [if_pos ha, if_neg (by simp [hh, hs]), if_neg Bool.false_ne_true]
  · exact congrArg Host.Outcome.next (s.receive_commit _ _ hc)

/-- Settles O6: each clause is its command evaluated under the conditions that it asks for. -/
theorem admissionCommandsComplete : Obligations.AdmissionCommandsComplete := by
  unfold Obligations.AdmissionCommandsComplete
  exact ⟨fun s l j lat hp hn => next_of_phase hp (by decide) (if_pos ⟨hp, hn⟩), fun s q hu h0 => next_of_run hu (if_pos h0),
    fun s l hu => next_of_run hu rfl, fun s l j hp hn => next_of_phase hp (by decide) (if_pos ⟨hp, hn⟩),
    fun s l hu hr => next_of_run hu (if_pos hr)⟩

/-- With no command latched and DIRHOLD 0 a directory command whose arguments are words runs to its end (R125, R133). -/
theorem State.dirCommand_free (s : State) (op : Nat) {d : DirArgs} (hn : s.val.dirCmd = none) (hd : s.on R.PRT_CTL_DIRHOLD = false)
    (hw : d.wf = true) : s.dirCommand op d = s.dirFinish op d := by
  simp only [DirArgs.wf, fits, Bool.and_eq_true, decide_eq_true_eq] at hw
  obtain ⟨⟨⟨h0, h1⟩, h2⟩, h3⟩ := hw
  unfold State.dirCommand
  dsimp only
  rw [hn, Nat.mod_eq_of_lt h0, Nat.mod_eq_of_lt h1, Nat.mod_eq_of_lt h2, Nat.mod_eq_of_lt h3]
  exact if_neg (by simp [hd])

/-- Settles O7: the fifteen commands differ in their operation code alone. -/
theorem directoryCommandsComplete : Obligations.DirectoryCommandsComplete := by
  unfold Obligations.DirectoryCommandsComplete
  intro s d hu hn hd hw
  have run : ∀ op, (Host.Outcome.next (s.run (fun s => s.dirCommand op d)) : Out) = .next (s.dirFinish op d) := fun op =>
    next_of_run hu (s.dirCommand_free op hn hd hw)
  exact ⟨run 1, run 2, run 3, run 4, run 5, run 6, run 7, run 8, run 9, run 10, run 11, run 12, run 13, run 14, run 15⟩

/-- Settles O8: each clause is its command evaluated under the conditions that it asks for. -/
theorem windowCommandsComplete : Obligations.WindowCommandsComplete := by
  unfold Obligations.WindowCommandsComplete
  refine ⟨fun s lines hu hz => next_of_run hu (if_pos hz), fun s i hu hf hb hs => ?_, fun s hu hr hd => next_of_run hu (if_pos ⟨hr, hd⟩)⟩
  refine next_of_run hu ?_
  dsimp only
  rw [hf]
  dsimp only
  rw [if_neg hb, if_pos hs]

end Sys2Proof.Machine
end

section
/-!
R136-R154, R161-R187, R209-R219: where the commands of the balance engine, of the metering front end and of the power-line ports complete.
-/
namespace Sys2Proof.Machine

/-- A command of the commit phase completes with what it makes of the state. -/
theorem next_of_inCommit {s t : State} {f : State → State} (hp : s.phase = .commit) (h : f s = t) :
    (Host.Outcome.next (s.inCommit f) : Out) = .next t := by
  rw [s.inCommit_commit f hp, h]

/-- The commit of a write of a command register's field that stands. -/
theorem State.fieldCommitted_command_stands (s : State) (p : Path) {f : Fld} {v : Nat} (hu : s.up = true)
    (h : (commandBlock f.addr && takenWhole f.addr f.mask) = true) (hs : s.fieldStands p f v) :
    s.fieldCommitted p f v = s.hookCommand p (agentOf p 0) f.addr f.mask (f.write 0 v) := by
  rw [Bool.and_eq_true] at h
  rw [s.fieldCommitted_taken hu h.2 hs]
  exact s.hook_command _ _ h.1

/-! ### Balance -/

theorem State.fieldCommitted_reportPop (s : State) (p : Path) (hu : s.up = true) :
    s.fieldCommitted p R.BAL_RPTPOP_POP 1 = s.reportPop p := by
  rw [s.fieldCommitted_command p hu (by decide +kernel)]
  unfold State.hookCommand
  iterate 5 rw [if_neg (by decide)]
  rw [if_pos (by decide)]
  exact if_pos (by decide)

/-- Settles O9: each clause is its command evaluated under the conditions that it asks for. -/
theorem balanceCommandsComplete : Obligations.BalanceCommandsComplete := by
  unfold Obligations.BalanceCommandsComplete
  refine ⟨fun s m hu hr hl hm => ?_, fun s i rest hp hi hl hc => ?_, fun s hu hr hv ho => next_of_run hu (if_pos ⟨hr, hv, ho⟩),
    fun s p h => next_of_field h (waits (by decide)), fun s p hu => s.fieldCommitted_reportPop p hu⟩
  · refine next_of_run hu ?_
    rw [if_pos hr, hl]
    exact if_pos hm
  · refine ⟨_, next_of_phase hp (by decide) rfl, ?_⟩
    dsimp only
    rw [hi]
    dsimp only
    rw [if_pos ⟨hp, hl, hc⟩]

/-! ### Metering -/

theorem State.fieldCommitted_baseAdd (s : State) (p : Path) (hu : s.up = true) (hs : Regs.wf s.regs = true)
    (h : s.fieldStands p R.NRG_CTL_ADD 1) : s.fieldCommitted p R.NRG_CTL_ADD 1 = s.baseAdd p := by
  rw [s.fieldCommitted_command_stands p hu (by decide +kernel) h]
  unfold State.hookCommand
  iterate 6 rw [if_neg (by decide)]
  rw [if_pos (by decide), if_pos (by decide), show R.NRG_CTL_ADD.mask &&& R.NRG_CTL_SAVEP.mask = 0 by decide, s.mergeWord_none _ _ hs]

theorem State.fieldCommitted_silClr (s : State) (p : Path) (hu : s.up = true) (h : s.fieldStands p R.SIL_CLR_CLR 1) :
    s.fieldCommitted p R.SIL_CLR_CLR 1 = s.set R.SIL_TOTAL_TOTAL 0 := by
  rw [s.fieldCommitted_command_stands p hu (by decide +kernel) h]
  unfold State.hookCommand
  iterate 7 rw [if_neg (by decide)]
  rw [if_pos (by decide)]
  exact if_pos (by decide)

/-- Settles O10: each clause is its command evaluated under the conditions that it asks for. -/
theorem meteringCommandsComplete : Obligations.MeteringCommandsComplete := by
  unfold Obligations.MeteringCommandsComplete
  refine ⟨fun s hu h1 h2 h3 => next_of_run hu (if_pos ⟨h1, h2, h3⟩), fun s die board hu => next_of_run hu rfl, fun s a hu hd hn => ?_,
    fun s v zh h t up hu hz ht hle hen => ?_, fun s g hu hg hv hc => ?_, fun s g hu hg hv hc => ?_,
    fun s hu h1 h2 h3 h4 h5 h6 => next_of_run hu (if_pos ⟨h1, h2, h3, h4, h5, h6⟩),
    fun s p h => next_of_field h (waits (by decide)),
    fun s k hp hst ha hh hr => ?_, fun s k a hp hst ha hw => ?_, fun s samples hon hv => ?_, fun s samples hon hv => ?_,
    fun s hon hw => congrArg Host.Outcome.next (if_pos ⟨hon, hw⟩),
    fun s p h => next_of_field h (waits (by decide)),
    fun s p hu hs => ⟨fun h => s.fieldCommitted_baseAdd p hu hs h, fun h => s.fieldCommitted_silClr p hu h⟩⟩
  · refine next_of_run hu ?_
    rw [hd]
    exact if_neg hn
  · refine next_of_run hu ?_
    rw [hz, ht]
    exact if_pos ⟨hle, hen⟩
  · refine next_of_run hu ?_
    dsimp only
    have hlim : (if s.on (R.ZCX_STAT_LOCK (s.vref g (1 : Fin 3))) = true then 200 else 160) ≤
        (SMap.get cycle0 s.mtr.cycles (4 * g + 1)).ticks := by
      split <;> omega
    exact if_pos ⟨hg, hv, hlim⟩
  · refine next_of_run hu ?_
    dsimp only
    have hlim : (if s.on (R.ZCX_STAT_LOCK (s.vref g (0 : Fin 3))) = true then 200 else 160) ≤
        (SMap.get cycle0 s.mtr.cycles (4 * g + 0)).ticks := by
      split <;> omega
    exact if_pos ⟨hg, hv, hlim⟩
  · refine next_of_inCommit hp ?_
    dsimp only
    rw [hst]
    exact if_pos ⟨rfl, ha, hh, .inl hr⟩
  · refine next_of_inCommit hp ?_
    dsimp only
    rw [hst]
    exact if_pos ⟨ha, hw⟩
  · refine ⟨[0, 1, 2].map (fun p => (s.set R.SIL_STAT_SUSP 1).draw.1.toNat / 2 ^ (32 * p) % 2 ^ 26), congrArg Host.Outcome.next ?_⟩
    rw [if_pos hon, if_pos hv]
  · refine congrArg Host.Outcome.next ?_
    rw [if_pos hon, if_neg (by omega)]

/-! ### Power-line ports -/

/-- Settles O11: each clause is its command evaluated under the conditions that it asks for. -/
theorem plcCommandsComplete : Obligations.PlcCommandsComplete := by
  unfold Obligations.PlcCommandsComplete
  refine ⟨fun s p mod psdu hu hm hs hf => ?_, fun s p mod psdu hu hm hs hf => ?_,
    fun s p mod psdu f rest hu hq => ⟨fun hm => ?_, fun hm hs => ?_⟩,
    fun s p t b rest hu ht hb hr hh hat hdrop hpeer => ?_, fun s p dev gain ref hl hrx => ?_, fun s p b h r hl hr hh => ?_,
    fun s p bursts snr stream hl hd => ?_, fun s p bursts snr stream f hl hd => ?_⟩
  · refine next_of_run hu ?_
    rw [if_pos ⟨hm, hs⟩]
    unfold State.plcRequest
    dsimp only
    rw [if_pos hf]
  · refine next_of_run hu ?_
    rw [if_pos ⟨hm, hs⟩]
    unfold State.plcRequest
    dsimp only
    rw [if_neg (by simp [hf])]
  · refine next_of_run hu ?_
    rw [if_neg (by simp [hm]), hq]
    exact if_pos hm
  · refine next_of_run hu ?_
    rw [if_neg (by simp [hs]), hq]
    exact if_neg (by simp [hm])
  · refine next_of_run hu ?_
    unfold State.startBurst
    rw [ht]
    dsimp only
    rw [hb]
    dsimp only
    rw [if_pos ⟨hr, hh, hat⟩, hpeer, hdrop, Nat.zero_testBit]
    rfl
  · refine next_of_receive hl ?_
    dsimp only
    rw [hrx]
    rfl
  · refine next_of_receive hl ?_
    dsimp only
    rw [hr]
    exact if_pos (by simp [hh])
  · refine next_of_receive hl ?_
    dsimp only
    rw [hd]
  · refine next_of_receive hl ?_
    dsimp only
    rw [hd]

end Sys2Proof.Machine
end

section
/-!
R232-R250, R256-R266: where the commands of a power-line network and of the wired, radio and UART ports complete.
-/
namespace Sys2Proof.Machine

/-- An input that counts from the capture phase in which it is seen completes there. -/
theorem next_of_sense {s t : State} {i : Instr} {f : State → State} (hp : s.phase = .capture) (h : f s = t) :
    (Host.Outcome.next (s.sense i f) : Out) = .next t := by
  unfold State.sense
  rw [hp]
  exact congrArg Host.Outcome.next h

/-! ### The master -/

/-- Settles O12: each clause is its command evaluated under the conditions that it asks for. -/
theorem masterCommandsComplete : Obligations.MasterCommandsComplete := by
  unfold Obligations.MasterCommandsComplete
  refine ⟨fun s p hu hm hsw hb => ?_, fun s p hu hi => next_of_run hu (if_pos hi), fun s p w rest hu hs ho => ?_, fun s p f w hu hm hi => ?_,
    fun s t p addr d w hu htd hw => ?_, fun s p f w hu hm hi => ?_, fun s p f w k hu hm hi hk => ?_, fun s p hu hm hr => ?_,
    fun s p hu hi hg => ?_, fun s p f hu hm hi hf => ?_, fun s p m i hu hi hg hn => ?_, fun s p img cnt no data hu hi h1 h2 h3 h4 => ?_,
    fun s p img no data c hu hm hc himg => ?_⟩
  · refine next_of_run hu ?_
    dsimp only
    rw [if_neg (by simp [hm]), if_neg (by simp [hsw]), if_pos (.inl hb)]
  · refine next_of_run hu ?_
    dsimp only
    rw [hs]
    exact if_pos ho
  · refine next_of_run hu ?_
    rw [hm, hi]
  · refine next_of_run hu ?_
    dsimp only
    rw [htd]
    dsimp only
    rw [hw]
  · refine next_of_run hu ?_
    rw [hm, hi]
  · refine next_of_run hu ?_
    rw [hm, hi]
    dsimp only
    rw [hk]
  · exact ⟨_, next_of_run hu (if_pos ⟨hm, hr⟩), rfl⟩
  · refine next_of_run hu ?_
    dsimp only
    rw [hi, hg]
    exact if_pos rfl
  · refine next_of_run hu ?_
    rw [hi]
    exact if_neg (by simp [hm, hf])
  · refine next_of_run hu ?_
    dsimp only
    rw [if_pos ⟨hi, hg⟩, hn]
  · refine next_of_run hu ?_
    dsimp only
    rw [if_neg (by omega), if_pos ⟨hi, h1, h2, h3⟩, if_pos h4]
  · refine next_of_run hu ?_
    rw [if_pos rfl, hc]
    exact if_pos ⟨hm, by simp [himg]⟩

/-! ### The station -/

/-- Settles O13: each clause is its command evaluated under the conditions that it asks for. -/
theorem slaveCommandsComplete : Obligations.SlaveCommandsComplete := by
  unfold Obligations.SlaveCommandsComplete
  refine ⟨fun s f hu hi => ?_, fun s f names hu hi => ?_, fun s f hu hi => ?_, fun s b hp hb hs hj hl => ?_, fun s f hu hi => ?_,
    fun s f hu hi => ?_⟩
  · refine next_of_run hu ?_
    rw [hi]
  · refine next_of_run hu ?_
    rw [hi]
  · refine next_of_run hu ?_
    rw [hi]
  · refine next_of_inCommit hp ?_
    dsimp only
    rw [hb]
    exact if_pos ⟨hs, hj, hl⟩
  · refine next_of_run hu ?_
    rw [hi]
  · refine next_of_run hu ?_
    rw [hi]
    rfl

/-! ### Serial, M-Bus, radio and UART ports -/

/-- A reply that has not begun when its deadline passes is late (R257). -/
theorem State.replyExpired_late (s : State) (c : Nat) {r : BusReq} (hr : (s.busOf c).req = some r) (hn : (s.busOf c).reply = none)
    (hd : r.deadline ≤ s.now) : s.replyExpired c = s.busLate c := by
  unfold State.replyExpired
  dsimp only
  rw [hr, hn]
  exact if_pos hd

/-- A long frame of the meter asked that began in time is the answer (R263). -/
theorem State.takeTelegram_answer (s : State) (c first : Nat) {bytes : List Byte} {r : BusReq} (hr : (s.busOf c).req = some r)
    (hf : first ≤ r.deadline) (hk : r.nke = false) (hl : longFrameOk r.addr bytes = true) (hb : bytes ≠ [0xE5#8]) :
    s.takeTelegram c first bytes = (s.busAnswer c none).giveTelegram c r.meter bytes := by
  unfold State.takeTelegram
  rw [hr]
  dsimp only
  rw [if_neg (by omega), if_neg hb, if_pos ⟨hk, hl⟩]

@[simp] theorem State.modemRx_phase (s : State) (u : Nat) (b : List Byte) : (s.modemRx u b).phase = s.phase := by
  unfold State.modemRx
  split
  · dsimp only
    split <;> rfl
  · rfl

/-- Settles O14: each clause is its command evaluated under the conditions that it asks for. -/
theorem wiredCommandsComplete : Obligations.WiredCommandsComplete := by
  unfold Obligations.WiredCommandsComplete
  refine ⟨fun s k hu hup hr hd => next_of_run hu (if_neg (by simp [hup, hr, hd])),
    fun s n ago idle bytes hl hup hloop hgap => ⟨fun hi => ?_, fun hi => ?_⟩,
    fun s n ago idle bytes hl hloop => next_of_receive hl (if_pos (.inr hloop)),
    fun s k r hp hr hn hd => next_of_inCommit hp (s.replyExpired_late _ hr hn hd), fun s n r hp hr hg => ?_,
    fun s b i hu hup hr hf => ?_, fun s b hu hup hr => next_of_run hu (if_neg (by simp [hup, hr])),
    fun s t b ago bytes y hl ht hy hw => ?_, fun s b first bytes r hr hf hk hlong hb => s.takeTelegram_answer _ first hr hf hk hlong hb,
    fun s b r hp hr hn hd => next_of_inCommit hp (s.replyExpired_late _ hr hn hd), fun s r ago bytes hl hup hr hb => ?_,
    fun s r b hu hen hlo hsc hat => ?_, fun s k hp hup => next_of_sense hp (if_pos hup), fun s k hp => next_of_inCommit hp rfl,
    fun s b hp hup => next_of_sense hp (if_pos hup), fun s b hp => next_of_inCommit hp rfl,
    fun s u line hl hr ht => next_of_receive hl (if_neg (by simp [hr, ht])),
    fun s u hu hr hs => next_of_run hu (if_pos ⟨hr, hs⟩), fun s u hp hm hs he => ?_, fun s u rx hl => ?_, fun s u hl hm => ⟨?_, ?_⟩⟩
  · refine next_of_receive hl ?_
    dsimp only
    rw [if_neg (by simp [hup, hloop]), if_neg (by simp [hgap]), if_pos hi]
  · refine next_of_receive hl ?_
    dsimp only
    rw [if_neg (by simp [hup, hloop]), if_neg (by simp [hgap]), if_neg (by omega)]
  · refine next_of_inCommit hp ?_
    rw [hr]
    dsimp only
    rw [if_pos hg, State.judgeReply]
    dsimp only
    rw [hr]
  · refine next_of_run hu ?_
    dsimp only
    rw [if_neg (by simp [hup, hr]), hf]
  · refine next_of_receive hl ?_
    dsimp only
    rw [← ht, hy]
    exact if_pos hw
  · refine next_of_receive hl ?_
    dsimp only
    rw [if_neg (by simp [hup]), if_neg hb, hr]
    exact if_neg (by simp)
  · refine next_of_run hu ?_
    dsimp only
    rw [if_pos ⟨hen, hlo⟩, hsc, hat]
  · refine congrArg Host.Outcome.next ?_
    rw [s.receive_commit _ _ hp]
    unfold State.inCommit
    dsimp only
    rw [if_pos hp]
    exact if_pos ⟨hm, hs, he⟩
  · refine congrArg Host.Outcome.next ?_
    rw [s.receive_listening _ _ hl]
    exact State.inCommit_other _ _ (by rw [s.modemRx_phase]; exact State.listening_ne_commit hl)
  · refine next_of_receive hl ?_
    dsimp only
    rw [if_pos hm]
    rfl
  · refine next_of_receive hl ?_
    dsimp only
    rw [if_pos hm]
    rfl

end Sys2Proof.Machine
end

section
/-!
R272-R295: where the commands of the Ethernet ports and of the time unit complete.
-/
namespace Sys2Proof.Machine

/-! ### Ethernet -/

/-- Settles O15: each clause is its command evaluated under the conditions that it asks for. -/
theorem ethCommandsComplete : Obligations.EthCommandsComplete := by
  unfold Obligations.EthCommandsComplete
  refine ⟨fun s n bytes hl hen hlk => ?_, fun s n bytes hl hen hlk h60 h1518 htag hv hd => ?_, fun s n hl => next_of_receive hl rfl,
    fun s n quanta offs hl hen hlk hp hq => ?_, fun s hl => ?_, fun s n spd hl hen h2 h0 hsel => ?_, fun s hl hen hm ho => ?_,
    fun s n offs hu hp => next_of_run hu (if_pos hp)⟩
  · refine next_of_receive hl ?_
    dsimp only
    rw [if_neg (by simp [hen, hlk]), if_pos (.inl rfl)]
  · refine next_of_receive hl ?_
    dsimp only
    rw [if_neg (by simp [hen, hlk]), if_neg (by simp [htag]; omega), hv, hd, if_neg (by simp; omega), decide_eq_false htag]
    rfl
  · refine next_of_receive hl ?_
    rw [if_pos ⟨hen, hlk, hp⟩, if_neg hq]
  · exact next_of_receive hl rfl
  · refine next_of_receive hl ?_
    dsimp only
    rw [if_neg h2, hsel]
    exact if_pos ⟨hen, by simp [h0]⟩
  · refine next_of_receive hl ?_
    dsimp only
    rw [hm, ho]
    exact if_pos ⟨hen, rfl⟩

/-! ### Commits of the time unit's registers -/

/-- The commit of a write of one of the time unit's registers. -/
theorem State.hook_time (s : State) (p : Path) (g : Nat) {a : Nat} {n : Word} (m v : Word) (h : a / 65536 = R.TIM_CTL / 65536) :
    s.hook ⟨p, g, a, n, v⟩ m = s.hookTime p a m v := by
  unfold State.hook
  dsimp only
  rw [h, if_neg (by simp [R.TIM_CTL, R.BNK_CTL]), if_neg (by simp [R.TIM_CTL, R.QUE_CTL]), if_pos rfl]

theorem State.fieldCommitted_rearm (s : State) (p : Path) (hu : s.up = true) (hs : Regs.wf s.regs = true) :
    s.fieldCommitted p R.TIM_CTL_REARM 1 = s.rearm := by
  rw [s.fieldCommitted_always p hu (by decide +kernel)]
  refine (s.hook_time p _ _ _ (by decide)).trans ?_
  unfold State.hookTime
  rw [if_pos (by decide)]
  dsimp only
  rw [if_pos (by decide), show R.TIM_CTL_REARM.mask &&& ~~~ R.TIM_CTL_REARM.mask = 0 by decide, s.mergeWord_none _ _ hs]

theorem State.fieldCommitted_addend (s : State) (p : Path) (hi : BitVec 32) (hu : s.up = true)
    (hs : s.fieldStands p R.TIM_ADDHI_ADD hi.toNat) :
    s.fieldCommitted p R.TIM_ADDHI_ADD hi.toNat = s.setAddend (s.tim.addLo + hi.toNat * 2 ^ 32) := by
  rw [s.fieldCommitted_taken hu (by decide +kernel) hs]
  refine (s.hook_time p _ _ _ (by decide)).trans ?_
  unfold State.hookTime
  dsimp only
  rw [if_neg (by decide), if_neg (by decide), if_pos (by decide), s.newVal_field _ _ (by decide)]
  exact congrArg (fun n => s.setAddend (s.tim.addLo + n * 2 ^ 32)) (Nat.mod_eq_of_lt hi.isLt)

theorem State.committed_tsqKey (s : State) (p : Path) (key : BitVec 32) (hu : s.up = true)
    (hs : s.stands p (agentOf p 0) R.TIM_TSQKEY 0x3FFFFF#32 key) :
    s.committed p (agentOf p 0) R.TIM_TSQKEY 0x3FFFFF#32 key = s.tsqSearch (key.toNat % 2 ^ 22) := by
  rw [s.committed_taken hu (by decide +kernel) hs]
  refine (s.hook_time p _ _ _ (by decide)).trans ?_
  unfold State.hookTime
  dsimp only
  rw [if_neg (by decide), if_neg (by decide), if_neg (by decide), if_pos rfl,
    s.newVal_covered ⟨R.TIM_TSQKEY, 0, 22⟩ _ _ (by decide) (by decide)]
  simp [Fld.read, bitsOf]

theorem trgN_taken : ∀ k : Fin 4, takenWhole (R.TIM_TRGN k) (R.TIM_TRGN_NS k).mask = true := by decide +kernel

theorem trgN_block : ∀ k : Fin 4, R.TIM_TRGN k / 65536 = R.TIM_CTL / 65536 ∧ R.TIM_TRGN k ≠ R.TIM_CTL ∧ R.TIM_TRGN k ≠ R.TIM_ADDLO ∧
    R.TIM_TRGN k ≠ R.TIM_ADDHI ∧ R.TIM_TRGN k ≠ R.TIM_TSQKEY ∧ idxOf (R.TIM_TRGN 0) 16 4 (R.TIM_TRGN k) = some k.val ∧
    R.TIM_TRGN k ∉ [R.TIM_STEPS, R.PRT_STEPS, R.TIM_STEPNS, R.PRT_STEPNS] := by decide

theorem State.fieldCommitted_trigger (s : State) (p : Path) (k : Fin 4) (ns : BitVec 30) (hu : s.up = true)
    (hs : s.fieldStands p (R.TIM_TRGN_NS k) ns.toNat) : s.fieldCommitted p (R.TIM_TRGN_NS k) ns.toNat = s.armTrigger p k ns.toNat := by
  obtain ⟨hblk, h1, h2, h3, h4, hidx, -⟩ := trgN_block k
  rw [s.fieldCommitted_taken hu (trgN_taken k) hs]
  refine (s.hook_time p _ _ _ hblk).trans ?_
  unfold State.hookTime
  dsimp only [R.TIM_TRGN_NS]
  rw [if_neg h1, if_neg h2, if_neg h3, if_neg h4, hidx]
  dsimp only
  exact congrArg (s.armTrigger p k) ((s.newVal_field (R.TIM_TRGN_NS k) ns.toNat (Nat.le_of_ble_eq_true rfl)).trans (Nat.mod_eq_of_lt ns.isLt))

/-! ### Steps -/

/-- A write of the nanoseconds of a step that passes requests the step at once (R279). -/
theorem State.fieldWrite_step (s : State) (p : Path) (ns : BitVec 31) (h : fieldPassed s p R.TIM_STEPNS_NS ns.toNat) :
    s.fieldWrite p R.TIM_STEPNS_NS ns.toNat = s.requestStep (stepWho p) (sgn 31 ns.toNat) := by
  refine (s.wordWrite_passed p _ _ _ _ _ h).trans ?_
  unfold State.acceptWrite
  dsimp only
  rw [if_neg (by decide), if_neg (by decide), if_pos (by decide)]
  rw [show s.newVal ⟨R.TIM_STEPNS_NS.addr, 0, 31⟩ _ _ = _ from s.newVal_field R.TIM_STEPNS_NS ns.toNat (by decide)]
  exact congrArg (fun n => s.requestStep (stepWho p) (sgn 31 n)) (Nat.mod_eq_of_lt ns.isLt)

/-- A frame sent, dropped or held leaves the time unit as it is. -/
@[simp] theorem State.ethSend_tim (s : State) (n : Nat) (f : TxFrame) : (s.ethSend n f).tim = s.tim := by
  unfold State.ethSend
  split
  · rfl
  · split
    · rfl
    · dsimp only
      split
      · split <;> rfl
      · rfl

/-- Settles O16: each clause is its command evaluated under the conditions that it asks for. -/
theorem timeCommandsComplete : Obligations.TimeCommandsComplete := by
  unfold Obligations.TimeCommandsComplete
  refine ⟨fun s p ns h => next_of_receive h.1 (s.fieldWrite_step p ns h), fun s p h => next_of_field h (waits (by decide)),
    fun s p hu hs => s.fieldCommitted_rearm p hu hs, fun s p hi h => next_of_field h (waits (by decide)),
    fun s p hi hu hs => s.fieldCommitted_addend p hi hu hs, fun s m hp hm h2 => ?_,
    fun s m t2 hl hm hq h1 h2 => next_of_receive hl (if_pos ⟨hm, hq, h1, by rw [h2]; rfl⟩),
    fun s m t1 t2 t3 hl hm hreq hq h1 h2 h3 hg hgen => ?_, fun s m hp hsrc ht hw hn hu => ?_, fun s m hp hm ht => ⟨_, rfl, ?_⟩,
    fun s hp hsrc hm hd => next_of_inCommit hp (if_pos ⟨hsrc, hm, hd⟩), fun s off hu hm hi => next_of_run hu (if_pos ⟨hm, hi⟩),
    fun s hu hm hi => ⟨_, next_of_run hu (if_pos ⟨hm, hi⟩), by simp [State.putPtp], rfl⟩,
    fun s off hu hsrc hon hi => next_of_run hu (if_pos ⟨hsrc, hon, hi⟩),
    fun s p key h => next_of_receive h.1 (s.wordWrite_waits p _ _ _ _ _ h (waits (by decide))),
    fun s p key hu hs => s.committed_tsqKey p key hu hs, fun s p k ns h => next_of_field h (waits (trgN_block k).2.2.2.2.2.2),
    fun s p k ns hu hs => s.fieldCommitted_trigger p k ns hu hs, fun s k c0 c hu hat h1 h2 hm => ⟨_, next_of_run hu rfl, ?_⟩,
    fun s hu hen hv hz => next_of_run hu (if_pos ⟨hen, .inl hv, .inl hz⟩), fun s k off hp => ?_,
    fun s k off m l hp hl hk hm => ⟨fun hc => ?_, fun hc => ?_⟩, fun s hp hsrc hd => next_of_inCommit hp (if_pos ⟨hsrc, hd⟩),
    fun s hu ht hd => next_of_run hu (if_pos ⟨ht, .inl hd⟩)⟩
  · refine congrArg Host.Outcome.next ?_
    unfold State.receiveAt State.takeSync
    dsimp only
    rw [hp]
    dsimp only
    rw [if_neg Bool.false_ne_true, if_pos hm, if_pos h2, if_pos h2]
  · refine next_of_receive hl ?_
    dsimp only
    rw [if_pos ⟨hm, hreq, hq⟩, h1, h2, h3]
    exact if_pos ⟨hg, hgen⟩
  · refine next_of_sense hp ?_
    dsimp only
    rw [if_pos ⟨hsrc, ht⟩, hw, hn, hu]
    exact if_pos rfl
  · refine congrArg Host.Outcome.next ?_
    unfold State.receiveAt State.answerDelay
    dsimp only
    rw [hp]
    dsimp only
    rw [if_neg Bool.false_ne_true, if_pos ⟨hm, ht⟩]
  · dsimp only
    rw [hat]
    dsimp only
    rw [if_pos ⟨h1, h2⟩, if_neg (by omega)]
    exact ⟨rfl, rfl⟩
  · refine congrArg Host.Outcome.next ?_
    unfold State.receiveAt
    dsimp only
    rcases hp with hp | hp
    · rw [hp]
      rfl
    · rw [hp]
  · refine congrArg Host.Outcome.next ?_
    unfold State.receiveAt State.takeEdge
    dsimp only
    rw [hp, hl]
    exact ((if_pos (.inr hm)).trans (if_neg (by omega))).trans (if_pos hc)
  · refine congrArg Host.Outcome.next ?_
    unfold State.receiveAt State.takeEdge
    dsimp only
    rw [hp, hl]
    exact ((if_pos (.inr hm)).trans (if_neg (by omega))).trans (if_neg (Bool.eq_false_iff.1 hc))

end Sys2Proof.Machine
end

section
/-!
R299-R328, R367, R520: where the commands of the head-end protocol and the requests of the head end complete.
-/
namespace Sys2Proof.Machine

/-! ### Sessions -/

/-- A fold of steps that leave a part of the state as it is leaves it as it is. -/
theorem State.foldl_keeps {α β : Type} (g : State → β) {f : State → α → State} (hf : ∀ t x, g (f t x) = g t) (l : List α) (s : State) :
    g (l.foldl f s) = g s := by
  induction l generalizing s with
  | nil => rfl
  | cons x l ih => exact (ih _).trans (hf s x)

@[simp] theorem State.uncorrectable_sup (s : State) (line : Nat) : (s.uncorrectable line).sup = s.sup := by
  unfold State.uncorrectable
  dsimp only
  split <;> simp

@[simp] theorem State.checkLine_sup (s : State) (line err : Nat) : (s.checkLine line err).2.sup = s.sup := by
  unfold State.checkLine
  dsimp only
  split
  · rfl
  · split
    · rfl
    · split <;> simp

@[simp] theorem State.touch_sup (s : State) (a n : Nat) : (s.touch a n).sup = s.sup := by
  refine State.foldl_keeps State.sup (fun t line => ?_) _ s
  unfold State.touchLine
  dsimp only
  split
  · exact State.checkLine_sup _ _ _
  · split
    · simp [State.isolationFault]
    · rfl

theorem State.syncPage_sup (s : State) (p : Nat) : (s.syncPage p).sup = s.sup := by simp [State.syncPage]

@[simp] theorem State.putPage_sup (s : State) (p : Nat) (g : Page) : (s.putPage p g).sup = s.sup := State.syncPage_sup _ p

@[simp] theorem State.loadPage_sup (s : State) (p : Nat) (key salt : List Byte) : (s.loadPage p key salt).sup = s.sup := by
  unfold State.loadPage
  dsimp only
  split <;> exact State.putPage_sup _ _ _

@[simp] theorem State.setTag_sup (s : State) (p : Nat) (tag : List Byte) : (s.setTag p tag).sup = s.sup := by
  simp [State.setTag]

@[simp] theorem State.setHold_sup (s : State) (p : Nat) (b : List Byte) : (s.setHold p b).sup = s.sup := by
  simp [State.setHold]

@[simp] theorem State.showIssued_sup (s : State) (p : Nat) : (s.showIssued p).sup = s.sup := by
  unfold State.showIssued
  dsimp only
  split <;> simp

@[simp] theorem State.endJob_sup (s : State) (p res : Nat) : (s.endJob p res).sup = s.sup := by
  unfold State.endJob
  dsimp only
  split <;> split <;> simp

@[simp] theorem State.forcedTag_sup (s : State) (p : Nat) : (s.forcedTag p).2.sup = s.sup := by
  unfold State.forcedTag
  split <;> rfl

@[simp] theorem State.openJob_sup (s : State) (u : PUnit) : (s.openJob u).2.sup = s.sup := by
  unfold State.openJob
  split
  · rfl
  · split
    · split
      · rfl
      · dsimp only
        split
        · rfl
        · split <;> simp
    · split <;> rfl

@[simp] theorem State.unitCorr_sup (s : State) (pun : Nat) (errs : List Nat) : (s.unitCorr pun errs).sup = s.sup := by
  unfold State.unitCorr
  dsimp only
  split <;> rfl

@[simp] theorem State.readPun_sup (s : State) (pun : Nat) (u : PUnit) : (s.readPun pun u).2.sup = s.sup := by
  unfold State.readPun
  dsimp only
  split <;> simp [State.unitLost, State.sendRead, State.nandCmd]

@[simp] theorem State.readLuns_sup (s : State) (l : List Nat) : (s.readLuns l).sup = s.sup := by
  refine State.foldl_keeps State.sup (fun t n => ?_) l s
  unfold State.readLun
  dsimp only
  split <;> simp

/-- Noting which events and records have gone out leaves the sessions as they are (R417). -/
theorem State.lsnSeen_evSeen_sup (s : State) (l : List EvRec) (n : List Nat) : ((s.evSeen l).lsnSeen n).sup = s.sup := by
  unfold State.lsnSeen State.evSeen
  dsimp only
  rw [State.readLuns_sup, State.readLuns_sup, State.foldl_keeps State.sup (fun t r => t.touch_sup _ 32)]

/-- A session is put into the sessions that the head-end protocol's state holds. -/
theorem State.putSess_sess_congr {s t : State} (h : t.sup = s.sup) (x : Sess) : (t.putSess x).sup.sess = (s.putSess x).sup.sess := by
  unfold State.putSess
  rw [h]

/-- Settles O17: each clause is its command evaluated on the message, the session or the timer that it asks for. -/
theorem sessionCommandsComplete : Obligations.SessionCommandsComplete := by
  unfold Obligations.SessionCommandsComplete
  refine ⟨fun s hu hon hup hh hst => ?_, fun s t d m hl ht hr => ?_, fun s t d m hl ht => ?_, fun s t d m hl ht hc => ?_,
    fun s t d m k body x hl ht hc hx he h1 hsrv hmax => ?_, fun s h hp hh hon hw hseen => ?_, fun s x hp hx => ?_, fun s t d m hl ht => ?_,
    fun s x hu hx hne => ?_, fun s x hp hx hr ho hi hseen => ?_, fun s t d m k body x hl ht hc h24 h1 h2 hx hup => ?_,
    fun s t d m hl ht hc => ?_, fun s x hu hx => ?_, fun s hu => next_of_run hu rfl, fun s x hu hx hne => ?_,
    fun s t d m k body x hl ht hc hx hlen h1 h32 hz he ha => ?_, fun s t d m hl ht hc => ?_, fun s x hp hx => ?_,
    fun s x hp hx hon hh ho => ?_, fun s x hp hx => ?_⟩
  · refine next_of_run hu ?_
    dsimp only
    rw [if_pos ⟨hon, by simp [hup], by simp [hh]⟩, if_neg (fun h => hst h.1)]
  · refine next_of_receive hl ?_
    dsimp only
    rw [ht]
    exact if_pos hr
  · refine next_of_receive hl ?_
    dsimp only
    rw [ht]
  · refine next_of_receive hl ?_
    dsimp only
    rw [ht]
    dsimp only
    rw [hc]
  · refine next_of_receive hl ?_
    dsimp only
    rw [ht]
    dsimp only
    rw [hc]
    dsimp only
    rw [hx]
    dsimp only
    rw [if_neg (by simp [h1, he]), hsrv, if_neg (by simpa using hmax.ne')]
    rfl
  · refine next_of_inCommit hp ?_
    rw [hh]
    exact if_pos ⟨hon, hw, hseen⟩
  · refine next_of_inCommit hp ?_
    rw [hx]
  · refine next_of_receive hl ?_
    dsimp only
    rw [ht]
  · refine ⟨{ x with
      recs := x.recs ++ s.sendable.take (x.window - x.recs.length), rtoAt := if x.recs.isEmpty then s.now else x.rtoAt },
      _, rfl, rfl, next_of_run hu ?_⟩
    rw [hx]
    exact if_neg (by simpa using hne)
  · refine next_of_inCommit hp ?_
    rw [hx]
    dsimp only
    rw [hseen, decide_eq_true (p := x.recs ≠ [] ∧ _) ⟨hr, ho⟩, decide_eq_false (p := x.items ≠ [] ∧ _) (fun h => h.1 hi)]
    rfl
  · refine next_of_receive hl ?_
    dsimp only
    rw [ht]
    dsimp only
    rw [hc]
    dsimp only
    rw [if_neg (by omega), hx]
    exact if_pos hup
  · refine next_of_receive hl ?_
    dsimp only
    rw [ht]
    dsimp only
    rw [hc]
  · refine next_of_run hu ?_
    rw [hx]
  · refine ⟨?t, ?y, next_of_run hu ?_, ?_, ?_⟩
    rotate_left 2
    · rw [hx]
      dsimp only
      rw [if_neg (by simpa using hne)]
    · exact State.putSess_sess_congr (State.lsnSeen_evSeen_sup s _ _) _
    · rfl
  · refine next_of_receive hl ?_
    dsimp only
    rw [ht]
    dsimp only
    rw [hc]
    dsimp only
    rw [hx]
    dsimp only
    rw [if_neg (by omega), if_neg (by simp [he]), if_pos ha]
  · refine next_of_receive hl ?_
    dsimp only
    rw [ht]
    dsimp only
    rw [hc]
  · refine next_of_inCommit hp ?_
    rw [hx]
  · refine next_of_inCommit hp ?_
    rw [hx]
    exact if_pos ⟨hon, by simp [hh], ho⟩
  · refine next_of_inCommit hp ?_
    rw [hx]

/-! ### Requests of the head end -/

/-- With an empty receive buffer and no datagram of its own a command finds no message. -/
theorem State.supTake_none (s : State) (p : List Byte → Bool) (h : s.sup.inbox = []) : s.supTake none p = (none, s) := by
  unfold State.supTake
  dsimp only
  rw [h]
  rfl

/-- While no request runs the one of the lowest identifier is carried out, when the command is its own (R322). -/
theorem State.runNext_first (s : State) {p : Req → Bool} (act : Req → State → State) {r : Req} {rest : List Req} (hn : s.reqRuns = false)
    (hr : s.sup.reqs = r :: rest) (hp : p r = true) : s.runNext p act = act r s := by
  unfold State.runNext
  rw [hn, hr]
  exact if_pos hp

/-- A request that waits as the one of the lowest identifier is carried out by the command of its type. -/
theorem State.request_waiting (s : State) (ty : Nat) {p : Req → Bool} (act : Req → State → State) {r : Req} {rest : List Req}
    (hi : s.sup.inbox = []) (hn : s.reqRuns = false) (hr : s.sup.reqs = r :: rest) (ht : r.ty = ty) (hp : p r = true) :
    s.request none ty p act = act r s := by
  unfold State.request
  dsimp only
  rw [s.supTake_none _ hi]
  exact s.runNext_first act hn hr (by simp [ht, hp])

/-- The same for TEST, whose operation stands in the request (R520). -/
theorem State.testRequest_waiting (s : State) {p : Nat → Bool} {r : Req} {rest : List Req} (hi : s.sup.inbox = [])
    (hn : s.reqRuns = false) (hr : s.sup.reqs = r :: rest) (ht : r.ty = 11) (hp : p (leAt r.body 22 1) = true) :
    s.testRequest none p = State.runTest r s := by
  unfold State.testRequest
  dsimp only
  rw [s.supTake_none _ hi]
  exact s.runNext_first _ hn hr (by simp [ht, hp])

/-- Settles O18: a message that arrives is taken as a request, and one that waits alone is carried out. -/
theorem requestCommandsComplete : Obligations.RequestCommandsComplete := by
  unfold Obligations.RequestCommandsComplete
  refine ⟨fun s t d m hl ht => ?_, fun s r rest hl hi hn hr => ⟨fun h => ?_, fun h hd => ?_, fun h => ?_, fun h => ?_, fun h => ?_,
    fun h hd => ?_, fun h h2 => ?_, fun h h2 => ?_⟩, fun s hp hw hf ho => ?_⟩
  · refine next_of_receive hl ?_
    unfold State.request
    rw [ht]
  · exact next_of_receive hl (s.request_waiting 4 _ hi hn hr h rfl)
  · exact next_of_receive hl (s.request_waiting 5 _ hi hn hr h (by simp [hd]))
  · exact next_of_receive hl (s.request_waiting 6 _ hi hn hr h rfl)
  · exact next_of_receive hl (s.request_waiting 7 _ hi hn hr h rfl)
  · exact next_of_receive hl (s.request_waiting 8 _ hi hn hr h rfl)
  · exact next_of_receive hl (s.request_waiting 9 _ hi hn hr h (by simp [hd]))
  · exact next_of_receive hl (s.testRequest_waiting hi hn hr h (by simp [h2]))
  · exact next_of_receive hl (s.testRequest_waiting hi hn hr h (by simp [h2]))
  · refine next_of_phase hp (by decide) ?_
    unfold State.inCommit
    rw [if_pos hp]
    refine (if_pos hw).trans ?_
    unfold State.closeWindow
    rw [if_pos hp]
    exact if_pos ⟨hf, ho⟩

end Sys2Proof.Machine
end

section
/-!
R338-R351, R365-R374, R380: where the commands of the cipher engine and those on keys, tamper and entropy complete.
-/
namespace Sys2Proof.Machine

/-! ### Encodings that are not reserved -/

/-- The bits of `m` hold the field `f`, whose register no block bars, and `n` is an encoding of `f` that is not reserved; no other field
of the register has reserved encodings. -/
def legalAs (f : Fld) (m : Word) (n : Nat) : Bool :=
  barFree f.addr && decide (f.lo + f.w ≤ 32) && decide (f.mask &&& m = f.mask) && match rowAt f.addr with
  | some r => r.flds.all (fun g => g.legal.isEmpty || (decide (g.lo = f.lo) && decide (g.w = f.w) && g.isLegal n))
  | none => false

/-- The commit of a write of such an encoding is what its block does with it. -/
theorem State.committed_legal (s : State) (p : Path) (g : Nat) {f : Fld} {m v : Word} {n : Nat} (hu : s.up = true)
    (h : (takenWhole f.addr m && legalAs f m n) = true) (hv : f.read v = n) :
    s.committed p g f.addr m v = s.hook ⟨p, g, f.addr, m, v⟩ m := by
  unfold legalAs at h
  simp only [Bool.and_eq_true, decide_eq_true_eq] at h
  obtain ⟨ht, ⟨⟨hb, hin⟩, hm⟩, hl⟩ := h
  refine s.committed_taken hu ht (s.stands_free p g hb fun r hr k hk => ?_)
  rw [hr] at hl
  have hkl := List.all_eq_true.1 hl k hk
  simp only [Bool.or_eq_true, Bool.and_eq_true, decide_eq_true_eq] at hkl
  rcases hkl with he | ⟨⟨hlo, hw⟩, hlegal⟩
  · exact .inl he
  · refine .inr (.inr (.inr ?_))
    rw [hlo, hw]
    exact ⟨hin, hm, hv ▸ hlegal⟩

/-! ### Commands on pages -/

theorem cipCmd_taken : ∀ (page : Fin 256) (op : Fin 4),
    (takenWhole (R.CIP_CMD page) 7#32 && legalAs (R.CIP_CMD_OP page) 7#32 (op.val + 1)) = true := by decide +kernel

theorem cipCmd_read (page : Fin 256) (op : Fin 4) : (R.CIP_CMD_OP page).read (BitVec.ofNat 32 (op.val + 1)) = op.val + 1 :=
  (show ∀ o : Fin 4, Fld.read ⟨0, 0, 3⟩ (BitVec.ofNat 32 (o.val + 1)) = o.val + 1 by decide) op

theorem cipCmd_page (page : Fin 256) : R.CIP_CMD page / 256 % 256 = page := by
  unfold R.CIP_CMD
  omega

theorem cipCmd_inPages (page : Fin 256) : inPages (R.CIP_CMD page) = true := by
  refine decide_eq_true ?_
  unfold R.CIP_CMD
  omega

/-- The commit of a command of a page reaches the page with its operation (R340). -/
theorem State.hookPage_cmd (s : State) (page : Fin 256) (op : Fin 4) :
    s.hookPage (R.CIP_CMD page) 7#32 (BitVec.ofNat 32 (op.val + 1)) =
      if op.val + 1 = 2 then s.zeroPage page
      else if (s.page page).busy then s.bump R.CIP_CNT_BUSYERR
      else if op.val + 1 = 1 then s.startJob page
      else if op.val + 1 = 3 then s.settleJob page true
      else s.settleJob page false := by
  have hop : s.newVal (R.CIP_CMD_OP page) 7#32 (BitVec.ofNat 32 (op.val + 1)) = op.val + 1 := by
    rw [s.newVal_covered (R.CIP_CMD_OP page) _ _ (Nat.le_of_ble_eq_true rfl) (by simp [Fld.mask, R.CIP_CMD_OP]), cipCmd_read]
  unfold State.hookPage
  dsimp only
  rw [cipCmd_page, if_pos rfl, hop]
  fin_cases op <;> rfl

/-- A command on a page by an owner on a bus path waits for its commit. -/
theorem State.pageCommand_waits (s : State) {agent : Fin 32} {page : Fin 256} {p : Path} {op : Nat} (i : Instr) (f : State → State)
    (hb : busPath agent = some p) (h : writePassed s p agent (R.CIP_CMD page) 7#32 (BitVec.ofNat 32 op) 7#32) :
    s.pageCommand agent page op i f = s.waiting p agent (R.CIP_CMD page) 7#32 (BitVec.ofNat 32 op) := by
  obtain ⟨hl, -⟩ := id h
  unfold State.pageCommand
  rw [hb]
  dsimp only
  rw [s.receive_listening _ _ hl]
  refine s.wordWrite_waits p agent _ _ _ _ h (waits fun hm => ?_)
  have hin := cipCmd_inPages page
  revert hm hin
  generalize R.CIP_CMD page = a
  simp only [List.mem_cons, List.not_mem_nil, or_false]
  rintro (rfl | rfl | rfl | rfl) <;> decide

/-- In a commit phase a command on a page by an owner on a bus path waits for the next tick (R38). -/
theorem State.pageCommand_late (s : State) {agent : Fin 32} {page : Fin 256} {p : Path} (op : Nat) (i : Instr) (f : State → State)
    (hb : busPath agent = some p) (hp : s.phase = .commit) : s.pageCommand agent page op i f = { s with lateIn := s.lateIn ++ [i] } := by
  unfold State.pageCommand
  rw [hb]
  exact s.receive_commit _ _ hp

/-- A command on a page by an owner with a command port acts at once (R336). -/
theorem State.pageCommand_owner (s : State) {agent : Fin 32} {page : Fin 256} (op : Nat) (i : Instr) (f : State → State) (hu : s.up = true)
    (hb : busPath agent = none) (h0 : agent.val ≠ 0) (ho : s.pageOwner page = agent) : s.pageCommand agent page op i f = f s := by
  unfold State.pageCommand
  rw [hb]
  dsimp only
  rw [s.run_up _ hu]
  exact if_pos ⟨h0, ho⟩

/-- Settles O19: an owner's command acts at once or waits for its commit, and the commit carries it out. -/
theorem cipherCommandsComplete : Obligations.CipherCommandsComplete := by
  unfold Obligations.CipherCommandsComplete
  refine ⟨fun s agent page regs hu hb h0 ho => ?_, fun s agent page regs p op c hb hc => ?_, fun s p agent page hu => ?_,
    fun s page hu hb => next_of_run hu (if_pos hb), fun s slot hu hv hm => next_of_run hu (if_pos ⟨hv, hm⟩)⟩
  · have own : ∀ op i f, (Host.Outcome.next (s.pageCommand agent page op i f) : Out) = .next (f s) := fun op i f =>
      congrArg Host.Outcome.next (s.pageCommand_owner op i f hu hb h0 ho)
    exact ⟨own _ _ _, own _ _ _, own _ _ _, own _ _ _⟩
  · have cmd : ∃ f, exec c s = .next (s.pageCommand agent page op c f) := by
      simp only [List.mem_cons, List.not_mem_nil, or_false, Prod.mk.injEq] at hc
      rcases hc with ⟨rfl, rfl⟩ | ⟨rfl, rfl⟩ | ⟨rfl, rfl⟩ | ⟨rfl, rfl⟩ <;> exact ⟨_, rfl⟩
    obtain ⟨f, hf⟩ := cmd
    rw [hf]
    exact ⟨fun h => congrArg _ (s.pageCommand_waits c f hb h), fun h => congrArg _ (s.pageCommand_late op c f hb h)⟩
  · have commits := fun op : Fin 4 => ((s.committed_legal p agent hu (cipCmd_taken page op) (cipCmd_read page op)).trans
      (s.hook_page _ _ (cipCmd_inPages page))).trans (s.hookPage_cmd page op)
    refine ⟨commits 1, fun hb => ⟨(commits 0).trans ?_, (commits 2).trans ?_, (commits 3).trans ?_⟩⟩
    all_goals
      rw [hb]
      rfl

/-! ### Key loads and KEY_UPDATE -/

/-- The word of KEY_LDCMD gives back the page and the purpose that it was made of. -/
theorem keyLdCmd_read {page purpose : Nat} (hg : page < 256) (hp : purpose < 16) :
    R.KEY_LDCMD_PAGE.read (BitVec.ofNat 32 (page + 256 * purpose)) = page ∧
    R.KEY_LDCMD_PURPOSE.read (BitVec.ofNat 32 (page + 256 * purpose)) = purpose := by
  have hn : (BitVec.ofNat 32 (page + 256 * purpose)).toNat = page + 256 * purpose := Nat.mod_eq_of_lt (by omega)
  unfold Fld.read bitsOf
  rw [hn]
  simp only [R.KEY_LDCMD_PAGE, R.KEY_LDCMD_PURPOSE]
  omega

/-- The commit of a write of KEY_LDCMD asks for a key load in the next tick (R365). -/
theorem State.committed_keyLdCmd (s : State) (p : Path) (agent : Nat) {page purpose : Nat} (hu : s.up = true) (hg : page < 256)
    (hr : purpose < 16) (hs : s.stands p agent R.KEY_LDCMD 0xFFF#32 (BitVec.ofNat 32 (page + 256 * purpose))) :
    s.committed p agent R.KEY_LDCMD 0xFFF#32 (BitVec.ofNat 32 (page + 256 * purpose)) = { s with
      sec := { s.sec with loads := s.sec.loads ++ [⟨agent, page, purpose, s.get R.KEY_LDGEN_GEN⟩] } } := by
  rw [s.committed_taken hu (by decide +kernel) hs]
  refine (s.hook_command _ _ (show commandBlock R.KEY_LDCMD = true by decide)).trans ?_
  obtain ⟨hpage, hpurpose⟩ := keyLdCmd_read hg hr
  unfold State.hookCommand
  dsimp only
  iterate 4 rw [if_neg (by decide)]
  rw [if_pos rfl, if_pos (by decide), s.newVal_covered R.KEY_LDCMD_PAGE _ _ (by decide) (by decide), hpage,
    s.newVal_covered R.KEY_LDCMD_PURPOSE _ _ (by decide) (by decide), hpurpose]

/-- An accepted message is applied in the commit phase by the command of its OP (R370). -/
theorem State.kupApply_accepted (s : State) {op : Nat} {src : KupSrc} {m : List Byte} (act : List Byte → List Byte → State → State)
    (hp : s.phase = .commit) (ha : s.sec.kup.accepted = some (src, m)) (ho : leAt m 1 1 = op) :
    s.kupApply op act = (act m s.sec.kup.item (s.kupCommit m)).kupDone src := by
  unfold State.kupApply State.kupReady
  rw [if_pos hp, ha]
  dsimp only
  rw [if_pos ho]

/-! ### Tamper inputs -/

/-- A sample of a tamper input counts in a capture phase, and while the main clusters are held (R372). -/
theorem execTamperInput_seen {s : State} {n : Fin 8} (hd : s.isl.dead = false) (hp : s.phase = .capture ∨ s.phase = .held)
    (he : s.on (R.TMP_CFG_EN n) = true) (hl : s.on (R.TMP_CFG_POL n) = true)
    (hf : s.get (R.TMP_CFG_FILT n) ≤ SMap.get zN s.isl.tampRun n + 1) :
    exec (.tamperInput n true) s = .next (
      if s.on (R.TMP_CFG_ERASE n) = true ∧ (SMap.get zB s.isl.erasing n = false ∨ s.isl.keys ≠ {}) then
        (s.noteTamper n (SMap.get zN s.isl.tampRun n + 1) true (s.on (R.TMP_CFG_ERASE n))).eraseKeys
      else s.noteTamper n (SMap.get zN s.isl.tampRun n + 1) true (s.on (R.TMP_CFG_ERASE n))) := by
  have seen : ∀ f : State → State, (if s.up then s.sense (.tamperInput n true) else fun f => f s) f = f s := by
    intro f
    unfold State.up State.sense
    rcases hp with h | h <;> rw [h] <;> rfl
  refine congrArg Host.Outcome.next ?_
  unfold State.islRun
  rw [if_neg (by simp [hd])]
  refine (seen _).trans ?_
  simp [he, hl, hf]

/-- Settles O20: each clause is its command evaluated under the conditions that it asks for. -/
theorem keyCommandsComplete : Obligations.KeyCommandsComplete := by
  unfold Obligations.KeyCommandsComplete
  refine ⟨fun s agent page purpose gen hu ha => ?_, fun s agent page purpose gen p hb h => ?_,
    fun s agent page purpose p hu hg hr hs => s.committed_keyLdCmd p agent hu hg hr hs, fun s x hx => ?_,
    fun s src m hp ha => ⟨fun ho hd => ?_, fun ho => ?_, fun ho => ?_⟩, fun s t hp ht hw => ?_, fun s n hd hp he hl hf hz => ?_,
    fun s n hd hp he hl hf hz hw => ?_, fun s src hd he hb => ?_, fun s hu => ⟨_, next_of_run hu rfl, rfl⟩,
    fun s hu => ⟨fun hi => ?_, fun hi => ?_⟩⟩
  · refine congrArg Host.Outcome.next ?_
    rw [if_neg (by omega), if_neg (by omega), s.run_up _ hu]
    rfl
  · refine congrArg Host.Outcome.next ?_
    obtain ⟨hl, -⟩ := id h
    unfold busPath at hb
    split at hb
    · next hfw =>
      cases hb
      rw [if_pos hfw, s.receive_listening _ _ hl]
      exact s.wordWrite_waits _ _ _ _ _ _ h (waits (by decide))
    · split at hb
      · next hfw ht =>
        cases hb
        rw [if_neg hfw, if_pos ht, s.receive_listening _ _ hl]
        rw [ht] at h ⊢
        exact s.wordWrite_waits _ _ _ _ _ _ h (waits (by decide))
      · cases hb
  · unfold State.runLoads
    rw [hx]
    rfl
  · refine next_of_phase hp (by decide) ((s.kupApply_accepted _ hp ha ho).trans ?_)
    dsimp only
    rw [if_neg (by simp [hd])]
  · exact next_of_phase hp (by decide) (s.kupApply_accepted _ hp ha ho)
  · exact next_of_phase hp (by decide) (s.kupApply_accepted _ hp ha ho)
  · refine next_of_inCommit hp ?_
    rw [ht]
    exact if_pos hw
  · rw [execTamperInput_seen hd hp he hl hf, hz]
    rfl
  · rw [execTamperInput_seen hd hp he hl hf, hz, if_pos ⟨rfl, .inl hw⟩]
    rfl
  · refine congrArg Host.Outcome.next ?_
    unfold State.islRun
    rw [if_neg (by simp [hd])]
    exact if_pos ⟨he, hb⟩
  · refine next_of_run hu (if_neg ?_)
    simp [hi]
  · refine ⟨_, rfl, next_of_run hu (if_pos ?_)⟩
    simp [hi]

end Sys2Proof.Machine
end

section
/-!
R386-R398: where the commands of the charging outlets complete.
-/
namespace Sys2Proof.Machine

/-! ### Outlets -/

/-- A closed contactor that is forced open in the tick of its close has not yet closed (R409). -/
theorem State.forceOpen_closing (s : State) (o : Nat) (hk : s.on (R.CHG_STAT_K o) = true) (ha : (s.outlet o).kAt = some s.now) :
    s.forceOpen o = s.undoClose o := by
  unfold State.forceOpen
  rw [if_pos hk, if_pos ha]

/-- A contactor that has closed is dropped at once, not at the tick (R394). -/
theorem State.forceOpen_closed (s : State) (o : Nat) (hk : s.on (R.CHG_STAT_K o) = true) (ha : (s.outlet o).kAt ≠ some s.now) :
    s.forceOpen o = (s.dropK o).send (chgPort o "K") [0#8] := by
  unfold State.forceOpen
  rw [if_pos hk, if_neg ha]

/-- A self-test that has its injected current is released without a further drive (R393). -/
theorem State.stopTest_injected (s : State) (o : Nat) {i : Int} (hi : (s.outlet o).inj = some i) :
    s.stopTest o = s.onOutlet o (fun x => { x with test := none, inj := none }) := by
  unfold State.stopTest
  dsimp only
  exact if_neg (by simp [hi])

/-- Settles O21: each clause is its command evaluated under the conditions that it asks for. -/
theorem outletCommandsComplete : Obligations.OutletCommandsComplete := by
  unfold Obligations.OutletCommandsComplete
  refine ⟨fun s o r cp hp he hc => ?_, fun s o r pp hl he ht hr hpp => ?_, fun s o r hl he ht hr hpp => ?_,
    fun s o hp hi hpass hst hrdy hlo hhi hsafe hk htet hchk hmir hvp => ?_,
    fun s o hp hi hpass hst hrdy hlo hhi hsafe hk htet hchk hvp => ?_, fun s o a hp hc ha => ?_, fun s o a hp hc ha => ?_,
    fun s o a hp hc ha hlk => ?_, fun s o hu => next_of_run hu rfl, fun s o hu he hi hpass ht hk => ?_, fun s o a i hu ht hi hbad => ?_,
    fun s o hu hk ha => ?_, fun s o hu hk ha => ⟨_, rfl, ?_⟩, fun s o x hu he => next_of_run hu (if_pos he),
    fun s n hu hn => ⟨fun hs => ?_, fun hs => ?_⟩, fun s o hu h3 h4 hcp => ?_⟩
  · refine next_of_sense hp ?_
    rw [hc]
    exact if_pos he
  · refine next_of_receive hl ?_
    rw [hr]
    dsimp only
    rw [if_pos ⟨he, ht⟩, if_neg (fun h => hpp h.1)]
  · refine next_of_receive hl ?_
    rw [hr]
    dsimp only
    rw [if_pos ⟨he, ht⟩, if_pos ⟨rfl, hpp⟩]
  · refine next_of_inCommit hp ?_
    dsimp only
    rw [if_pos ⟨hi, hpass, hst, hrdy, hlo, hhi, hsafe, hk, .inl htet, hchk⟩, if_neg (by simp [hmir, hvp])]
  · refine next_of_inCommit hp ?_
    dsimp only
    rw [if_pos ⟨hi, hpass, hst, hrdy, hlo, hhi, hsafe, hk, .inl htet, hchk⟩, if_pos (.inr hvp)]
  · refine next_of_inCommit hp ?_
    rw [hc]
    dsimp only
    rw [if_pos ha, if_pos rfl]
  · refine next_of_inCommit hp ?_
    rw [hc]
    dsimp only
    rw [if_pos ha, if_neg Bool.false_ne_true]
  · refine next_of_inCommit hp ?_
    rw [hc]
    exact if_pos ⟨ha, hlk⟩
  · refine next_of_run hu ?_
    dsimp only
    exact if_pos ⟨he, by simp [hi, hpass], ht, hk⟩
  · refine next_of_run hu ?_
    dsimp only
    rw [ht, hi]
    dsimp only
    rw [if_pos (.inl (decide_eq_false (by omega))), s.stopTest_injected o hi]
  · refine next_of_run hu ?_
    dsimp only
    rw [if_pos hk, s.forceOpen_closing o hk ha, if_pos (decide_eq_true ha)]
  · refine next_of_run hu ?_
    dsimp only
    rw [if_pos hk, s.forceOpen_closed o hk ha, if_neg (by simp [ha])]
  · refine next_of_run hu ((if_pos (by simp [hs, hn])).trans ?_)
    unfold State.offerTick
    rw [hs, if_pos (by rfl)]
  · refine next_of_run hu ((if_pos (by simp [hs, hn])).trans ?_)
    unfold State.offerTick
    rw [hs, if_neg (by simp)]
  · refine next_of_run hu ?_
    dsimp only
    exact if_pos ⟨h3, h4, .inl hcp⟩

end Sys2Proof.Machine
end

section
/-!
R399-R408: where the commands on sessions and accounts complete.
-/
namespace Sys2Proof.Machine

/-! ### Writes of CHG_AUTH -/

theorem chgAuth_taken : ∀ (o : Fin 2) (op : Fin 5),
    (takenWhole (R.CHG_AUTH o) 0xFFFF#32 && legalAs (R.CHG_AUTH_OP o) 0xFFFF#32 (op.val + 1)) = true := by decide +kernel

/-- What the address of CHG_AUTHo is and is not. -/
theorem chgAuth_place : ∀ o : Fin 2, commandBlock (R.CHG_AUTH o) = true ∧ R.CHG_AUTH o ≠ R.DIR_CMD ∧ R.CHG_AUTH o ≠ R.CHG_ACMD ∧
    (R.CHG_AUTH o = R.CHG_AUTH 0 ∨ R.CHG_AUTH o = R.CHG_AUTH 1) ∧ (if R.CHG_AUTH o = R.CHG_AUTH 0 then 0 else 1) = o.val ∧
    R.CHG_AUTH o ∉ [R.TIM_STEPS, R.PRT_STEPS, R.TIM_STEPNS, R.PRT_STEPNS] := by decide

/-- The word of CHG_AUTHo gives back the operation and the account that it was made of. -/
theorem chgAuth_read (o : Nat) {v op : Nat} (hv : v < 4096) (ho : op < 16) :
    (R.CHG_AUTH_OP o).read (BitVec.ofNat 32 (v + 4096 * op)) = op ∧
    (R.CHG_AUTH_ACCT o).read (BitVec.ofNat 32 (v + 4096 * op)) = v := by
  have hn : (BitVec.ofNat 32 (v + 4096 * op)).toNat = v + 4096 * op := Nat.mod_eq_of_lt (by omega)
  unfold Fld.read bitsOf
  rw [hn]
  simp only [R.CHG_AUTH_OP, R.CHG_AUTH_ACCT]
  omega

theorem chgAuth_mask (o : Nat) : (R.CHG_AUTH_OP o).mask &&& 0xFFFF#32 = (R.CHG_AUTH_OP o).mask := by
  unfold Fld.mask R.CHG_AUTH_OP
  dsimp only
  decide

/-- The commit of a write of a register that is CHG_AUTHo (R410). -/
theorem State.hookCommand_auth (s : State) (p : Path) (g : Nat) {a o : Nat} (m v : Word) (hdir : a ≠ R.DIR_CMD) (hacmd : a ≠ R.CHG_ACMD)
    (hauth : a = R.CHG_AUTH 0 ∨ a = R.CHG_AUTH 1) (ho : (if a = R.CHG_AUTH 0 then 0 else 1) = o) :
    s.hookCommand p g a m v = s.authOp o (s.newVal (R.CHG_AUTH_OP o) m v) (s.newVal (R.CHG_AUTH_ACCT o) m v) := by
  unfold State.hookCommand
  dsimp only
  rw [if_neg hdir, if_neg hacmd, if_pos hauth, ho]

/-- The commit of a write of CHG_AUTHo carries out its operation (R410). -/
theorem State.committed_chgAuth (s : State) (p : Path) (g : Nat) (o : Fin 2) (op : Fin 5) {v : Nat} (hu : s.up = true) (hv : v < 4096) :
    s.committed p g (R.CHG_AUTH o) 0xFFFF#32 (BitVec.ofNat 32 (v + 4096 * (op.val + 1))) = s.authOp o (op.val + 1) v := by
  obtain ⟨hop, hacct⟩ := chgAuth_read o hv (show op.val + 1 < 16 by omega)
  obtain ⟨hblk, hdir, hacmd, hauth, ho, -⟩ := chgAuth_place o
  have ho16 : s.newVal (R.CHG_AUTH_OP o) 0xFFFF#32 (BitVec.ofNat 32 (v + 4096 * (op.val + 1))) = op.val + 1 :=
    (s.newVal_covered (R.CHG_AUTH_OP o) _ _ (by simp [R.CHG_AUTH_OP]) (chgAuth_mask o)).trans hop
  have hv16 : s.newVal (R.CHG_AUTH_ACCT o) 0xFFFF#32 (BitVec.ofNat 32 (v + 4096 * (op.val + 1))) = v :=
    (s.newVal_covered (R.CHG_AUTH_ACCT o) _ _ (by simp [R.CHG_AUTH_ACCT]) (by simp [Fld.mask, R.CHG_AUTH_ACCT])).trans hacct
  refine (s.committed_legal p g hu (chgAuth_taken o op) hop).trans ((s.hook_command _ _ hblk).trans ?_)
  exact (s.hookCommand_auth p g _ _ hdir hacmd hauth ho).trans (by rw [ho16, hv16])

/-- A write of CHG_AUTHo that passes waits for its commit. -/
theorem next_of_authWrite {s : State} {i : Instr} {p : Path} {o : Fin 2} {op v : Nat}
    (h : writePassed s p (agentOf p 0) (R.CHG_AUTH o) 0xFFFF#32 (BitVec.ofNat 32 (v + 4096 * op)) 0xFFFF#32) :
    (Host.Outcome.next (s.receive i (fun s => s.authWrite p o op v)) : Out) =
      .next (s.waiting p (agentOf p 0) (R.CHG_AUTH o) 0xFFFF#32 (BitVec.ofNat 32 (v + 4096 * op))) := by
  obtain ⟨-, -, -, -, -, hnow⟩ := chgAuth_place o
  obtain ⟨hl, -⟩ := id h
  exact next_of_receive hl (s.wordWrite_waits _ _ _ _ _ _ h (waits hnow))

/-! ### Account commands -/

/-- A latched command is carried out by task 0Ah from the tick after its commit (R408). -/
theorem next_of_acctRun {s : State} {op a0 a1 a2 a3 n : Nat} {act : Nat → Nat → Nat → Nat → State → Nat × State} (hu : s.up = true)
    (ht : s.task0A = true) (hn : n < s.now) (hc : s.chg.cmd = some (op, a0, a1, a2, a3, n)) {r : Nat × State}
    (hr : act a0 a1 a2 a3 s = r) : (Host.Outcome.next (s.run (fun s => s.acctRun op act)) : Out) = .next (r.2.acctDone r.1) := by
  refine next_of_run hu ?_
  unfold State.acctRun
  rw [hc]
  dsimp only
  rw [if_pos ⟨rfl, ht, hn⟩, hr]

/-- A command on an account that the table names. -/
theorem State.acctNamed_found (s : State) {a0 : Nat} {a : Acct} (f : Nat → Acct → Nat × State) (hr : s.chg.restored = true) (h0 : a0 < 4096)
    (ha : SMap.at? s.chg.accounts a0 = some a) : s.acctNamed a0 f = f a0 a := by
  unfold State.acctNamed
  rw [if_neg (by simp [hr]), if_neg (by omega), ha]

/-- Settles O22: each clause is its command evaluated under the conditions that it asks for. -/
theorem accountCommandsComplete : Obligations.AccountCommandsComplete := by
  unfold Obligations.AccountCommandsComplete
  refine ⟨fun s p o acct op v c hc => ?_, fun s o hp hst hi ha => next_of_inCommit hp (if_pos ⟨hst, hi, ha⟩),
    fun s a hl ht hsec h0 h1 ha => ?_, fun s t o e i hu ht0 ht he hi hpend htick => ?_,
    fun s a0 a1 a2 a3 n hu ht hn => ⟨fun hc hr => ?_, fun hc hr h0 hlen hb1 hb2 ha => ⟨_, ?_, rfl⟩,
      fun a hr h0 ha => ⟨fun hc hx => ⟨_, ?_, rfl⟩, fun hc h1 => ⟨_, ?_, rfl⟩, fun hc => ?_, fun hc ho => ⟨_, ?_, rfl⟩⟩,
      fun hc hb => ?_⟩,
    fun s t p hu hr ht0 hres hl => ?_⟩
  · simp only [List.mem_cons, List.not_mem_nil, or_false, Prod.mk.injEq] at hc
    rcases hc with ⟨rfl, rfl, rfl⟩ | ⟨rfl, rfl, rfl⟩ | ⟨rfl, rfl, rfl⟩ | ⟨rfl, rfl, rfl⟩ | ⟨rfl, rfl, rfl⟩
    · exact ⟨next_of_authWrite, fun hu => s.committed_chgAuth p _ o 0 hu acct.isLt⟩
    · exact ⟨next_of_authWrite, fun hu => s.committed_chgAuth p _ o 1 hu (by decide)⟩
    · exact ⟨next_of_authWrite, fun hu => s.committed_chgAuth p _ o 2 hu (by decide)⟩
    · exact ⟨next_of_authWrite, fun hu => s.committed_chgAuth p _ o 3 hu (by decide)⟩
    · exact ⟨next_of_authWrite, fun hu => s.committed_chgAuth p _ o 4 hu (by decide)⟩
  · refine next_of_receive hl ?_
    dsimp only
    have hlim : s.limitNow 0 = some (creditLimit a.bal (s.outlet 0).table ((s.now - (s.outlet 0).authAt) / ticksPerSec)) :=
      (if_pos h0).trans (congrArg (Option.map _) ha)
    rw [if_pos ⟨ht, hsec⟩, List.foldl_cons, List.foldl_cons, List.foldl_nil, hlim, show s.limitNow 1 = none from if_neg (by simp [h1])]
  · refine next_of_run hu ?_
    rw [if_neg (by simp [ht0])]
    dsimp only
    rw [← ht, he, hi]
    exact if_neg (by simp [hpend, htick])
  · refine next_of_acctRun hu ht hn hc (r := (_, _)) ?_
    exact if_pos hr
  · refine next_of_acctRun hu ht hn hc ?_
    dsimp only
    rw [if_neg (by simp [hr]), if_neg (by omega), ha, if_neg (by simp), hlen]
    rfl
  · refine next_of_acctRun hu ht hn hc ?_
    exact (s.acctNamed_found _ hr h0 ha).trans (if_neg (by omega))
  · refine next_of_acctRun hu ht hn hc ?_
    exact (s.acctNamed_found _ hr h0 ha).trans (if_neg (by omega))
  · refine next_of_acctRun hu ht hn hc (r := (_, _)) ?_
    exact s.acctNamed_found _ hr h0 ha
  · refine next_of_acctRun hu ht hn hc ?_
    exact (s.acctNamed_found _ hr h0 ha).trans (if_neg (by simp [ho]))
  · refine next_of_acctRun hu ht hn hc (r := (_, _)) ?_
    exact if_neg (by simp [hb])
  · refine next_of_run hu ?_
    rw [if_neg (by simp [hr, ht0, hres])]
    dsimp only
    rw [hl]

end Sys2Proof.Machine
end

section
/-!
R413-R440: where the commands of the storage array, of its translation and of the hold-up check complete.
-/
namespace Sys2Proof.Machine

/-! ### The start of the array -/

/-- The start of the array sends commands over the NAND interface; it leaves the registers and the hold-up check as they are (R413). -/
theorem State.sendStart_keeps (s : State) : s.sendStart.regs = s.regs ∧ s.sendStart.ftl.hold = s.ftl.hold := by
  unfold State.sendStart
  dsimp only
  generalize (List.range 4).filter _ = l
  generalize s.get R.NND_CTL_RATE = r
  constructor
  · exact State.foldl_keeps State.regs (fun t c => by simp only [State.nandCmd, State.send_regs]) l s
  · exact State.foldl_keeps (fun t : State => t.ftl.hold) (fun t c => by simp only [State.nandCmd, State.send_ftl]) l s

/-- The geometry shown by NND_GEOM and the persistence rate leave the state of storage as it is. -/
theorem State.showGeo_stor (s : State) (luns page tprog rate : Nat) (hs : Regs.wf s.regs = true) :
    ((s.setAll [(R.NND_GEOM_LUNS, luns), (R.NND_GEOM_PAGE, page), (R.NND_GEOM_TPROG, tprog)]).set R.FTL_RATE_RATE rate).stor = s.stor := by
  refine (State.get_set_apart _ _ _ _ (by decide) (s.setAll_wf _ hs)).trans (State.get_setAll_apart _ s _ (fun e he => ?_) hs)
  simp only [List.mem_cons, List.not_mem_nil, or_false] at he
  rcases he with rfl | rfl | rfl <;> rfl

/-- An accepted array leaves the hold-up check as it is (R413, R434). -/
theorem State.takeGeo_hold (s : State) (g : Geo) (bad : List Nat) : (s.takeGeo g bad).ftl.hold = s.ftl.hold := by
  obtain ⟨-, hh⟩ := s.sendStart_keeps
  unfold State.takeGeo
  dsimp only
  rw [State.set_ftl, State.setAll_ftl, hh]

/-- An accepted array leaves the state of storage as it is (R413). -/
theorem State.takeGeo_stor (s : State) (g : Geo) (bad : List Nat) (hs : Regs.wf s.regs = true) : (s.takeGeo g bad).stor = s.stor := by
  obtain ⟨hr, -⟩ := s.sendStart_keeps
  unfold State.takeGeo
  extract_lets n t u v
  have hu : u.regs = s.regs := hr
  clear_value u
  exact (u.showGeo_stor _ _ _ _ (by rwa [hu])).trans (State.get_congr hu _)

/-- A decision of the hold-up check ends it and notes the tick (R434). -/
theorem State.holdDecide_hold (s : State) (pass : Bool) : (s.holdDecide pass).ftl.hold = { start := none, meas := none, decided := some s.now } := by
  unfold State.holdDecide
  dsimp only
  split <;> rfl

/-- Settles O23: each clause is its command evaluated under the conditions that it asks for. -/
theorem storageCommandsComplete : Obligations.StorageCommandsComplete := by
  unfold Obligations.StorageCommandsComplete
  refine ⟨fun s k dst ok p hp hk ho => ?_, fun s block hp hc hf hw => ⟨?_, ?_⟩, fun s block n ok hp hc hf => ?_,
    fun s lun corr bad hp hm hl => next_of_sense hp (if_pos ⟨hm, hl⟩), fun s t b moves hu hm hw ht hc => ⟨fun hr => ?_, fun hr => ?_⟩,
    fun s moves hu hm hst hw hf hsp hb => ?_, fun s dst ok hu h8 hm => ?_, fun s reached fall time a hu hs hw hm hr ha => ?_,
    fun s a hp hs hm ha => ?_, fun s m hu hm ha => ?_,
    fun s pages bad hu he hst hm hf hw hs => ⟨fun ha hn => ?_, fun g ha hg => ⟨fun hd => ?_, fun hd => ?_⟩, fun ha hd => ?_⟩,
    fun s temps hu ha => ⟨_, next_of_run hu (if_pos ha), rfl⟩⟩
  · refine next_of_sense hp ?_
    rw [hk]
    exact if_pos ho
  · refine next_of_sense hp ?_
    rw [if_pos hc, hf]
    dsimp only
    rw [if_neg (by simp [hw]), if_pos rfl]
    rfl
  · refine next_of_sense hp ?_
    rw [if_pos hc, hf]
    dsimp only
    rw [if_neg (by simp [hw]), if_neg Bool.false_ne_true]
    rfl
  · refine next_of_sense hp ?_
    rw [if_pos hc, hf]
  · refine next_of_run hu ?_
    rw [if_neg (by simp [hm, hw])]
    dsimp only
    rw [← ht, if_pos hc, State.collect, if_pos hr]
  · refine next_of_run hu ?_
    rw [if_neg (by simp [hm, hw])]
    dsimp only
    rw [← ht, if_pos hc, State.collect, if_neg (by simp [hr])]
  · refine next_of_run hu ?_
    rw [if_neg (by simp [hm, hw])]
    exact if_pos ⟨hst, hf, hsp, .inr hb⟩
  · refine next_of_run hu ?_
    cases hd : s.ftl.dirty with
    | nil => simp [hd] at h8
    | cons d rest =>
      have h7 : 7 ≤ rest.length := by simpa [hd] using h8
      exact if_pos (by simp [hm, h7])
  · refine next_of_run hu ?_
    rw [hs]
    exact if_pos ⟨hw, hm, hr, ha⟩
  · refine next_of_phase hp (by decide) ?_
    unfold State.inCommit
    rw [if_pos hp]
    dsimp only
    rw [hs]
    exact if_pos ⟨hm, ha⟩
  · refine ⟨?t, next_of_run hu ?_, ?_, ?_⟩
    rotate_left
    · rw [if_pos (by simpa using ha), hm]
    · rw [State.holdDecide_hold]
      rfl
    · rw [State.holdDecide_hold]
  · refine next_of_run hu ((if_pos ⟨he, hst, hm, hf, hw⟩).trans ?_)
    have h5 : (s.sendStart.set R.FTL_STAT_STATE 5).stor = 5 :=
      s.sendStart.get_set_same R.FTL_STAT_STATE 5 (by decide) (by decide) (by rwa [s.sendStart_keeps.1])
    rw [ha, hn]
    exact if_neg (fun h => absurd (h5.symm.trans h.1) (by decide))
  · refine next_of_run hu ((if_pos ⟨he, hst, hm, hf, hw⟩).trans ?_)
    rw [ha, hg]
    exact if_neg (fun h => h.2 ((congrArg HoldUp.decided (s.takeGeo_hold g bad)).trans hd))
  · refine next_of_run hu ((if_pos ⟨he, hst, hm, hf, hw⟩).trans ?_)
    rw [ha, hg]
    exact if_pos ⟨(s.takeGeo_stor g bad hs).trans hst, fun h => hd ((congrArg HoldUp.decided (s.takeGeo_hold g bad)).symm.trans h)⟩
  · refine next_of_run hu ((if_pos ⟨he, hst, hm, hf, hw⟩).trans ?_)
    rw [ha]
    exact if_pos ⟨hst, hd⟩

end Sys2Proof.Machine
end

section
/-!
R427-R441, R505: where the commands of the ledger, its fences and the drydown complete.
-/
namespace Sys2Proof.Machine

/-! ### Commits of FTL_FENCE and FTL_CMD -/

theorem State.fieldCommitted_ledgerFence (s : State) (p : Path) (hu : s.up = true) : s.fieldCommitted p R.FTL_FENCE_ISSUE 1 = s.fenceBy p := by
  rw [s.fieldCommitted_command p hu (by decide +kernel)]
  unfold State.hookCommand
  iterate 9 rw [if_neg (by decide)]
  rw [if_pos (by decide)]
  exact if_pos (by decide)

theorem State.fieldCommitted_format (s : State) (p : Path) (hu : s.up = true) (h : s.fieldStands p R.FTL_CMD_OP 1) :
    s.fieldCommitted p R.FTL_CMD_OP 1 = s.formatRun := by
  rw [s.fieldCommitted_command_stands p hu (by decide +kernel) h]
  unfold State.hookCommand
  iterate 10 rw [if_neg (by decide)]
  exact if_pos (by decide)

/-! ### The end of a drydown -/

/-- The hold at the end of a drydown resets the die and stops the device (R504). -/
theorem State.holdDie_held (s : State) : s.holdDie.isl.halted = true ∧ s.holdDie.phase = .held ∧ s.holdDie.mem = [] := by
  unfold State.holdDie State.dieWarned
  dsimp only
  split <;> exact ⟨rfl, rfl, rfl⟩

/-- Settles O24: each clause is its command evaluated under the conditions that it asks for. -/
theorem ledgerCommandsComplete : Obligations.LedgerCommandsComplete := by
  unfold Obligations.LedgerCommandsComplete
  refine ⟨fun s hu h9 hr hw hl => next_of_run hu (if_pos ⟨h9, hr, hw, hl⟩), fun s b hu hst hw hb => ?_, fun s hu => next_of_run hu rfl,
    fun s p h => next_of_field h (waits (by decide)), fun s p hu => s.fieldCommitted_ledgerFence p hu,
    fun s f rest hu hf hw hst hd => ?_, fun s f rest hu hf hw hst => ?_, fun s hu hm hst hh hl => next_of_run hu (if_pos ⟨hm, hst, hh, hl⟩),
    fun s hu hh hst hl => next_of_run hu (if_pos ⟨hh, hst, hl⟩), fun s u rest hu hun hst ha => ⟨_, rfl, fun hm => ?_, fun m hm hne => ?_⟩,
    fun s tries hu h1 h2 h3 h4 h5 => ⟨fun hc hd => ?_, fun hc => ?_⟩,
    fun s tries hu hr hst => next_of_run hu (if_pos ⟨hr, .inl hst⟩), fun s tries hu hr hst hw => next_of_run hu (if_pos ⟨hr, hst, hw⟩),
    fun s us hu hst hi hd => ⟨_, next_of_run hu (if_pos ⟨hst, hi, hd⟩), State.holdDie_held _⟩,
    fun s hu hst => ⟨_, next_of_run hu (if_pos (.inr hst)), State.holdDie_held _⟩, fun s p h => next_of_field h (waits (by decide)),
    fun s p hu h => s.fieldCommitted_format p hu h⟩
  · refine next_of_run hu ?_
    rw [if_pos ⟨hst, hw⟩, hb]
  · refine next_of_run hu ?_
    rw [if_neg (by simp [hw]), hf]
    dsimp only
    rw [if_neg (by simp [hst]), if_pos hd]
  · refine next_of_run hu ?_
    rw [if_neg (by simp [hw]), hf]
    exact if_pos hst
  · refine next_of_run hu ?_
    rw [hun]
    dsimp only
    rw [if_neg (by simp [hst, ha]), if_neg (by simp [hm])]
  · refine next_of_run hu ?_
    rw [hun]
    dsimp only
    rw [if_neg (by simp [hst, ha]), hm, if_pos hne]
  · refine next_of_run hu ?_
    rw [if_pos ⟨h1, h2, h3, h4, h5⟩, if_neg (by simp [hc]), if_pos hd]
  · refine next_of_run hu ?_
    rw [if_pos ⟨h1, h2, h3, h4, h5⟩, if_pos hc]

end Sys2Proof.Machine
end

section
/-!
R447-R460, R472-R511: where the commands of the event recorder, of updates, of the SVC port and of the always-on island complete.
-/
namespace Sys2Proof.Machine

/-! ### The event recorder -/

/-- The commit of a write of EVR_CMD while no command runs latches its operation (R449). -/
theorem State.fieldCommitted_evCmd (s : State) (p : Path) {op : Nat} (hu : s.up = true) (hb : s.on R.EVR_CMD_BUSY = false)
    (ho : op < 8) (h : s.fieldStands p R.EVR_CMD_OP op) : s.fieldCommitted p R.EVR_CMD_OP op = s.evLatch p op := by
  rw [s.fieldCommitted_command_stands p hu (by decide +kernel) h]
  unfold State.hookCommand
  iterate 3 rw [if_neg (by decide)]
  rw [if_pos (by decide), if_neg (by simp [hb]), s.newVal_field _ _ (by decide)]
  exact congrArg (s.evLatch p) (Nat.mod_eq_of_lt ho)

/-- FLUSH asks for a program of the open unit in BUFFERED mode, and else for nothing (R454). -/
theorem State.evLatch_flush (s : State) (p : Path) :
    s.evLatch p 2 = { s with evr := { s.evr with flush := s.evr.flush || (decide (s.evMode = 1) && s.evOpenUnit.isSome) } } := rfl

/-- Settles O25: each clause is its command evaluated under the conditions that it asks for. -/
theorem recorderCommandsComplete : Obligations.RecorderCommandsComplete := by
  unfold Obligations.RecorderCommandsComplete
  refine ⟨fun s k e hu hn => ?_, fun s k e hp hn ht ha => ?_, fun s n k hu h0 => next_of_run hu (if_neg h0),
    fun s p h => next_of_field h (waits (by decide)), fun s p h => next_of_field h (waits (by decide)),
    fun s p h => next_of_field h (waits (by decide)),
    fun s p hu hb => ⟨fun h hm ho => ?_, fun h hm => ?_, fun h => s.fieldCommitted_evCmd p hu hb (by decide) h,
      fun h => s.fieldCommitted_evCmd p hu hb (by decide) h⟩,
    fun s p seq hc => ?_, fun s p seq hc => ?_, fun s u hu h1 h2 h3 h4 hd => ?_⟩
  · refine next_of_run hu ?_
    rw [hn]
  · refine next_of_phase hp (by decide) ?_
    dsimp only
    rw [hn]
    exact if_pos ⟨hp, ha⟩
  · rw [s.fieldCommitted_evCmd p hu hb (by decide) h, s.evLatch_flush, hm, ho, decide_eq_true rfl, Bool.and_self, Bool.or_true]
  · have hno : (decide (s.evMode = 1) && s.evOpenUnit.isSome) = false := by
      rcases hm with hm | hm <;> simp [hm]
    rw [s.fieldCommitted_evCmd p hu hb (by decide) h, s.evLatch_flush, hno, Bool.or_false]
  · unfold State.evCommit
    rw [hc]
    rfl
  · unfold State.evCommit
    rw [hc]
    rfl
  · refine next_of_run hu ?_
    rw [if_pos ⟨h1, h2, h3, h4⟩, hd]

/-! ### Updates and the SVC port -/

theorem State.fieldCommitted_confirm (s : State) (p : Path) (hu : s.up = true) :
    s.fieldCommitted p R.UPD_CONFIRM_CONFIRM 1 = s.confirm := by
  rw [s.fieldCommitted_command p hu (by decide +kernel)]
  unfold State.hookCommand
  iterate 11 rw [if_neg (by decide)]
  rw [if_pos (by decide)]
  exact if_pos (by decide)

/-- Settles O26: each clause is its command evaluated under the conditions that it asks for. -/
theorem updateCommandsComplete : Obligations.UpdateCommandsComplete := by
  unfold Obligations.UpdateCommandsComplete
  refine ⟨fun s p h => next_of_field h (waits (by decide)), fun s p hu => s.fieldCommitted_confirm p hu,
    fun s hp hr hl => next_of_inCommit hp (if_pos ⟨hr, hl⟩), fun s hu hl ht hf => ?_,
    fun s bytes hl hv h8 h1 h6 hn => next_of_receive hl (if_pos ⟨hv, h8, h1, h6, hn⟩), fun s up => ⟨fun hp => ?_, fun hp => ?_⟩⟩
  · refine next_of_run hu ?_
    dsimp only
    rw [hf]
    exact if_pos ⟨hl, ht, rfl⟩
  · exact (congrArg Host.Outcome.next (if_pos (State.up_of_phase hp (by decide)))).trans (next_of_sense hp rfl)
  · refine congrArg Host.Outcome.next (if_neg ?_)
    simp [State.up, hp]

/-! ### The island -/

/-- A command of the island completes while the island runs. -/
theorem next_of_islRun {s t : State} {f : State → State} (hd : s.isl.dead = false) (h : f s = t) :
    (Host.Outcome.next (s.islRun f) : Out) = .next t := by
  unfold State.islRun
  rw [if_neg (by simp [hd]), h]

/-- The start of a battery period leaves the phase, SRAM and the supply of the island as they are (R187). -/
theorem State.batteryPeriod_held {s : State} (l : List (Fld × Nat)) (hp : s.phase = .held) (hm : s.mem = []) (hb : s.isl.battery = true)
    (hh : s.isl.halted = false) : ((s.setAll l).wrap R.BAT_CNT_PERIODS).sillageStart.phase = .held ∧
    ((s.setAll l).wrap R.BAT_CNT_PERIODS).sillageStart.mem = [] ∧
    ((s.setAll l).wrap R.BAT_CNT_PERIODS).sillageStart.isl.battery = true ∧
    ((s.setAll l).wrap R.BAT_CNT_PERIODS).sillageStart.isl.halted = false := by
  simp [State.sillageStart, hp, hm, hb, hh]

/-- Settles O27: each clause is its command evaluated under the conditions that it asks for. -/
theorem islandCommandsComplete : Obligations.IslandCommandsComplete := by
  unfold Obligations.IslandCommandsComplete
  refine ⟨fun s hd hb hw hu => ?_, fun s hd hb hw hp => ?_, fun s hd hb => ⟨_, next_of_islRun hd (if_neg (by simp [hb])), ?_⟩,
    fun s hd hh hb => next_of_islRun hd (if_pos ⟨hh, hb⟩), fun s mv hd hlo => next_of_islRun hd (if_pos hlo),
    fun s mv hd hhi => next_of_islRun hd (if_neg (by omega)), fun s p sec h => next_of_field h (waits (by decide)),
    fun s p sec hu => s.fieldCommitted_rtcSetLo p sec hu, fun s hd => next_of_islRun hd rfl,
    fun s p key h => next_of_field h (waits (by decide)), fun s p key hu => s.fieldCommitted_wdKick p key hu,
    fun s hp hw => next_of_inCommit hp (if_pos hw), fun s hd hb => next_of_islRun hd (if_pos hb),
    fun s hd hb => next_of_islRun hd (if_neg (by simp [hb]))⟩
  · refine next_of_islRun hd ?_
    rw [if_neg (by simp [hb, hw])]
    exact if_pos hu
  · refine next_of_islRun hd ?_
    rw [if_neg (by simp [hb, hw])]
    exact if_neg (by simp [State.up, hp])
  · exact State.batteryPeriod_held _ rfl rfl rfl rfl

end Sys2Proof.Machine
end

section
/-!
R517-R527: where the commands of the test interface complete.
-/
namespace Sys2Proof.Machine

/-! ### Commits of the perturbation registers -/

/-- The commit of a write of one of the perturbation registers. -/
theorem State.hook_test (s : State) (p : Path) (g : Nat) {a : Nat} {n : Word} (m v : Word) (h : a / 65536 = R.PRT_CTL / 65536) :
    s.hook ⟨p, g, a, n, v⟩ m = s.hookTest a m v := by
  unfold State.hook
  dsimp only
  rw [h, if_neg (by simp [R.PRT_CTL, R.BNK_CTL]), if_neg (by simp [R.PRT_CTL, R.QUE_CTL]), if_neg (by decide), if_pos rfl]

theorem State.committed_skew (s : State) (p : Path) (g : Nat) (v : Word) (hu : s.up = true) (hs : s.stands p g R.PRT_SKEW 0xFFFFF#32 v) :
    s.committed p g R.PRT_SKEW 0xFFFFF#32 v = s.writeSkew v 0xFFFFF#32 :=
  (s.committed_taken hu (by decide +kernel) hs).trans ((s.hook_test p g _ _ (by decide)).trans (if_pos rfl))

theorem State.committed_nand (s : State) (p : Path) (g : Nat) (v : Word) (hu : s.up = true) (hs : s.stands p g R.PRT_NAND 7#32 v) :
    s.committed p g R.PRT_NAND 7#32 v = s.writeNand v 7#32 := by
  refine (s.committed_taken hu (by decide +kernel) hs).trans ((s.hook_test p g _ _ (by decide)).trans ?_)
  unfold State.hookTest
  rw [if_neg (by decide), if_pos rfl]

theorem State.committed_tag (s : State) (p : Path) (g : Nat) (v : Word) (hu : s.up = true) (hs : s.stands p g R.PRT_TAG 0x1FFF03#32 v) :
    s.committed p g R.PRT_TAG 0x1FFF03#32 v = s.writeTag v 0x1FFF03#32 := by
  refine (s.committed_taken hu (by decide +kernel) hs).trans ((s.hook_test p g _ _ (by decide)).trans ?_)
  unfold State.hookTest
  rw [if_neg (by decide), if_neg (by decide), if_pos rfl]

theorem State.committed_loop (s : State) (p : Path) (g : Nat) (v : Word) (hu : s.up = true) (hs : s.stands p g R.PRT_LOOP 0xFF73#32 v) :
    s.committed p g R.PRT_LOOP 0xFF73#32 v = s.applyLoop v 0xFF73#32 := by
  refine (s.committed_taken hu (by decide +kernel) hs).trans ((s.hook_test p g _ _ (by decide)).trans ?_)
  unfold State.hookTest
  rw [if_neg (by decide), if_neg (by decide), if_neg (by decide), if_pos rfl]

theorem State.fieldCommitted_dirhold (s : State) (p : Path) (v : Nat) (hu : s.up = true) :
    s.fieldCommitted p R.PRT_CTL_DIRHOLD v = s.set R.PRT_CTL_DIRHOLD v := by
  rw [s.fieldCommitted_always p hu (by decide +kernel)]
  refine (s.hook_test p _ _ _ (by decide)).trans ?_
  unfold State.hookTest
  iterate 5 rw [if_neg (by decide)]
  exact s.mergeWord_field _ _ 

/-- A write of the nanoseconds of a test step that passes requests the step at once (R279, R522). -/
theorem State.fieldWrite_testStep (s : State) (p : Path) (ns : BitVec 31) (h : fieldPassed s p R.PRT_STEPNS_NS ns.toNat) :
    s.fieldWrite p R.PRT_STEPNS_NS ns.toNat = s.requestStep 3 (sgn 31 ns.toNat) := by
  refine (s.wordWrite_passed p _ _ _ _ _ h).trans ?_
  unfold State.acceptWrite
  dsimp only
  rw [if_neg (by decide), if_neg (by decide), if_neg (by decide), if_pos (by decide)]
  rw [show s.newVal ⟨R.PRT_STEPNS_NS.addr, 0, 31⟩ _ _ = _ from s.newVal_field R.PRT_STEPNS_NS ns.toNat (by decide)]
  exact congrArg (fun n => s.requestStep 3 (sgn 31 n)) (Nat.mod_eq_of_lt ns.isLt)

/-! ### The JTAG port -/

/-- A JTAG instruction completes where the port works (R517). -/
theorem next_of_jtagRun {s t : State} {f : State → State} (hd : s.isl.dead = false) (hb : s.isl.battery = false) (h : f s = t) :
    (Host.Outcome.next (s.jtagRun f) : Out) = .next t := by
  rw [s.jtagRun_on f hd hb, h]

@[simp] theorem State.drawChunks_regs : ∀ (k : Nat) (s : State), (State.drawChunks k s).2.regs = s.regs
  | 0, _ => rfl
  | k + 1, s => by
    simp only [State.drawChunks]
    rw [State.drawChunks_regs k]
    rfl

@[simp] theorem State.drawBytes_regs (s : State) (n : Nat) : (s.drawBytes n).2.regs = s.regs := by
  simp [State.drawBytes]

/-- Settles O28: each clause is its command evaluated under the conditions that it asks for. -/
theorem testCommandsComplete : Obligations.TestCommandsComplete := by
  unfold Obligations.TestCommandsComplete
  have write : ∀ {s : State} {i : Instr} {p : Path} {a : Nat} {m v : Word}, a ∉ [R.TIM_STEPS, R.PRT_STEPS, R.TIM_STEPNS, R.PRT_STEPNS] →
      writePassed s p (agentOf p 0) a m v m →
      (Host.Outcome.next (s.receive i (fun s => s.wordWrite p (agentOf p 0) a m v)) : Out) = .next (s.waiting p (agentOf p 0) a m v) :=
    fun ha h => next_of_receive h.1 (State.wordWrite_waits _ _ _ _ _ _ _ h (waits ha))
  refine ⟨fun s p amount step h => write (by decide) h, fun s p v hu hs => s.committed_skew p _ v hu hs,
    fun s p kind h => write (by decide) h, fun s p v hu hs => s.committed_nand p _ v hu hs,
    fun s p tgt page q h => write (by decide) h, fun s p v hu hs => s.committed_tag p _ v hu hs,
    fun s p ns h => next_of_receive h.1 (s.fieldWrite_testStep p ns h),
    fun s p plc eth ser h => write (by decide) h, fun s p v hu hs => s.committed_loop p _ v hu hs,
    fun s p v h => next_of_field h (waits (by decide)), fun s p v hu => s.fieldCommitted_dirhold p _ hu,
    fun s bit hd hb => next_of_jtagRun hd hb rfl, fun s hd hb => next_of_jtagRun hd hb ?_, fun s cells hd hb => ?_,
    fun s cells hd hb hlc => ?_, fun s a v hd hb hl hp => next_of_jtagRun hd hb ?_, fun s a hd hb hl hp => next_of_jtagRun hd hb ?_⟩
  · rw [idcodeWord, show leBytes 4 0x196401D5 = [0xD5#8, 0x01#8, 0x64#8, 0x19#8] by decide]
  · exact ⟨_, next_of_jtagRun hd hb rfl, rfl, rfl, s.drawBytes_regs _, s.drawBytes_mem _⟩
  · exact ⟨_, next_of_jtagRun hd hb (if_pos hlc), by simp, by simp, by simp, by simp⟩
  · rw [if_pos (by simp [State.up_of_listening hl, hp]), s.receive_listening _ _ hl]
    rfl
  · rw [if_pos (by simp [State.up_of_listening hl, hp]), s.receive_listening _ _ hl]
    rfl

end Sys2Proof.Machine
end
